-- ==== Sys2Proof/Word.lean ====
section
/-! DEFINITION. The word types of the Keaha model: bytes, 32-bit registers, sparse maps and sparse memories. -/

namespace Sys2Proof

/-- One byte. -/
abbrev Byte := BitVec 8

/-- A register is 32 bits wide (R9). -/
abbrev Word := BitVec 32

/-- A sparse map from natural keys, kept with strictly rising keys. -/
abbrev AMap (α : Type) := List (Nat × α)

/-- A sparse memory: the bytes that differ from what an unlisted address reads as. -/
abbrev Mem := List Host.Cell

end Sys2Proof
end

