-- ==== Sys2Proof/Syntax.lean ====
section
/-! DEFINITION. The commands and events of the Keaha: one constructor of `Instr` per row of spec/opcode_table.json.
Operands are what the sender or the outside world supplies; everything else is in State. -/

namespace Sys2Proof

/-- The control ports, in the port order of R41 (R614). -/
inductive Port where
  | pcieA | pcieB | wyile | smbus | jtag
  deriving DecidableEq, Repr

/-- Agents that access registers, in the order of R702. -/
inductive Agent where
  | brim | pcieA | pcieB | crown
  deriving DecidableEq, Repr

/-- The common header of a Gliniril command (R617, R634). On a short-form port `hostAddr` and `hostLen` are
PBUF_OFF and PBUF_LEN. -/
structure CmdHdr where
  port     : Port
  tag      : BitVec 16
  /-- OPCODE as sent, where R622 has no such command: row QUERY then stands for it, and step 1 of R618 refuses it -/
  unknown  : Option (BitVec 8)
  irq      : Bool
  fence    : Bool
  interim  : Bool
  /-- every reserved bit of the header and parameters is 0 (R618, step 1) -/
  clean    : Bool
  hostLen  : Nat
  hostAddr : Nat
  /-- bytes read from the host buffer of a PCIe port, for a command with an In buffer -/
  input    : List Byte
  /-- the read of host memory for this command completes with an error (R621) -/
  hostErr  : Bool
  deriving DecidableEq, Repr

/-- Deep-path parameters of START_AT (R379, R622). -/
structure DeepParams where
  pmax    : Nat
  rqSlot  : Nat
  rqDepth : Nat
  rrSlot  : Nat
  rrDepth : Nat
  rqBase  : Nat
  rrBase  : Nat
  deriving DecidableEq, Repr

/-- The grid of an EYE_SCAN (R535). -/
structure EyeGrid where
  eye    : Nat
  phMin  : Nat
  phMax  : Nat
  phStep : Nat
  ofMin  : Nat
  ofMax  : Nat
  ofStep : Nat
  dwell  : Nat
  deriving DecidableEq, Repr

/-- What the outside world supplies to one step of a long operation (R631). -/
structure StepIn where
  /-- the step ends the operation -/
  last  : Bool
  /-- bytes or units the step covers -/
  amount : Nat
  /-- source bytes read from host memory, or measured values -/
  bytes : List Byte
  /-- the read or write of host memory fails (R621) -/
  hostErr : Bool
  /-- a detected fault that the step cannot pass (R305, R319, R493) -/
  fault : Bool
  deriving DecidableEq, Repr

/-- What a TRAIN message says (R588): sender's package, link, L, B and schedule count of the frame's period
start, the peer's last count echoed, and the time it was held. -/
structure TrainMsg where
  pkg   : Nat
  link  : Nat
  lat   : Nat
  bud   : Nat
  count : Nat
  echo  : Nat
  hold  : Nat
  deriving DecidableEq, Repr

/-- A 96-bit time-base value: seconds, nanoseconds, fraction (R550). -/
structure TimeVal where
  sec  : Nat
  ns   : Nat
  frac : Nat
  deriving DecidableEq, Repr

/-- A sample of the twelve thermal sensors of a die, in degrees (R733). -/
abbrev Temps := List Int

/-- The commands and events, one constructor per row of spec/opcode_table.json, in its order. -/
inductive Instr where
  | identify (h : CmdHdr)
  | query (h : CmdHdr) (sel part : Nat)
  | bind (h : CmdHdr) (part : Nat) (regions : BitVec 16) (base size : Nat)
  | unbind (h : CmdHdr) (part : Nat) (regions : BitVec 16)
  | stageImage (h : CmdHdr) (part srcKind dst imgLen chunkOff : Nat)
  | load (h : CmdHdr) (part : Nat) (relaxed flush : Bool) (epoch : Option (BitVec 2)) (img : Nat)
  | startAt (h : CmdHdr) (part : Nat) (align : Bool) (t : Nat) (deep : DeepParams)
  | pause (h : CmdHdr) (part : Nat)
  | saveState (h : CmdHdr) (part base : Nat)
  | restoreState (h : CmdHdr) (part base : Nat)
  | resume (h : CmdHdr) (part t : Nat)
  | setModeAtScaleSet (h : CmdHdr) (part stream n settings : Nat)
  | setModeAtTrigger (h : CmdHdr) (part stream n settings : Nat)
  | setModeAtSeeds (h : CmdHdr) (part stream n pmask : Nat) (seeds : List Nat)
  | setModeAtCancel (h : CmdHdr) (part : Nat)
  | arm (h : CmdHdr) (part group : Nat)
  | disarm (h : CmdHdr) (part group : Nat)
  | forceTrigger (h : CmdHdr) (cond : Nat)
  | scrub (h : CmdHdr) (space : Nat) (repair : Bool) (stks regions base len : Nat)
  | storeSettings (h : CmdHdr) (rmask : Nat)
  | readSettings (h : CmdHdr) (rmask : Nat)
  | eyeScan (h : CmdHdr) (lsel : Nat) (grid : EyeGrid)
  | laneCtlSetMode (h : CmdHdr) (tkind target index : Nat) (args : List Byte)
  | laneCtlUp (h : CmdHdr) (tkind target index : Nat) (args : List Byte)
  | laneCtlDown (h : CmdHdr) (tkind target index : Nat) (args : List Byte)
  | laneCtlSlip (h : CmdHdr) (tkind target index : Nat) (args : List Byte)
  | laneCtlTest (h : CmdHdr) (tkind target index : Nat) (args : List Byte)
  | laneCtlInject (h : CmdHdr) (tkind target index : Nat) (args : List Byte)
  | laneCtlSetEq (h : CmdHdr) (tkind target index : Nat) (args : List Byte)
  | laneCtlSetMap (h : CmdHdr) (tkind target index : Nat) (args : List Byte)
  | laneCtlSetClass (h : CmdHdr) (tkind target index : Nat) (args : List Byte)
  | laneCtlSetOut (h : CmdHdr) (tkind target index : Nat) (args : List Byte)
  | laneCtlSetJesd (h : CmdHdr) (tkind target index : Nat) (args : List Byte)
  | setWakeTol (h : CmdHdr) (part tol : Nat)
  | counterRead (h : CmdHdr) (die mask bmask : Nat)
  | auditFetch (h : CmdHdr) (part : Nat) (close headsOnly : Bool) (batch : Nat)
  | mittenPair (h : CmdHdr) (stop : Bool) (link peer : Nat) (pairs : List (Nat × Nat))
  | mittenPairDissolve (h : CmdHdr)
  | barrier (h : CmdHdr) (tb : Nat) (at_ : TimeVal) (v id : Nat)
  | bufWrite (h : CmdHdr) (data : List Byte)
  | bufRead (h : CmdHdr)
  | longOpStep (port : Port) (tag : BitVec 16) (step : StepIn)
  | ctlSqTailWrite (link : Nat) (tail : Nat)
  | descriptorFetch (link : Nat) (desc : List Byte)
  | ctlCqHeadWrite (link : Nat) (head : Nat)
  | portReset (link : Nat) (linkDown : Bool)
  | smbusBlockWrite (bytes : List Byte) (pecOk : Bool)
  | smbusBlockRead
  | glinSubmit (bytes : List Byte)
  | glinComplete
  | glinChallenge
  | glinResponse (bytes : List Byte)
  | glinLock
  | extest (pins : List Bool)
  | samplePreload (pins : List Bool)
  | idcode
  | clamp
  | highz
  | extestPulse (pins : List Bool)
  | extestTrain (pins : List Bool)
  | bypass
  | registerWrite (agent : Agent) (addr : Nat) (value : Word) (aligned : Bool)
  | rcRead (agent : Agent) (addr : Nat) (aligned : Bool)
  | seqCycleLoRead (die : Nat)
  | gauLyrLoRead (die layer which : Nat)
  | seqPartBndLoRead (part : Nat)
  | capStrmSeqLoRead (die stream : Nat)
  | capStrmSeqLoWrite (die stream : Nat) (value : Word)
  | memErrAddrLoRead (die ctrl : Nat)
  | lanPrbsLoRead (lsel : Nat) (bits : Bool) (counted : Nat)
  | timSrvOffLoRead (tb : Nat)
  | timPpsTauLoRead
  | nvsSeqLoRead (die : Nat)
  | cntValLoRead (die counter : Nat)
  | cntValLoWrite (die counter : Nat) (value : Word)
  | chkResLoRead (die unit : Nat)
  | chkAudBatchLoRead (part : Nat)
  | clrTrip (die : Nat)
  | clrOver (die : Nat)
  | cntSnap (die : Nat)
  | cntUpSnap (link die part : Nat)
  | cntSmpPop (die : Nat)
  | fltLogPop (die : Nat)
  | chkStart (die unit : Nat)
  | chkDataWrite (die unit : Nat) (data : Word)
  | chkFinish (die unit : Nat)
  | tdcCalStart (die pin : Nat)
  | ppsCalStart
  | timSnap
  | tbSet (tb : Nat)
  | tbStep (tb : Nat)
  | tbSetOnPps (tb : Nat)
  | manadjWrite (tb : Nat) (value : Word)
  | g1LoadNow
  | g1LoadAtPps
  | g1Load
  | timeBaseUpdate (tb : Nat)
  | apertureRead (link addr : Nat)
  | bar2Access (link offset : Nat) (write : Option (List Byte)) (len : Nat)
  | firing (unit : Nat)
  | foldSwitch (unit : Nat)
  | standbyFillDone (unit : Nat)
  | pipelineComplete (unit : Nat)
  | burstTokenPlace (unit port : Nat)
  | treeEvaluation (unit : Nat)
  | switchSlot (region cluster src : Nat)
  | fabricSlot (die region src : Nat)
  | crossingRelease (die ep : Nat) (inward : Bool)
  | bridgeRelease (die channel : Nat) (ecc : Nat)
  | memoryReadRelease (die ctrl lane : Nat)
  | memoryWriteSlot (die ctrl lane : Nat)
  | rescaleStage (region cluster : Nat)
  | scaleWaitTimeout (region cluster : Nat)
  | gauntletRun (die layer : Nat)
  | gauntletRunEnd (die engine : Nat)
  | mergeRelease (die layer : Nat)
  | scheduleHang (die part : Nat)
  | rawFrameReceive (psel lane : Nat) (bytes : List Byte) (check : Nat) (corrected : Nat) (failed : Bool)
  | jesdMultiblockReceive (die link : Nat) (lanes : List (List Byte)) (crcOk : Bool)
  | ethFrameReceive (psel : Nat) (bytes : List Byte) (fcs : Nat) (corrected : Nat)
  | eventAssembly (die stream : Nat)
  | entrySlot (die stream : Nat)
  | admissionOpen (part : Nat)
  | latticeOccurrence (die ep : Nat)
  | pinEdge (pin : Nat) (rising : Bool) (k tap : Nat)
  | trigOutPulse (pin : Nat)
  | trigOutPulseEnd (pin : Nat)
  | coincWindowClose (table : Nat)
  | triggerPointAssign (group : Nat)
  | recordSeal (group : Nat)
  | recordDelivery (group : Nat)
  | streamCopy (group : Nat)
  | tdcCalDone (input : Nat) (hist : List Nat)
  | passStart (part : Nat)
  | sectionComplete (part : Nat)
  | swapComplete (part : Nat)
  | prefetchComplete (part : Nat)
  | elasticStep (die : Nat) (up : Bool)
  | modeChangeArm (part : Nat)
  | modeChangeDone (part : Nat)
  | pauseDrained (part : Nat)
  | barrierRelease
  | batchClose (part : Nat)
  | ppsInEdge (rising : Bool) (k tap : Nat)
  | ref10mInEdge (k tap : Nat) (periodOk : Bool)
  | holdover (tb : Nat)
  | ppsOutPulse
  | ppsOutPulseEnd
  | ref10mOutEdge
  | ptpSync (psel k m : Nat) (msg : List Byte)
  | ptpFollowUp (psel : Nat) (msg : List Byte)
  | ptpDelayResp (psel : Nat) (msg : List Byte)
  | tcPtpMessage (psel k m : Nat) (msg : List Byte)
  | tcFrameSend (psel k m : Nat)
  | timeReqSend (die link k m : Nat)
  | timeReq (die link k2 m2 k3 m3 : Nat)
  | timeRsp (die link k m : Nat)
  | wyileFrameSend (die link lane : Nat)
  | wyileFrameReceive (die link lane : Nat) (frame : List Byte) (ok : Bool)
  | nakRetry (die link lane : Nat)
  | train (die link : Nat) (msg : TrainMsg)
  | wyileTrainingDone (die link : Nat) (trips : List Nat)
  | trainingRetry (die link : Nat)
  | trigger (die link : Nat)
  | control (die link : Nat)
  | controlResend (die link : Nat)
  | mittenRecordSend
  | mitten (die link : Nat)
  | mittenWaitExpiry
  | repair (die : Nat)
  | bucketLeak (die bucket : Nat)
  | scrubPass (die : Nat)
  | zeroFillDone (base : Nat)
  | thermalSample (die : Nat) (temps : Temps)
  | thermtrip (die sensor : Nat)
  | crownLockstep (die : Nat) (digest : Word)
  | crownRestartDone (die : Nat)
  | mailboxReport (die core : Nat)
  | brimWatchdog (die core : Nat)
  | brimAccessViolation (die core : Nat)
  | brimRestartDone (die core : Nat) (memOk : Bool)
  | brimHoldExpiry (die core : Nat)
  | debugBlockExpiry
  | coldReset
  | sramFillDone
  | stackTrainingDone (trained : List Bool)
  | memFillDone
  | bootReady
  | flashRequest
  | flashRelease (written : List (Nat × List Byte))
  | regionPowerEntry (region level : Nat)
  | packagePowerEntry (level : Nat)
  | wakeComplete (region : Option Nat)
  | laneStageAdvance (lsel : Nat) (inverted : Bool) (word : BitVec 64)
  | laneDrop (lsel stage : Nat)
  | slipTestDone (lsel : Nat) (words : List (BitVec 64))
  | sysrefEdge (die edge : Nat)
  | laserLoss (oe power : Nat)
  | laserRecovery (oe power : Nat)
  | counterWrap (die counter : Nat) (core : Bool) (n unit : Nat) (pc : Word)
  | pcieLinkUp (link : Nat)
  | digestExchange (part : Nat) (digest : List Byte) (template : Nat)
  | checkerLock (lsel : Nat)
  | ref10mInLoss
  | trstN
  | brimDebugHalt (die core : Nat)
  | brimDebugResume (die core : Nat)
  | ptpDelayReq (tb k m : Nat)
  deriving DecidableEq, Repr

end Sys2Proof
end

