-- ==== Sys2Proof/Decode.lean ====
section
/-! DEFINITION. Words of the command table: the table gives no row any bits, so no word spells a command. Descriptors and
short forms, which do spell commands, are decoded by `Machine.commandOf` (R617, R622, R634). -/

namespace Sys2Proof

/-- The command that a word spells by the table's bits: none. DESIGN CHOICE: log entry 5. -/
def decodeTableWord (_nbits _w : Nat) : Option Instr := none

end Sys2Proof
end

