-- ==== Sys2Proof/Config.lean ====
section
/-! DEFINITION. What the spec leaves open: values with no body, so that nothing can be proved of which value
they take. The step draws the next one from the counter `State.free`. -/

namespace Sys2Proof

/-- The Moard vendor identifier (R6); the spec names none. UNVERIFIED: log entry 27. -/
opaque Config.vendorId : BitVec 16

/-- KIND, LAST and BLK of the sideband of a token read from stacked memory (R226); the spec states none. UNVERIFIED: log entry 28. -/
opaque Config.memSide : Nat → BitVec 32

/-- Which of two whole seconds equally near a PPS edge is the nearest (R563): true for the later one. UNVERIFIED: log entry 29. -/
opaque Config.ppsTie : Nat → Bool
/-- A 48-bit checker counter past its largest count (R538). UNVERIFIED: log entry 30. -/
opaque Config.prbsPast : Nat → BitVec 48

/-- The 32 body bytes of a TRAIN segment (R588, R596); the spec gives what they say and not where. UNVERIFIED: log entry 31. -/
opaque Config.trainBody : Nat → Nat → Nat → Nat → Nat → List (BitVec 8)

/-- BLK of token k of an event that admission passes to the lattice (R142); the spec states none. UNVERIFIED: log entry 32. -/
opaque Config.admBlk : Nat → BitVec 8

/-- UNIT of a log entry for a fault that concerns no unit (R504); the spec states none. UNVERIFIED: log entry 33. -/
opaque Config.noUnit : BitVec 15
/-- DETAIL of a PARITY_RW entry for storage that is neither cluster SRAM nor a stack (R496); the spec states none. UNVERIFIED: log entry 34. -/
opaque Config.noDetail : BitVec 32

/-- Lane and memory frame cycle of a stacked-memory access that no slot table places: of LOAD, a section swap, a scrub or
another long operation (R225). UNVERIFIED: log entry 35. -/
opaque Config.otherSlot : Nat → BitVec 5 × BitVec 12

/-- Bytes of a LOAD, swap, SAVE_STATE or RESTORE_STATE that pass best-effort slots, the others passing image lanes (R225, R317); the
spec does not divide them. UNVERIFIED: log entry 104. -/
opaque Config.bestShare : Nat → Nat

/-- What a die header does not hold of a pending mode change that RESTORE_STATE brings back: the offset of its staged
settings, the programs of a kind-2 change and their new seeds (R318, R324). UNVERIFIED: log entry 36. -/
opaque Config.savedMode : Nat → BitVec 36 × BitVec 16 × List (BitVec 64)

/-- RX_PWR of lane LSEL as the update of a 10 µs interval measures it (R540): an input from the outside. UNVERIFIED: log entry 37. -/
opaque Config.rxPower : Nat → Nat → BitVec 16
/-- TEMP of an optical engine at an update (R549): an input from the outside. UNVERIFIED: log entry 37. -/
opaque Config.engineTemp : Nat → Nat → BitVec 8

/-- The Moard firmware key hash in Crown ROM (R651), SHA-384. UNVERIFIED: log entry 38. -/
opaque Config.firmwareKey : BitVec 384
/-- Minimum firmware version that the one-time-programmable fuses hold: of the Crown patch (0), of the Brim image (1). UNVERIFIED: log entry 38. -/
opaque Config.minVersion : Nat → BitVec 32
/-- A word of a queue pool, as the aperture shows it (R703): the spec does not say which entries of the pool hold which
queued tokens, nor what a freed entry holds (R147). UNVERIFIED: log entry 39. -/
opaque Config.poolWord : Nat → BitVec 32

/-- A utility unit that is at work addresses a bank of its cluster SRAM in a cycle (R165): bank 32 × cluster key + number, and
cycle; the spec does not say in which cycles it does. UNVERIFIED: log entry 81. -/
opaque Config.bankTaken : Nat → Nat → Bool
/-- A row of a term hold or key buffer as the switch reads it (R166): the spec does not say which bytes hold which term.
UNVERIFIED: log entry 102. -/
opaque Config.holdRow : Nat → BitVec 256
/-- Pair `j` of an RTOPK result beyond the keys of its event (R78). UNVERIFIED: log entry 102. -/
opaque Config.rankPair : Nat → Nat → BitVec 48
/-- KIND of token `k` of an event of stream `st` that admission passes to the lattice (R143): DATA, SCALE or CTRL as what the
token is; the spec does not say by what admission knows it. UNVERIFIED: log entry 32. -/
opaque Config.admKind : Nat → Nat → Fin 3
/-- Contents of sync cell `c` of die `d` after the operations applied to the array (R20, R46): cycle, logical region and payload
of each; the spec gives a cell neither width nor operations. UNVERIFIED: log entry 80. -/
opaque Config.syncCell : Nat → Nat → List (Nat × Nat × BitVec 256) → List Bool

/-- A fresh nonce of debug unlock (R657). UNVERIFIED: log entry 40. -/
opaque Config.nonce : Nat → BitVec 256
/-- Moard's JTAG manufacturer identity code, given in the design kit (R728). UNVERIFIED: log entry 41. -/
opaque Config.jtagMaker : BitVec 11

end Sys2Proof
end

