-- ==== Sys2Proof/Machine/Maps.lean ====
section
/-! DEFINITION. Sparse maps and memories in one canonical form, byte strings, bit fields. -/

namespace Sys2Proof.Machine

/-- The entry at key `k`, if any. -/
def mapGet {α : Type} : AMap α → Nat → Option α
  | [], _ => none
  | (j, v) :: m, k => if j = k then some v else mapGet m k

/-- The entry at key `k`, or `d`. -/
def mapGetD {α : Type} (m : AMap α) (k : Nat) (d : α) : α := (mapGet m k).getD d

/-- Set the entry at key `k`, keeping the keys strictly rising. -/
def mapSet {α : Type} : AMap α → Nat → α → AMap α
  | [], k, v => [(k, v)]
  | (j, w) :: m, k, v =>
    if k < j then (k, v) :: (j, w) :: m
    else if k = j then (k, v) :: m
    else (j, w) :: mapSet m k v

/-- Remove the entry at key `k`. -/
def mapErase {α : Type} (m : AMap α) (k : Nat) : AMap α := m.filter (fun e => decide (e.1 ≠ k))

/-- Set the entry at key `k`, or remove it when the value is what an absent entry stands for. -/
def mapPut {α : Type} [DecidableEq α] (m : AMap α) (k : Nat) (v d : α) : AMap α :=
  if v = d then mapErase m k else mapSet m k v

/-- Apply `f` to the entry at key `k`, an absent entry standing for `d`. -/
def mapModify {α : Type} (m : AMap α) (k : Nat) (d : α) (f : α → α) : AMap α :=
  mapSet m k (f (mapGetD m k d))

/-- The keys rise strictly. -/
def mapSorted {α : Type} : AMap α → Bool
  | [] => true
  | [_] => true
  | (j, _) :: (k, v) :: m => decide (j < k) && mapSorted ((k, v) :: m)

/-- One byte of a memory; an unlisted byte reads as 0 (R470 fills every byte with zero). DESIGN CHOICE: log entry 43. DESIGN CHOICE: log entry 45. -/
def memByte (m : Mem) (a : Nat) : Byte := mapGetD m a 0

/-- Write one byte; a byte written 0 leaves the list, so equal memories are equal lists. DESIGN CHOICE: log entry 45. -/
def memSet (m : Mem) (a : Nat) (b : Byte) : Mem := mapPut m a b 0

/-- The canonical form: keys rise strictly, and no listed byte is 0. DESIGN CHOICE: log entry 45. -/
def memWf (m : Mem) : Bool := mapSorted m && m.all (fun c => decide (c.2 ≠ 0))

/-- `n` bytes from address `a` up. -/
def memRead (m : Mem) (a : Nat) : Nat → List Byte
  | 0 => []
  | n + 1 => memByte m a :: memRead m (a + 1) n

/-- Write a byte string from address `a` up. -/
def memWrite (m : Mem) (a : Nat) : List Byte → Mem
  | [] => m
  | b :: bs => memWrite (memSet m a b) (a + 1) bs

/-- Write `n` zero bytes from address `a` up. -/
def memZero (m : Mem) (a n : Nat) : Mem := m.filter (fun c => decide (c.1 < a ∨ a + n ≤ c.1))

/-! ### Byte strings, little-endian (R9, R257) -/

/-- The value of a little-endian byte string. -/
def leNat : List Byte → Nat
  | [] => 0
  | b :: bs => b.toNat + 256 * leNat bs

/-- The value of a big-endian byte string. -/
def beNat (bs : List Byte) : Nat := leNat bs.reverse

/-- `n` little-endian bytes of a value. -/
def leBytes : Nat → Nat → List Byte
  | 0, _ => []
  | n + 1, v => BitVec.ofNat 8 v :: leBytes n (v / 256)

/-- `n` big-endian bytes of a value. -/
def beBytes (n v : Nat) : List Byte := (leBytes n v).reverse

/-- `n` bytes of a string from offset `o`, missing bytes read as 0. -/
def bytesAt (bs : List Byte) (o n : Nat) : List Byte :=
  let t := (bs.drop o).take n
  t ++ List.replicate (n - t.length) 0

/-- A little-endian field of `n` bytes at offset `o`. -/
def fieldLE (bs : List Byte) (o n : Nat) : Nat := leNat (bytesAt bs o n)

/-- Bits `[hi:lo]` of a value. -/
def bitsOf (v hi lo : Nat) : Nat := (v >>> lo) % 2 ^ (hi + 1 - lo)

/-- Bit `i` of a value. -/
def bitAt (v i : Nat) : Bool := v.testBit i

/-- Two's complement value of the low `w` bits. -/
def signedOf (w v : Nat) : Int :=
  let u := v % 2 ^ w
  if u < 2 ^ (w - 1) then (u : Int) else (u : Int) - 2 ^ w

/-- The low `w` bits of an integer, two's complement. -/
def unsignedOf (w : Nat) (x : Int) : Nat := (x % (2 ^ w : Int)).toNat

/-- 1 for true. -/
def bitOf (b : Bool) : Nat := if b then 1 else 0

/-- Replace bits `[hi:lo]` of a register word. -/
def setBits (w : Word) (hi lo v : Nat) : Word :=
  let m : Word := BitVec.ofNat 32 ((2 ^ (hi + 1 - lo) - 1) <<< lo)
  (w &&& ~~~m) ||| (BitVec.ofNat 32 (v <<< lo) &&& m)

/-- Bits `[hi:lo]` of a register word. -/
def getBits (w : Word) (hi lo : Nat) : Nat := bitsOf w.toNat hi lo

/-- `List.range`-style list of the set bits of a mask below `n`. -/
def maskList (n mask : Nat) : List Nat := (List.range n).filter (fun i => mask.testBit i)

/-- The least number of `b`-sized pieces that cover `a`. -/
def ceilDiv (a b : Nat) : Nat := (a + b - 1) / b

/-- `ceil(log2 n)` for `n ≥ 1`. -/
def ceilLog2 (n : Nat) : Nat := if n ≤ 1 then 0 else Nat.log2 (n - 1) + 1

/-- Replace element `i` of a list. -/
def listSet {α : Type} (l : List α) (i : Nat) (v : α) : List α := l.set i v

/-- Cut a list into pieces of `n`, at most `fuel` pieces. -/
def chunks {α : Type} (n : Nat) : Nat → List α → List (List α)
  | 0, _ => []
  | f + 1, l => if l.isEmpty then [] else l.take n :: chunks n f (l.drop n)

/-- Insert by a key, behind equal ones. -/
def insertBy {α : Type} (f : α → Nat) (x : α) : List α → List α
  | [] => [x]
  | y :: ys => if f x < f y then x :: y :: ys else y :: insertBy f x ys

/-- Sort by a key, equal ones in their order. -/
def sortBy {α : Type} (f : α → Nat) (l : List α) : List α := l.foldl (fun a x => insertBy f x a) []

end Sys2Proof.Machine
end

