-- ==== Sys2Proof/Machine/Crypto.lean ====
section
/-! DEFINITION. Keyed functions of the device: the counter generator (R338 to R342), cyclic check values
(R350, R687 to R690), SHA-384 (R287) and ECDSA P-384 verification (R290, R657). -/

namespace Sys2Proof.Machine

/-! ### Counter generator -/

/-- State of the generator's rounds. -/
structure Gen4 where
  x0 : BitVec 32
  x1 : BitVec 32
  x2 : BitVec 32
  x3 : BitVec 32
  deriving DecidableEq, Repr

/-- One round of R338. -/
def genRound (k0 k1 : BitVec 32) (r : Nat) (g : Gen4) : Gen4 :=
  let kr := k0 + BitVec.ofNat 32 (r * 0x9E3779B9)
  let jr := k1 + BitVec.ofNat 32 (r * 0xBB67AE85)
  let x0 := g.x0 + g.x1
  let x3 := (g.x3 ^^^ x0).rotateLeft 16
  let x2 := g.x2 + x3 + kr
  let x1 := (g.x1 ^^^ x2).rotateLeft 12
  let x0 := x0 + x1
  let x3 := (x3 ^^^ x0).rotateLeft 8
  let x2 := x2 + x3
  let x1 := (x1 ^^^ x2 ^^^ jr).rotateLeft 7
  ⟨x0, x1, x2, x3⟩

/-- ctrgen of R338. -/
def ctrgen (seed : BitVec 64) (blk : BitVec 128) : BitVec 64 :=
  let k0 : BitVec 32 := seed.truncate 32
  let k1 : BitVec 32 := (seed >>> 32).truncate 32
  let g : Gen4 := ⟨blk.truncate 32 ^^^ k0, (blk >>> 32).truncate 32 ^^^ k1,
    (blk >>> 64).truncate 32, (blk >>> 96).truncate 32⟩
  let g := (List.range 6).foldl (fun g r => genRound k0 k1 r g) g
  (g.x3 ^^^ g.x1) ++ (g.x2 ^^^ g.x0)

/-- The block of a draw (R339). -/
def drawBlock (stream seq domain lidx draw : Nat) : BitVec 128 :=
  BitVec.ofNat 128 (stream % 2 ^ 14 * 2 ^ 114 + seq % 2 ^ 48 * 2 ^ 66 + domain % 4 * 2 ^ 64
    + lidx % 2 ^ 27 * 2 ^ 37 + draw % 2 ^ 37)

/-- One draw (R338 to R340). -/
def draw (seed : BitVec 64) (stream seq domain lidx n : Nat) : Nat :=
  (ctrgen seed (drawBlock stream seq domain lidx n)).toNat

/-- The prescale test of R342 with factor `p` on a draw. -/
def prescalePasses (p d : Nat) : Bool := decide (p = 1) || decide (d % 2 ^ 32 < 2 ^ 32 / p)

/-! ### Check values -/

/-- Reverse the low `n` bits of a value. -/
def reverseBits : Nat → Nat → Nat
  | 0, _ => 0
  | n + 1, v => (v % 2) * 2 ^ n + reverseBits n (v / 2)

/-- `k` shifts of a `w`-bit CRC register with polynomial `poly`, most significant bit first. -/
def crcShift (w poly : Nat) : Nat → Nat → Nat
  | 0, r => r
  | k + 1, r =>
    let t := 2 * r
    crcShift w poly k (if t.testBit w then (t ^^^ poly) % 2 ^ w else t % 2 ^ w)

/-- Feed one bit into a `w`-bit CRC register. -/
def crcBit (w poly r : Nat) (b : Bool) : Nat :=
  let top := xor (r.testBit (w - 1)) b
  let t := 2 * r % 2 ^ w
  if top then (t ^^^ poly) % 2 ^ w else t

/-- Feed one byte, least significant bit first when `refin` (R687). -/
def crcByte (w poly : Nat) (refin : Bool) (r : Nat) (b : Byte) : Nat :=
  (List.range 8).foldl (fun r i => crcBit w poly r (b.toNat.testBit (if refin then i else 7 - i))) r

/-- A CRC register over a byte string. -/
def crcBytes (w poly : Nat) (refin : Bool) (r : Nat) (bs : List Byte) : Nat :=
  bs.foldl (crcByte w poly refin) r

/-- The value of a CRC register: reflected when `refout`, then xored. -/
def crcFinal (w : Nat) (refout : Bool) (xorv r : Nat) : Nat :=
  ((if refout then reverseBits w r else r) ^^^ xorv) % 2 ^ w

/-- The CRC-64 of R350 over a byte string; the register starts at `init` as R687 loads it. -/
def crc64 (init : Nat) (bs : List Byte) : BitVec 64 :=
  BitVec.ofNat 64 (crcFinal 64 true (2 ^ 64 - 1) (crcBytes 64 0x42F0E1EBA9EA3693 true (init % 2 ^ 64) bs))

/-- INPUT_CHECK (R350) of an event over the payload bytes of its tokens. -/
def inputCheck (stream seq : Nat) (bs : List Byte) : BitVec 64 :=
  crc64 ((2 ^ 64 - 1) ^^^ (stream * 2 ^ 48 + seq)) bs

/-- CRC-32C (R367); the register starts at `init` as R687 loads it. -/
def crc32c (init : Nat) (bs : List Byte) : BitVec 32 :=
  BitVec.ofNat 32 (crcFinal 32 true (2 ^ 32 - 1) (crcBytes 32 0x1EDC6F41 true (init % 2 ^ 32) bs))

/-! ### SHA-384 -/

/-- Round constants of SHA-512 (FIPS 180-4), part 0. -/
def shaK0 : List (BitVec 64) := [
  0x428A2F98D728AE22#64, 0x7137449123EF65CD#64, 0xB5C0FBCFEC4D3B2F#64, 0xE9B5DBA58189DBBC#64,
  0x3956C25BF348B538#64, 0x59F111F1B605D019#64, 0x923F82A4AF194F9B#64, 0xAB1C5ED5DA6D8118#64,
  0xD807AA98A3030242#64, 0x12835B0145706FBE#64, 0x243185BE4EE4B28C#64, 0x550C7DC3D5FFB4E2#64,
  0x72BE5D74F27B896F#64, 0x80DEB1FE3B1696B1#64, 0x9BDC06A725C71235#64, 0xC19BF174CF692694#64,
  0xE49B69C19EF14AD2#64, 0xEFBE4786384F25E3#64, 0x0FC19DC68B8CD5B5#64, 0x240CA1CC77AC9C65#64]
/-- Round constants of SHA-512 (FIPS 180-4), part 1. -/
def shaK1 : List (BitVec 64) := [
  0x2DE92C6F592B0275#64, 0x4A7484AA6EA6E483#64, 0x5CB0A9DCBD41FBD4#64, 0x76F988DA831153B5#64,
  0x983E5152EE66DFAB#64, 0xA831C66D2DB43210#64, 0xB00327C898FB213F#64, 0xBF597FC7BEEF0EE4#64,
  0xC6E00BF33DA88FC2#64, 0xD5A79147930AA725#64, 0x06CA6351E003826F#64, 0x142929670A0E6E70#64,
  0x27B70A8546D22FFC#64, 0x2E1B21385C26C926#64, 0x4D2C6DFC5AC42AED#64, 0x53380D139D95B3DF#64,
  0x650A73548BAF63DE#64, 0x766A0ABB3C77B2A8#64, 0x81C2C92E47EDAEE6#64, 0x92722C851482353B#64]
/-- Round constants of SHA-512 (FIPS 180-4), part 2. -/
def shaK2 : List (BitVec 64) := [
  0xA2BFE8A14CF10364#64, 0xA81A664BBC423001#64, 0xC24B8B70D0F89791#64, 0xC76C51A30654BE30#64,
  0xD192E819D6EF5218#64, 0xD69906245565A910#64, 0xF40E35855771202A#64, 0x106AA07032BBD1B8#64,
  0x19A4C116B8D2D0C8#64, 0x1E376C085141AB53#64, 0x2748774CDF8EEB99#64, 0x34B0BCB5E19B48A8#64,
  0x391C0CB3C5C95A63#64, 0x4ED8AA4AE3418ACB#64, 0x5B9CCA4F7763E373#64, 0x682E6FF3D6B2B8A3#64,
  0x748F82EE5DEFB2FC#64, 0x78A5636F43172F60#64, 0x84C87814A1F0AB72#64, 0x8CC702081A6439EC#64]
/-- Round constants of SHA-512 (FIPS 180-4), part 3. -/
def shaK3 : List (BitVec 64) := [
  0x90BEFFFA23631E28#64, 0xA4506CEBDE82BDE9#64, 0xBEF9A3F7B2C67915#64, 0xC67178F2E372532B#64,
  0xCA273ECEEA26619C#64, 0xD186B8C721C0C207#64, 0xEADA7DD6CDE0EB1E#64, 0xF57D4F7FEE6ED178#64,
  0x06F067AA72176FBA#64, 0x0A637DC5A2C898A6#64, 0x113F9804BEF90DAE#64, 0x1B710B35131C471B#64,
  0x28DB77F523047D84#64, 0x32CAAB7B40C72493#64, 0x3C9EBE0A15C9BEBC#64, 0x431D67C49C100D4C#64,
  0x4CC5D4BECB3E42B6#64, 0x597F299CFC657E2A#64, 0x5FCB6FAB3AD6FAEC#64, 0x6C44198C4A475817#64]

/-- Initial hash value of SHA-384 (FIPS 180-4). -/
def sha384Init : List (BitVec 64) := [
  0xCBBB9D5DC1059ED8#64, 0x629A292A367CD507#64, 0x9159015A3070DD17#64, 0x152FECD8F70E5939#64,
  0x67332667FFC00B31#64, 0x8EB44A8768581511#64, 0xDB0C2E0D64F98FA7#64, 0x47B5481DBEFA4FA4#64]

/-- All round constants. -/
def shaK : List (BitVec 64) := shaK0 ++ shaK1 ++ shaK2 ++ shaK3

/-- Extend the message schedule by `n` words; the list holds the last words first. -/
def shaSchedule : Nat → List (BitVec 64) → List (BitVec 64)
  | 0, ws => ws
  | n + 1, ws =>
    let w := fun (i : Nat) => ws.getD i 0
    let s0 := (w 14).rotateRight 1 ^^^ (w 14).rotateRight 8 ^^^ (w 14 >>> 7)
    let s1 := (w 1).rotateRight 19 ^^^ (w 1).rotateRight 61 ^^^ (w 1 >>> 6)
    shaSchedule n ((s1 + w 6 + s0 + w 15) :: ws)

/-- The eight working variables. -/
structure Sha8 where
  a : BitVec 64
  b : BitVec 64
  c : BitVec 64
  d : BitVec 64
  e : BitVec 64
  f : BitVec 64
  g : BitVec 64
  h : BitVec 64
  deriving DecidableEq, Repr

/-- One round. -/
def shaRound (v : Sha8) (kw : BitVec 64 × BitVec 64) : Sha8 :=
  let s1 := v.e.rotateRight 14 ^^^ v.e.rotateRight 18 ^^^ v.e.rotateRight 41
  let ch := (v.e &&& v.f) ^^^ (~~~v.e &&& v.g)
  let t1 := v.h + s1 + ch + kw.1 + kw.2
  let s0 := v.a.rotateRight 28 ^^^ v.a.rotateRight 34 ^^^ v.a.rotateRight 39
  let maj := (v.a &&& v.b) ^^^ (v.a &&& v.c) ^^^ (v.b &&& v.c)
  ⟨t1 + s0 + maj, v.a, v.b, v.c, v.d + t1, v.e, v.f, v.g⟩

/-- The compression of one 128-byte block. -/
def shaBlock (v : Sha8) (blk : List Byte) : Sha8 :=
  let ws := (chunks 8 16 blk).map (fun c => BitVec.ofNat 64 (beNat c))
  let w := (shaSchedule 64 ws.reverse).reverse
  let r := (List.zip shaK w).foldl shaRound v
  ⟨v.a + r.a, v.b + r.b, v.c + r.c, v.d + r.d, v.e + r.e, v.f + r.f, v.g + r.g, v.h + r.h⟩

/-- Padding of a message of `n` bytes. -/
def shaPad (n : Nat) : List Byte :=
  0x80#8 :: (List.replicate ((239 - n % 128) % 128) 0 ++ beBytes 16 (8 * n))

/-- SHA-384 of a byte string (FIPS 180-4, as R287 names it). PRESUMED: log entry 88. -/
def sha384 (bs : List Byte) : List Byte :=
  let m := bs ++ shaPad bs.length
  let i := fun (k : Nat) => sha384Init.getD k 0
  let v := (chunks 128 (m.length / 128) m).foldl shaBlock ⟨i 0, i 1, i 2, i 3, i 4, i 5, i 6, i 7⟩
  [v.a, v.b, v.c, v.d, v.e, v.f].foldl (fun l x => l ++ beBytes 8 x.toNat) []

/-! ### ECDSA P-384 (FIPS 186-5, as R289 names it) -/

/-- The field prime of P-384. -/
def p384P : Nat := 2 ^ 384 - 2 ^ 128 - 2 ^ 96 + 2 ^ 32 - 1
/-- The curve coefficient b. -/
def p384B : Nat := 0xB3312FA7E23EE7E4988E056BE3F82D19181D9C6EFE8141120314088F5013875AC656398D8A2ED19D2A85C8EDD3EC2AEF
/-- The order of the base point. -/
def p384N : Nat := 0xFFFFFFFFFFFFFFFFFFFFFFFFFFFFFFFFFFFFFFFFFFFFFFFFC7634D81F4372DDF581A0DB248B0A77AECEC196ACCC52973
/-- The base point. -/
def p384G : Nat × Nat :=
  (0xAA87CA22BE8B05378EB1C71EF320AD746E1D3B628BA79B9859F741E082542A385502F25DBF55296C3A545E3872760AB7,
   0x3617DE4A96262C6F5D9E98BF9292DC29F8F41DBD289A147CE9DA3113B5F0B8C00A60B1CE1D7E819D7A431D7C90EA0E5F)

/-- `b ^ e mod m`, with `fuel` bits of exponent. -/
def powMod (m : Nat) : Nat → Nat → Nat → Nat
  | 0, _, _ => 1 % m
  | fuel + 1, b, e =>
    let h := powMod m fuel (b * b % m) (e / 2)
    if e % 2 = 1 then b * h % m else h

/-- Inverse modulo a prime. -/
def invMod (m a : Nat) : Nat := powMod m 384 (a % m) (m - 2)

/-- Point addition on P-384; `none` is the point at infinity. -/
def ecAdd : Option (Nat × Nat) → Option (Nat × Nat) → Option (Nat × Nat)
  | none, q => q
  | p, none => p
  | some (x1, y1), some (x2, y2) =>
    let p := p384P
    if x1 = x2 ∧ (y1 + y2) % p = 0 then none
    else
      let l := if x1 = x2 then (3 * x1 * x1 + (p - 3)) * invMod p (2 * y1) % p
               else (y2 + (p - y1)) * invMod p (x2 + (p - x1)) % p
      let x3 := (l * l + (p - x1) + (p - x2)) % p
      some (x3, (l * (x1 + (p - x3)) + (p - y1)) % p)

/-- Scalar multiplication with `fuel` bits of scalar. -/
def ecMul : Nat → Nat → Option (Nat × Nat) → Option (Nat × Nat)
  | 0, _, _ => none
  | fuel + 1, k, q =>
    let h := ecMul fuel (k / 2) (ecAdd q q)
    if k % 2 = 1 then ecAdd q h else h

/-- ECDSA P-384 verification of a 48-byte digest under the 97-byte uncompressed point `q` (R289). PRESUMED: log entry 88. -/
def ecdsaVerify (digest q r s : List Byte) : Bool :=
  let x := beNat (bytesAt q 1 48)
  let y := beNat (bytesAt q 49 48)
  let r := beNat r
  let s := beNat s
  let onCurve := decide (x < p384P) && decide (y < p384P)
    && decide ((y * y) % p384P = (x * x * x + (p384P - 3) * x + p384B) % p384P)
  decide (q.headD 0 = 4) && onCurve
    && decide (0 < r) && decide (r < p384N) && decide (0 < s) && decide (s < p384N)
    && (let w := invMod p384N s
        let u1 := beNat digest * w % p384N
        let u2 := r * w % p384N
        match ecAdd (ecMul 384 u1 (some p384G)) (ecMul 384 u2 (some (x, y))) with
        | none => false
        | some (x1, _) => decide (x1 % p384N = r))

end Sys2Proof.Machine
end

