-- ==== Sys2Proof/Machine/Operands.lean ====
section
/-! DEFINITION. Operand forms: number formats and their decoding (R51 to R55), token payload elements,
rescale entries (R90), codebook tiles (R104 to R107). -/

namespace Sys2Proof.Machine

/-- A decoded floating value: NaN, an infinity, or exactly `(-1)^neg × m × 2^e` (R51 to R54). -/
inductive Fp where
  | nan
  | inf (neg : Bool)
  | fin (neg : Bool) (m : Nat) (e : Int)
  deriving DecidableEq, Repr

/-- The layout and limits of a floating format (R51, R58): significand bits, exponent bits, exponent of the
smallest subnormal, largest finite magnitude `maxM × 2^maxE`. -/
structure Fmt where
  p    : Nat
  eb   : Nat
  sub  : Int
  maxM : Nat
  maxE : Int
  deriving DecidableEq, Repr

/-- binary32 (R58). -/
def fp32Fmt : Fmt := ⟨24, 8, -149, 2 ^ 24 - 1, 104⟩
/-- bf16 (R53, R58). -/
def bf16Fmt : Fmt := ⟨8, 8, -133, 255, 120⟩
/-- E4M3 (R52, R58). -/
def e4m3Fmt : Fmt := ⟨4, 4, -9, 14, 5⟩
/-- E5M2 (R52, R58). -/
def e5m2Fmt : Fmt := ⟨3, 5, -16, 7, 13⟩

/-- Value of an exponent field and mantissa field of a finite number. -/
def fpFinite (f : Fmt) (neg : Bool) (e m : Nat) : Fp :=
  if e = 0 then .fin neg m f.sub
  else .fin neg (m + 2 ^ (f.p - 1)) (f.sub + e - 1)

/-- Decode the bits of a format that follows IEEE 754 at its top exponent (fp32, bf16, E5M2). -/
def fpDecode (f : Fmt) (v : Nat) : Fp :=
  let m := v % 2 ^ (f.p - 1)
  let e := (v / 2 ^ (f.p - 1)) % 2 ^ f.eb
  let s := (v / 2 ^ (f.p - 1 + f.eb)) % 2 = 1
  if e = 2 ^ f.eb - 1 then (if m = 0 then .inf s else .nan)
  else fpFinite f s e m

/-- Decode an E4M3 byte: no infinity, and only exponent 15 with mantissa 7 is NaN (R52). -/
def e4m3Decode (v : Nat) : Fp :=
  let m := v % 8
  let e := (v / 8) % 16
  let s := (v / 128) % 2 = 1
  if e = 15 ∧ m = 7 then .nan else fpFinite e4m3Fmt s e m

/-- Decode an fp32 word. -/
def f32 (v : BitVec 32) : Fp := fpDecode fp32Fmt v.toNat
/-- Decode a bf16 value (R53). -/
def bf16 (v : Nat) : Fp := fpDecode bf16Fmt (v % 2 ^ 16)
/-- Decode an E5M2 byte (R52). -/
def e5m2Decode (v : Nat) : Fp := fpDecode e5m2Fmt (v % 256)

/-- The value of an integer as an exact number. -/
def fpOfInt (x : Int) : Fp := .fin (decide (x < 0)) x.natAbs 0

/-- Element formats of a queue (R176). -/
inductive ElemFmt where
  | int4 | int8 | int16 | int32 | int48 | e4m3 | e5m2 | bf16 | fp32 | ctrl | uint16 | reserved | unused
  deriving DecidableEq, Repr

/-- The format a 4-bit code names (R176). -/
def elemFmt (c : Nat) : ElemFmt :=
  match c with
  | 0 => .int4 | 1 => .int8 | 2 => .int16 | 3 => .int32 | 4 => .int48 | 5 => .e4m3 | 6 => .e5m2
  | 7 => .bf16 | 8 => .fp32 | 9 => .ctrl | 10 => .uint16 | 15 => .unused | _ => .reserved

/-- Width of one element in bits (R51, R55). -/
def elemBits : ElemFmt → Nat
  | .int4 => 4
  | .int8 | .e4m3 | .e5m2 => 8
  | .int16 | .bf16 | .uint16 => 16
  | .int32 | .fp32 => 32
  | .int48 => 48
  | .ctrl => 32
  | .reserved | .unused => 256

/-- Elements that one 256-bit payload carries (R55). -/
def elemsPerToken (f : ElemFmt) : Nat := 256 / elemBits f

/-- The elements of a payload, element 0 first (R55). -/
def payloadElems (f : ElemFmt) (p : BitVec 256) : List Nat :=
  (List.range (elemsPerToken f)).map (fun i => bitsOf p.toNat (elemBits f * i + elemBits f - 1) (elemBits f * i))

/-- A payload that holds the given `w`-bit elements from element 0 up, the rest zero (R55, R182). -/
def packElems (w : Nat) : List Nat → Nat
  | [] => 0
  | v :: vs => v % 2 ^ w + 2 ^ w * packElems w vs

/-- A payload from `w`-bit elements. -/
def payloadOf (w : Nat) (vs : List Nat) : BitVec 256 := BitVec.ofNat 256 (packElems w vs)

/-- An integer element's signed value; `uint16` is unsigned (R51, R176). -/
def elemInt (f : ElemFmt) (v : Nat) : Int :=
  match f with
  | .uint16 => (v : Int)
  | _ => signedOf (elemBits f) v

/-- A floating element's value. -/
def elemFp (f : ElemFmt) (v : Nat) : Fp :=
  match f with
  | .e4m3 => e4m3Decode v
  | .e5m2 => e5m2Decode v
  | .bf16 => bf16 v
  | .fp32 => fpDecode fp32Fmt v
  | _ => fpOfInt (elemInt f v)

/-! ### Rescale entries (R90) -/

/-- MULT. -/
def reMult (e : BitVec 128) : Nat := bitsOf e.toNat 23 0
/-- SHIFT. -/
def reShift (e : BitVec 128) : Nat := bitsOf e.toNat 29 24
/-- MODE (R91). -/
def reMode (e : BitVec 128) : Nat := bitsOf e.toNat 38 35
/-- OUT_W. -/
def reOutW (e : BitVec 128) : Nat := bitsOf e.toNat 40 39
/-- SAT. -/
def reSat (e : BitVec 128) : Bool := bitAt e.toNat 41
/-- EXP_ADJ, an int6. -/
def reExp (e : BitVec 128) : Int := signedOf 6 (bitsOf e.toNat 47 42)
/-- ZP_OUT. -/
def reZp (e : BitVec 128) : Int := signedOf 16 (bitsOf e.toNat 63 48)
/-- CLAMP_LO. -/
def reLo (e : BitVec 128) : Int := signedOf 16 (bitsOf e.toNat 79 64)
/-- CLAMP_HI. -/
def reHi (e : BitVec 128) : Int := signedOf 16 (bitsOf e.toNat 95 80)
/-- CONST_VAL. -/
def reConst (e : BitVec 128) : Int := signedOf 16 (bitsOf e.toNat 111 96)

/-- Width in bits of an output of width code OUT_W. -/
def outWidth (w : Nat) : Nat := if w = 0 then 4 else if w = 1 then 8 else 16

/-- Output width in bits of an entry: OUT_W, 8 for the fp8 modes, 32 for the pass modes (R91, R182). -/
def reWidth (e : BitVec 128) : Nat :=
  if reMode e ≤ 4 then outWidth (reOutW e) else if reMode e ≤ 6 then 8 else 32

/-- R92, without the match of accumulation type: the conditions on one entry. -/
def reValid (e : BitVec 128) : Bool :=
  let w := outWidth (reOutW e)
  let lo := -(2 ^ (w - 1) : Int)
  let hi := (2 ^ (w - 1) : Int) - 1
  decide (reMode e ≤ 8) && decide (reOutW e ≠ 3)
    && decide (bitsOf e.toNat 127 112 = 0) && decide (bitsOf e.toNat 34 30 = 0)
    && (if reMode e ≤ 4 then
          decide (reLo e ≤ reHi e) && decide (lo ≤ reLo e) && decide (reHi e ≤ hi)
        else decide (reOutW e = 0) && decide (bitsOf e.toNat 111 48 = 0))
    && (if reMode e = 4 then decide (reLo e ≤ reConst e) && decide (reConst e ≤ reHi e) else true)

/-- The accumulation an entry's mode takes: 0 any, 1 int32, 2 fp32 (R91). -/
def reAccum (e : BitVec 128) : Nat :=
  if reMode e = 4 then 0 else if reMode e ≤ 3 ∨ reMode e = 7 then 1 else 2

/-- The mode classes of R291: a scale set keeps each entry within its class. -/
def reClass (e : BitVec 128) : Nat :=
  match reMode e with
  | 0 | 1 | 4 => 0
  | 2 | 3 => 1
  | 5 | 6 => 2
  | 7 => 3
  | 8 => 4
  | _ => 5

/-! ### Weight tiles (R104 to R108) -/

/-- The stored weight code at position `p` (R104, R105). -/
def tileCode (wfmt : Nat) (area : List Byte) (p : Nat) : Nat :=
  match wfmt with
  | 1 => fieldLE area (2 * p) 2
  | 2 => let b := fieldLE area (p / 2) 1
         if p % 2 = 0 then b % 16 else b / 16
  | _ => fieldLE area p 1

/-- Whether the code at a position is an escape (R105). -/
def tileEscape (wfmt : Nat) (esc : Bool) (code : Nat) : Bool :=
  match wfmt with
  | 2 => decide (code = 15)
  | 3 => decide (code = 255)
  | 4 | 5 => esc && decide (code = 255)
  | _ => false

/-- Decoded weights from position `p` on: raw bits and whether each is a side-list value (R107).
`k` counts the escapes met so far. -/
def decodeTileFrom (wfmt : Nat) (esc : Bool) (area : List Byte) : Nat → Nat → Nat → List (Nat × Bool)
  | 0, _, _ => []
  | n + 1, p, k =>
    let c := tileCode wfmt area p
    if tileEscape wfmt esc c then
      (fieldLE area (0x400 + 2 * k) 2, true) :: decodeTileFrom wfmt esc area n (p + 1) (k + 1)
    else
      (c, false) :: decodeTileFrom wfmt esc area n (p + 1) k

/-- The 256 decoded weights of an operand area (R107, R183). -/
def decodeTile (wfmt : Nat) (esc : Bool) (area : List Byte) : List (Nat × Bool) :=
  decodeTileFrom wfmt esc area 256 0 0

/-- An integer weight from its decoded form: direct, codebook entry or int16 escape (R59, R107). -/
def weightInt (wfmt : Nat) (area : List Byte) (w : Nat × Bool) : Int :=
  if w.2 then signedOf 16 w.1
  else match wfmt with
    | 0 => signedOf 8 w.1
    | 1 => signedOf 16 w.1
    | _ => signedOf 12 (fieldLE area (0x200 + 2 * w.1) 2)

/-- A floating weight from its decoded form: fp8 or bf16 escape (R107). -/
def weightFp (wfmt : Nat) (w : Nat × Bool) : Fp :=
  if w.2 then bf16 w.1
  else if wfmt = 4 then e4m3Decode w.1 else e5m2Decode w.1

/-- Number of escapes of a tile (R108). -/
def tileEscapes (wfmt : Nat) (esc : Bool) (area : List Byte) : Nat :=
  ((List.range 256).filter (fun p => tileEscape wfmt esc (tileCode wfmt area p))).length

end Sys2Proof.Machine
end

