-- ==== Sys2Proof/Machine/Flags.lean ====
section
/-! DEFINITION. Arithmetic of the lattice with the conditions it raises (R56 to R80, R93, R123). -/

namespace Sys2Proof.Machine

/-- Conditions raised by arithmetic and the scale path (R80, R131). -/
inductive Cond where
  | accSat | redSat | cvtSat | histSat | fpOvf | fpNan | tblClamp | rescaleClamp | inClamp
  deriving DecidableEq, Repr

/-- FLAGS bits a condition sets in the tag: SATURATED is bit 7, FP_SPECIAL bit 8 (R80, R349). -/
def condFlags : Cond → BitVec 16
  | .accSat | .redSat | .cvtSat | .histSat => 0x0080#16
  | .fpOvf | .fpNan => 0x0100#16
  | .tblClamp | .rescaleClamp | .inClamp => 0#16

/-- FLAGS bits of a list of conditions. -/
def condsFlags (cs : List Cond) : BitVec 16 := cs.foldl (fun f c => f ||| condFlags c) 0#16

/-! ### Rounding (R56 to R58) -/

/-- shr_rne: rounding right shift, ties to even (R56). -/
def shrRne (v : Int) (s : Nat) : Int :=
  if s = 0 then v
  else
    let q := v >>> s
    let r := v - q * (2 ^ s : Int)
    let h := (2 ^ (s - 1) : Int)
    if r > h ∨ (r = h ∧ q % 2 = 1) then q + 1 else q

/-- shr_stoch: stochastic right shift with draw `d` (R57). -/
def shrStoch (v : Int) (s : Nat) (d : Nat) : Int :=
  if s = 0 then v else (v + ((d % 2 ^ s : Nat) : Int)) >>> s

/-- Clamp to `[lo, hi]`, and whether it clamped. -/
def clampInt (lo hi v : Int) : Int × Bool :=
  if v < lo then (lo, true) else if hi < v then (hi, true) else (v, false)

/-- Nearest natural to `m / 2^s`, ties to even. -/
def shrRneNat (m s : Nat) : Nat :=
  if s = 0 then m
  else
    let q := m >>> s
    let r := m % 2 ^ s
    let h := 2 ^ (s - 1)
    if h < r ∨ (r = h ∧ q % 2 = 1) then q + 1 else q

/-- round_fmt of `m × 2^e`, `m > 0`: the grid point `m' × 2^g`, and whether it overflows (R58). -/
def roundFmt (f : Fmt) (m : Nat) (e : Int) : Nat × Int × Bool :=
  let len : Int := (Nat.log2 m + 1 : Nat)
  let g := max (e + len - f.p) f.sub
  let m' := if g ≤ e then m <<< (e - g).toNat else shrRneNat m (g - e).toNat
  let ovf := if f.maxE ≤ g then decide (f.maxM < m' <<< (g - f.maxE).toNat)
             else decide (f.maxM <<< (f.maxE - g).toNat < m')
  (m', g, ovf)

/-- Bits of a finite grid point of a format. -/
def fpEncode (f : Fmt) (neg : Bool) (m : Nat) (g : Int) : Nat :=
  let (m, g) := if m = 2 ^ f.p then (2 ^ (f.p - 1), g + 1) else (m, g)
  let body := if m < 2 ^ (f.p - 1) then m
              else (g - f.sub + 1).toNat * 2 ^ (f.p - 1) + (m - 2 ^ (f.p - 1))
  bitOf neg * 2 ^ (f.p - 1 + f.eb) + body

/-- Infinity of a format (fp32, bf16, E5M2). -/
def fpInf (f : Fmt) (neg : Bool) : Nat :=
  bitOf neg * 2 ^ (f.p - 1 + f.eb) + (2 ^ f.eb - 1) * 2 ^ (f.p - 1)

/-- The canonical quiet NaN of fp32 (R54). -/
def f32NaN : BitVec 32 := 0x7FC00000#32

/-- An exact value: a signed integer times a power of two. -/
structure Exact where
  num : Int
  exp : Int
  deriving DecidableEq, Repr

/-- Exact addition. -/
def exactAdd (a b : Exact) : Exact :=
  let e := min a.exp b.exp
  ⟨a.num * (2 ^ (a.exp - e).toNat : Int) + b.num * (2 ^ (b.exp - e).toNat : Int), e⟩

/-- The exact value of a finite Fp; 0 otherwise. -/
def fpExact : Fp → Exact
  | .fin s m e => ⟨if s then -(m : Int) else m, e⟩
  | _ => ⟨0, 0⟩

/-- Product of two floating values, NaN for 0 × infinity (R65). -/
def fpMul : Fp → Fp → Fp
  | .nan, _ => .nan
  | _, .nan => .nan
  | .inf s, .inf t => .inf (s != t)
  | .inf s, .fin t m _ => if m = 0 then .nan else .inf (s != t)
  | .fin s m _, .inf t => if m = 0 then .nan else .inf (s != t)
  | .fin s m e, .fin t n d => .fin (s != t) (m * n) (e + d)

/-- A value is negative zero. -/
def fpNegZero : Fp → Bool
  | .fin s m _ => s && decide (m = 0)
  | _ => false

/-- Round an exact value to fp32 with overflow to infinity; `zeroNeg` is the sign of an exact zero. -/
def roundF32 (x : Exact) (zeroNeg : Bool) : BitVec 32 × List Cond :=
  if x.num = 0 then (BitVec.ofNat 32 (bitOf zeroNeg * 2 ^ 31), [])
  else
    let neg := decide (x.num < 0)
    let (m, g, ovf) := roundFmt fp32Fmt x.num.natAbs x.exp
    if ovf then (BitVec.ofNat 32 (fpInf fp32Fmt neg), [.fpOvf])
    else (BitVec.ofNat 32 (fpEncode fp32Fmt neg m g), [])

/-- The sum of a list of terms with one rounding, and its special cases (R64, R65). -/
def fpSumRound (ts : List Fp) : BitVec 32 × List Cond :=
  if ts.any (fun t => decide (t = .nan)) then (f32NaN, [.fpNan])
  else if ts.any (fun t => decide (t = .inf false)) && ts.any (fun t => decide (t = .inf true)) then
    (f32NaN, [.fpNan])
  else if ts.any (fun t => decide (t = .inf false)) then (BitVec.ofNat 32 (fpInf fp32Fmt false), [])
  else if ts.any (fun t => decide (t = .inf true)) then (BitVec.ofNat 32 (fpInf fp32Fmt true), [])
  else roundF32 (ts.foldl (fun x t => exactAdd x (fpExact t)) ⟨0, 0⟩) (ts.all fpNegZero)

/-- fdot over a list of blocks of products (R64): one rounding per block. -/
def fdotBlocks (acc : BitVec 32) (cs : List Cond) : List (List Fp) → BitVec 32 × List Cond
  | [] => (acc, cs)
  | b :: bs =>
    let r := fpSumRound (f32 acc :: b)
    fdotBlocks r.1 (cs ++ r.2) bs

/-- fdot of R64 with block size `B`. -/
def fdot (init : BitVec 32) (a w : List Fp) (B : Nat) : BitVec 32 × List Cond :=
  let ps := List.zipWith fpMul a w
  fdotBlocks init [] (chunks B ps.length ps)

/-- One binary32 addition (R54, R71). -/
def f32Add (a b : BitVec 32) : BitVec 32 × List Cond := fpSumRound [f32 a, f32 b]

/-- The dot product of two integer vectors. -/
def dotInt (a w : List Int) : Int := (List.zipWith (· * ·) a w).foldl (· + ·) 0

/-- idot of R62: exact sum, clamped to int32 when final. -/
def idot (init : Int) (a w : List Int) (final : Bool) : Int × List Cond :=
  let acc := init + dotInt a w
  if final then
    let (v, c) := clampInt (-(2 ^ 31 : Int)) (2 ^ 31 - 1) acc
    (v, if c then [.accSat] else [])
  else (acc, [])

/-! ### Conversions (R68, R69) -/

/-- Round a finite value to a format with overflow to infinity (bf16, fp32); NaN canonical. -/
def cvtFmt (f : Fmt) (nanBits : Nat) (x : Fp) : Nat × List Cond :=
  match x with
  | .nan => (nanBits, [.fpNan])
  | .inf s => (fpInf f s, [])
  | .fin s m e =>
    if m = 0 then (bitOf s * 2 ^ (f.p - 1 + f.eb), [])
    else
      let (m', g, ovf) := roundFmt f m e
      if ovf then (fpInf f s, [.fpOvf]) else (fpEncode f s m' g, [])

/-- CVT_INT_F32. -/
def cvtIntF32 (x : Int) : BitVec 32 := BitVec.ofNat 32 (cvtFmt fp32Fmt 0x7FC00000 (fpOfInt x)).1

/-- CVT_INT_BF16. -/
def cvtIntBf16 (x : Int) : Nat := (cvtFmt bf16Fmt 0x7FC0 (fpOfInt x)).1

/-- CVT_F32_BF16. -/
def cvtF32Bf16 (x : BitVec 32) : Nat × List Cond := cvtFmt bf16Fmt 0x7FC0 (f32 x)

/-- CVT_F32_F8 (R69): target E4M3 when `e4`, exponent adjust `e`, SAT mode. -/
def cvtF32F8 (x : BitVec 32) (e : Int) (e4 sat : Bool) : Nat × List Cond :=
  let f := if e4 then e4m3Fmt else e5m2Fmt
  let sgn := fun (s : Bool) => bitOf s * 128
  let top := if e4 then 0x7E else 0x7B
  match f32 x with
  | .nan => (0x7F, [.fpNan])
  | .inf s =>
    if sat then (sgn s + top, [.cvtSat])
    else if e4 then (0x7F, [.fpNan]) else (sgn s + 0x7C, [])
  | .fin s m d =>
    if m = 0 then (sgn s, [])
    else
      let (m', g, ovf) := roundFmt f m (d + e)
      if ovf then
        if sat then (sgn s + top, [.cvtSat])
        else if e4 then (0x7F, [.fpOvf]) else (sgn s + 0x7C, [.fpOvf])
      else if m' = 0 then (sgn s, []) else (fpEncode f s m' g, [])

/-- CVT_F32_INT (R68): x × 2^e to the nearest integer of `w` bits, ties to even. -/
def cvtF32Int (x : BitVec 32) (e : Int) (w : Nat) : Int × List Cond :=
  let lo := -(2 ^ (w - 1) : Int)
  let hi := (2 ^ (w - 1) : Int) - 1
  match f32 x with
  | .nan => (0, [.fpNan])
  | .inf s => (if s then lo else hi, [.cvtSat])
  | .fin s m d =>
    let k := d + e
    let v : Int := if 0 ≤ k then (m * 2 ^ k.toNat : Nat) else (shrRneNat m (-k).toNat : Nat)
    let (r, c) := clampInt lo hi (if s then -v else v)
    (r, if c then [.cvtSat] else [])

/-! ### Rescale and quantise (R93, R101) -/

/-- The integer path of R93 from an exact accumulation. -/
def rescaleInt (acc : Int) (e : BitVec 128) (eb : Int) (d : Nat) (clampCond : Cond) : Int × List Cond :=
  if reMode e = 4 then (reConst e, [])
  else
    let p := acc * (reMult e : Int)
    let t := (reShift e : Int) - eb
    let v := if t < 0 then p * (2 ^ (-t).toNat : Int)
      else
        let t := (min t 63).toNat
        if reMode e = 1 ∨ reMode e = 3 then shrStoch p t d else shrRne p t
    let (r, c) := clampInt (reLo e) (reHi e) (v + reZp e)
    (r, if c then [clampCond] else [])

/-- The rescale stage's output bits for one channel (R93): accumulation bits, entry, exponent, draw. -/
def rescaleChannel (acc : BitVec 48) (fp : Bool) (e : BitVec 128) (eb : Int) (d : Nat) : Nat × List Cond :=
  let m := reMode e
  if m ≤ 4 then
    let (v, cs) := rescaleInt (signedOf 32 acc.toNat) e eb d .rescaleClamp
    (unsignedOf (outWidth (reOutW e)) v, cs)
  else if m = 5 ∨ m = 6 then cvtF32F8 (acc.truncate 32) (reExp e) (decide (m = 5)) (reSat e)
  else if fp then (acc.toNat % 2 ^ 32, []) else (acc.toNat % 2 ^ 32, [])

/-- Field formats of the stream map (R100): 0 int8, 1 uint8, 2 int16, 3 uint16, 4 int32, 5 uint32, 6 fp32. -/
def fieldInt (fmt v : Nat) : Int :=
  match fmt with
  | 0 => signedOf 8 v
  | 1 => ((v % 2 ^ 8 : Nat) : Int)
  | 2 => signedOf 16 v
  | 3 => ((v % 2 ^ 16 : Nat) : Int)
  | 4 => signedOf 32 v
  | _ => ((v % 2 ^ 32 : Nat) : Int)

/-- Width in bits of a field format. -/
def fieldWidth (fmt : Nat) : Nat := if fmt ≤ 1 then 8 else if fmt ≤ 3 then 16 else 32

/-- The input quantiser (R101): output bits and conditions. -/
def quantise (fmt v : Nat) (e : BitVec 128) (d : Nat) : Nat × List Cond :=
  let m := reMode e
  if m = 4 then (unsignedOf (outWidth (reOutW e)) (reConst e), [])
  else if m = 5 ∨ m = 6 then
    let x := if fmt = 6 then BitVec.ofNat 32 v else cvtIntF32 (fieldInt fmt v)
    cvtF32F8 x (reExp e) (decide (m = 5)) (reSat e)
  else
    let (x, cs) := if fmt = 6 then cvtF32Int (BitVec.ofNat 32 v) (reExp e) 32 else (fieldInt fmt v, [])
    let (r, ds) := rescaleInt x e 0 d .inClamp
    (unsignedOf (outWidth (reOutW e)) r, cs ++ ds)

/-- wide of R123 for one channel: side inputs, bf16 weights of the channel, bias, E_OUT and the entry. -/
def wideChannel (xs : List Int) (ws : List Nat) (bias : BitVec 32) (eOut : Int) (e : BitVec 128) :
    Int × List Cond :=
  if reMode e = 4 then (reConst e, [])
  else
    let as := xs.map (fun x => cvtF32Bf16 (cvtIntF32 x))
    let (y, cs) := fdot bias (as.map (fun a => bf16 a.1)) (ws.map bf16) 64
    let (q, ds) := cvtF32Int y eOut 32
    let (r, c) := clampInt (reLo e) (reHi e) (q + reZp e)
    (r, as.foldl (fun l a => l ++ a.2) [] ++ cs ++ ds ++ (if c then [.rescaleClamp] else []))

/-! ### Reduce units (R70 to R73) -/

/-- Clamp an exact sum to `w` bits, raising RED_SAT. -/
def redClamp (w : Nat) (v : Int) : Int × List Cond :=
  let (r, c) := clampInt (-(2 ^ (w - 1) : Int)) (2 ^ (w - 1) - 1) v
  (r, if c then [.redSat] else [])

/-- tsum of R71 over a list of terms; `fuel` is the number of terms. -/
def tsum : Nat → List (BitVec 32) → BitVec 32 × List Cond
  | 0, xs => (xs.headD 0, [])
  | fuel + 1, xs =>
    if xs.length ≤ 1 then (xs.headD 0, [])
    else
      let m := 2 ^ Nat.log2 (xs.length - 1)
      let l := tsum fuel (xs.take m)
      let r := tsum fuel (xs.drop m)
      let a := f32Add l.1 r.1
      (a.1, l.2 ++ r.2 ++ a.2)

/-- FSUM_ARRIVAL over the terms in arrival order (R70). -/
def fsumArrival : List (BitVec 32) → BitVec 32 × List Cond
  | [] => (0, [])
  | x :: xs => xs.foldl (fun (a : BitVec 32 × List Cond) y => let r := f32Add a.1 y; (r.1, a.2 ++ r.2)) (x, [])

/-- Order key of a non-NaN fp32 value: −0 below +0 (R72, R77). -/
def f32Key (v : BitVec 32) : Int :=
  if v.toNat < 2 ^ 31 then (v.toNat : Int) else -((v.toNat - 2 ^ 31 : Nat) : Int) - 1

/-- FMAX (or FMIN when `least`) over a list of terms (R72). -/
def fExtreme (least : Bool) (xs : List (BitVec 32)) : BitVec 32 × List Cond :=
  let ys := xs.filter (fun x => decide (f32 x ≠ .nan))
  match ys with
  | [] => (f32NaN, [.fpNan])
  | y :: ys => (ys.foldl (fun a x =>
      if least then (if f32Key x < f32Key a then x else a)
      else (if f32Key a < f32Key x then x else a)) y, [])

/-! ### Table, tree, rank and histogram (R74 to R79) -/

/-- tlookup of R74 over the table entries `t`. -/
def tlookup (direct : Bool) (x0 : Int) (k n : Nat) (t : List Byte) (x : Int) : Int × List Cond :=
  let ent := fun (i : Nat) => signedOf 16 (fieldLE t (2 * i) 2)
  let d := x - x0
  if d < 0 then (ent 0, [.tblClamp])
  else
    let i := d.toNat / 2 ^ k
    let f := d.toNat % 2 ^ k
    if direct then
      if n ≤ i then (ent (n - 1), [.tblClamp]) else (ent i, [])
    else if n - 1 ≤ i then (ent (n - 1), [.tblClamp])
    else (ent i + shrRne ((ent (i + 1) - ent i) * (f : Int)) k, [])

/-- Node comparison (R75): whether the evaluation goes left. -/
def nodeLeft (fp missRight : Bool) (feat thresh : BitVec 32) : Bool :=
  if fp then
    if f32 feat = .nan ∨ f32 thresh = .nan then !missRight
    else
      let z := fun (v : BitVec 32) => if v = 0x80000000#32 then 0#32 else v
      decide (f32Key (z feat) < f32Key (z thresh))
  else decide (signedOf 16 feat.toNat < signedOf 16 thresh.toNat)

/-- Rank order of a key (R77): format 0 int16, 1 int32, 2 fp32; every NaN lowest and equal. -/
def rankKey (fmt : Nat) (v : BitVec 32) : Int :=
  match fmt with
  | 0 => signedOf 16 v.toNat
  | 1 => signedOf 32 v.toNat
  | _ => if f32 v = .nan then -(2 ^ 40 : Int) else f32Key v

/-- Insert a key into a list in descending order; among equal keys the lower index comes first (R77). -/
def rankInsert (fmt : Nat) (x : BitVec 32 × Nat) : List (BitVec 32 × Nat) → List (BitVec 32 × Nat)
  | [] => [x]
  | y :: ys =>
    if rankKey fmt y.1 < rankKey fmt x.1 ∨ (rankKey fmt y.1 = rankKey fmt x.1 ∧ x.2 < y.2) then x :: y :: ys
    else y :: rankInsert fmt x ys

/-- Keys in descending order (R78). -/
def rankSort (fmt : Nat) (xs : List (BitVec 32 × Nat)) : List (BitVec 32 × Nat) :=
  xs.foldl (fun l x => rankInsert fmt x l) []

/-- sat32 of R79. -/
def sat32 (v : Nat) : Nat × List Cond := if 2 ^ 32 - 1 < v then (2 ^ 32 - 1, [.histSat]) else (v, [])

/-- The bin an element falls in (R79): 0 under, `i + 1` bin `i`, `n + 1` over. -/
def histBin (x0 : Int) (k n : Nat) (x : Int) : Nat :=
  let d := x - x0
  if d < 0 then 0 else
    let i := d.toNat / 2 ^ k
    if n ≤ i then n + 1 else i + 1

/-! ### Parity (R142, R146) -/

/-- Even parity of a value's low `n` bits. -/
def parityOf : Nat → Nat → Bool
  | 0, _ => false
  | n + 1, v => xor (v.testBit n) (parityOf n v)

/-- The four sideband parity bits of sideband bits [27:0] (R146). -/
def sidePar (body : Nat) : Nat :=
  (List.range 4).foldl (fun a k => a + bitOf (parityOf 7 (body >>> (7 * k))) * 2 ^ k) 0

/-- A sideband word with its parity bits set from its low 28 bits. -/
def sideSeal (body : Nat) : BitVec 32 := BitVec.ofNat 32 (body % 2 ^ 28 + sidePar (body % 2 ^ 28) * 2 ^ 28)

/-- The sideband passes its parity check. -/
def sideOk (s : BitVec 32) : Bool := decide (s = sideSeal s.toNat)

/-- The 32 payload parity bits, one per byte (R146). -/
def payloadPar (p : BitVec 256) : BitVec 32 :=
  BitVec.ofNat 32 ((List.range 32).foldl (fun a i => a + bitOf (parityOf 8 (p.toNat >>> (8 * i))) * 2 ^ i) 0)

/-- KIND of a sideband (R143). -/
def sideKind (s : BitVec 32) : Nat := bitsOf s.toNat 27 25
/-- LAST of a sideband. -/
def sideLast (s : BitVec 32) : Bool := bitAt s.toNat 24
/-- TAINT of a sideband: bit 0 TAINT_FAULT, bit 1 TAINT_ALIGN (R144). -/
def sideTaint (s : BitVec 32) : BitVec 2 := BitVec.ofNat 2 (bitsOf s.toNat 23 22)
/-- BLK of a sideband. -/
def sideBlk (s : BitVec 32) : BitVec 8 := BitVec.ofNat 8 (bitsOf s.toNat 21 14)
/-- EPOCH of a sideband. -/
def sideEpoch (s : BitVec 32) : BitVec 2 := BitVec.ofNat 2 (bitsOf s.toNat 13 12)
/-- SEQ of a sideband. -/
def sideSeq (s : BitVec 32) : BitVec 12 := BitVec.ofNat 12 (bitsOf s.toNat 11 0)

/-- A sideband from its fields (R142). -/
def sideOf (kind : Nat) (last : Bool) (taint : BitVec 2) (blk : BitVec 8) (epoch : BitVec 2)
    (seq : BitVec 12) : BitVec 32 :=
  sideSeal (kind % 8 * 2 ^ 25 + bitOf last * 2 ^ 24 + taint.toNat * 2 ^ 22 + blk.toNat * 2 ^ 14
    + epoch.toNat * 2 ^ 12 + seq.toNat)

/-- A sideband with taint bits added. -/
def sideAddTaint (s : BitVec 32) (t : BitVec 2) : BitVec 32 :=
  sideSeal ((s ||| BitVec.ofNat 32 (t.toNat * 2 ^ 22)).toNat % 2 ^ 28)

end Sys2Proof.Machine
end

