-- ==== Sys2Proof/Machine/Regs.lean ====
section
/-! DEFINITION. The register map (R9 to R14, R697 to R701): every register's place, access codes and reset value.
Bits in no mask are RO; registers read from other state are overlaid by `State.readReg`. -/

namespace Sys2Proof.Machine

/-- One register, or an array of registers, of the map. -/
structure RegRow where
  /-- die offset of element 0 -/
  base  : Nat
  /-- strides and counts of the array's indices, outermost first -/
  dims  : List (Nat × Nat)
  /-- present on die 0 only (R47) -/
  die0  : Bool
  /-- RW bits -/
  rw    : Nat
  /-- W1C bits -/
  w1c   : Nat
  /-- RC bits -/
  rc    : Nat
  /-- LK bits -/
  lk    : Nat
  /-- reset value -/
  reset : Nat
  deriving DecidableEq, Repr

/-- Offset `d` from the base is an element of the array. -/
def dimsHit : List (Nat × Nat) → Nat → Bool
  | [], d => decide (d = 0)
  | (st, n) :: ds, d => decide (d / st < n) && dimsHit ds (d % st)

/-- Die offset `off` is a register of the row. -/
def rowHit (r : RegRow) (off : Nat) : Bool := decide (r.base ≤ off) && dimsHit r.dims (off - r.base)

/-- All bits. -/
def allBits : Nat := 0xFFFFFFFF

/-- A read-only register array. -/
def roRow (base : Nat) (dims : List (Nat × Nat)) (die0 : Bool := false) (reset : Nat := 0) : RegRow :=
  ⟨base, dims, die0, 0, 0, 0, 0, reset⟩
/-- A register array with RW bits. -/
def rwRow (base : Nat) (dims : List (Nat × Nat)) (rw : Nat) (reset : Nat := 0) (die0 : Bool := false) : RegRow :=
  ⟨base, dims, die0, rw, 0, 0, 0, reset⟩
/-- A register array with RC bits. -/
def rcRow (base : Nat) (dims : List (Nat × Nat)) (die0 : Bool := false) (rc : Nat := 0xFFFFFFFF) : RegRow :=
  ⟨base, dims, die0, 0, 0, rc, 0, 0⟩
/-- A first-record register array: VALID in bit 31 is W1C, the rest RO. -/
def infoRow (base : Nat) (dims : List (Nat × Nat)) (die0 : Bool := false) : RegRow :=
  ⟨base, dims, die0, 0, 0x80000000, 0, 0, 0⟩

/-- CTL block (R642 to R646). -/
def regsCtl : List RegRow := [
  roRow 0x0 [] true,
  rwRow 0x4 [] 0xF 0 true,
  ⟨0x100, [(0x20, 5)], true, 0, 0, 0, 0x40000000, 0x40000000⟩,
  ⟨0x104, [(0x20, 5)], true, 0, 0x08000000, 0, 0, 0⟩,
  ⟨0x108, [(0x20, 5)], true, 0, 0x3F, 0, 0, 0⟩,
  rwRow 0x10C [(0x20, 5)] 0x3F 0 true,
  rwRow 0x1000 [(0x100, 2)] 0xFFFFF000 0 true,
  rwRow 0x1004 [(0x100, 2)] allBits 0 true,
  rwRow 0x1008 [(0x100, 2)] 0xF 4 true,
  rwRow 0x100C [(0x100, 2)] 0 0 true,
  roRow 0x1010 [(0x100, 2)] true,
  rwRow 0x1020 [(0x100, 2)] 0xFFFFF000 0 true,
  rwRow 0x1024 [(0x100, 2)] allBits 0 true,
  rwRow 0x1028 [(0x100, 2)] 0xF 4 true,
  roRow 0x102C [(0x100, 2)] true,
  rwRow 0x1030 [(0x100, 2)] 0 0 true,
  roRow 0x2000 [(4, 4)]]

/-- LAT blocks of the local regions (R200 to R207). -/
def regsLat : List RegRow := [
  roRow 0x2000000 [(0x400000, 8)],
  roRow 0x2000004 [(0x400000, 8)],
  rcRow 0x2000008 [(0x400000, 8)],
  infoRow 0x200000C [(0x400000, 8)],
  roRow 0x2000010 [(0x400000, 8)],
  roRow 0x2000014 [(0x400000, 8)],
  roRow 0x2010100 [(0x400000, 8), (0x1000, 64), (0x40, 20)] false 0xE0000000,
  roRow 0x2010104 [(0x400000, 8), (0x1000, 64), (0x40, 20), (4, 4)],
  roRow 0x2010114 [(0x400000, 8), (0x1000, 64), (0x40, 20), (4, 11)],
  roRow 0x2010600 [(0x400000, 8), (0x1000, 64), (4, 20)],
  roRow 0x2010800 [(0x400000, 8), (0x1000, 64), (4, 512)],
  rwRow 0x7FFF000 [] 0x80000007]

/-- SEQ block (R247 to R255, R327 to R330) and its deep-path registers. -/
def regsSeq : List RegRow := [
  roRow 0x600000 [],
  roRow 0x600008 [(4, 2)],
  ⟨0x600010, [], false, 0, 0, 0xFFFF0000, 0, 0⟩,
  rwRow 0x600014 [] allBits 0x00100000,
  rcRow 0x600020 [],
  rcRow 0x600024 [(4, 4)],
  roRow 0x600100 [(4, 16)],
  rcRow 0x600200 [(4, 16)],
  rcRow 0x600240 [(4, 16)] false 0xFFFF,
  rcRow 0x600300 [(4, 8)],
  infoRow 0x600320 [(4, 8)],
  roRow 0x600340 [(4, 8)],
  roRow 0x600400 [(0x10, 16), (4, 4)] true,
  roRow 0x610000 [(0x2000, 8), (4, 1280)]]

/-- SCL and GAU blocks (R132 to R141). -/
def regsScl : List RegRow := [
  roRow 0x700100 [(4, 8)],
  rcRow 0x700200 [(4, 8)],
  infoRow 0x700220 [(4, 8)],
  rcRow 0x700300 [(4, 8)],
  rcRow 0x700400 [],
  roRow 0x710000 [(0x10, 64), (4, 4)],
  roRow 0x780000 [(4, 4)],
  rwRow 0x780040 [] 0,
  roRow 0x790000 [(0x20, 64), (4, 8)]]

/-- MIT block (R371 to R375). -/
def regsMit : List RegRow := [
  rwRow 0x500000 [] 0x40000000 0 true,
  rwRow 0x500004 [] 0xFFFF 0x400 true,
  roRow 0x500008 [] true,
  rcRow 0x500020 [(4, 3)] true,
  roRow 0x500040 [(4, 16)] true,
  infoRow 0x500100 [] true,
  roRow 0x500104 [(4, 2)] true,
  roRow 0x500110 [(4, 16)] true,
  roRow 0x500150 [(4, 16)] true]

/-- FLT and MEM blocks (R500 to R506). -/
def regsFlt : List RegRow := [
  ⟨0x100000, [], false, 0, 0x2000001F, 0, 0, 0⟩,
  roRow 0x100004 [],
  rwRow 0x100010 [] 0x8000FFFF 0x8000000A,
  rcRow 0x100014 [],
  rcRow 0x100018 [],
  rcRow 0x10001C [],
  rwRow 0x100100 [(0x10, 5)] allBits 0x00402710,
  roRow 0x100104 [(0x10, 5)],
  rcRow 0x100108 [(0x10, 5)],
  roRow 0x100200 [(4, 4)],
  rwRow 0x100210 [] 0,
  rcRow 0x100214 [],
  roRow 0xC00000 [(0x100, 2)],
  rcRow 0xC00004 [(0x100, 2), (4, 2)],
  infoRow 0xC0000C [(0x100, 2)],
  roRow 0xC00010 [(0x100, 2), (4, 2)]]

/-- CNT block (R693, R694). -/
def regsCnt : List RegRow := [
  rwRow 0x300000 [] 0x2,
  roRow 0x300004 [(4, 2)],
  rwRow 0x30000C [] 0xFFFF,
  ⟨0x300010, [(4, 3)], false, 0, 0xFFFFFFFF, 0, 0, 0⟩,
  roRow 0x300020 [],
  rcRow 0x300024 [],
  roRow 0x300030 [(4, 4)],
  rwRow 0x300040 [] 0,
  rwRow 0x301000 [(0x10, 64)] 0xFFFF00FF 0x00FF0000,
  roRow 0x301004 [(0x10, 64)],
  rwRow 0x301008 [(0x10, 64)] 0xFFFF,
  rwRow 0x30100C [(0x10, 64)] allBits,
  roRow 0x302000 [(8, 96), (4, 2)],
  rwRow 0x303000 [(0x100, 4), (0x10, 8)] 0xE00000FF,
  roRow 0x303004 [(0x100, 4), (0x10, 8)],
  rwRow 0x303008 [(0x100, 4), (0x10, 8)] 0xFFFF,
  rwRow 0x30300C [(0x100, 4), (0x10, 8)] allBits,
  roRow 0x303080 [(0x100, 4)],
  roRow 0x310000 [(0x1000, 16)],
  roRow 0x310008 [(0x1000, 16), (4, 2)],
  roRow 0x310100 [(0x1000, 16), (8, 64), (4, 2)]]

/-- CHK block (R695, R696). -/
def regsChk : List RegRow := [
  rwRow 0x200000 [(0x40, 4)] 0x7FFC0000 0x400C0000,
  rwRow 0x200004 [(0x40, 4), (4, 8)] allBits,
  rwRow 0x200024 [(0x40, 4), (4, 2)] 0,
  roRow 0x20002C [(0x40, 4), (4, 2)],
  ⟨0x200034, [(0x40, 4)], false, 0, 0x60000000, 0, 0, 0⟩,
  rcRow 0x200200 [],
  roRow 0x210000 [(0x10, 16), (4, 3)] true,
  rcRow 0x21000C [(0x10, 16)] true]

/-- Deep-path registers of the SEQ block (R405 to R409). -/
def regsDeep : List RegRow := [
  rwRow 0x600600 [] 0x80F00000 0x80800000,
  rcRow 0x600604 [],
  roRow 0x600700 [(0x10, 16), (4, 2)] true,
  rcRow 0x600708 [(0x10, 16), (4, 2)] true,
  rcRow 0x600800 [(4, 16)] true 0xFFFF,
  infoRow 0x600840 [(8, 16)] true,
  roRow 0x600844 [(8, 16)] true]

/-- CAP block (R460 to R466). -/
def regsCap : List RegRow := [
  ⟨0x800000, [], false, 0, 0xA0000000, 0, 0, 0⟩,
  roRow 0x800004 [] true,
  rcRow 0x800014 [(4, 5)],
  roRow 0x800100 [(0x10, 4)],
  rwRow 0x800104 [(0x10, 4)] 0xFFFF,
  rcRow 0x800108 [(0x10, 4)],
  rwRow 0x801000 [(0x100, 4), (4, 64)] allBits,
  roRow 0x810000 [(0x20, 64)] true,
  rcRow 0x810004 [(0x20, 64), (4, 3)] true,
  roRow 0x810010 [(0x20, 64)] true,
  rwRow 0x810014 [(0x20, 64)] allBits 0 true,
  rcRow 0x810018 [(0x20, 64), (4, 2)] true,
  roRow 0x820000 [(0x20, 256), (4, 3)] true,
  rcRow 0x82000C [(0x20, 256), (4, 2)] true,
  rwRow 0x900000 [(0x10, 16384)] 0xFFFFCFFF,
  rwRow 0x900004 [(0x10, 16384)] allBits,
  rwRow 0x900008 [(0x10, 16384)] 0xFFF00000,
  roRow 0x90000C [(0x10, 16384)],
  rwRow 0x940000 [(8, 4096)] allBits,
  rwRow 0x940004 [(8, 4096)] 0x80000FFF,
  rwRow 0xA00000 [(0x10, 16384)] allBits,
  rwRow 0xA00004 [(0x10, 16384)] 0xFFFF,
  rcRow 0xA00008 [(0x10, 16384), (4, 2)]]

/-- TIM block (R572 to R577). -/
def regsTim : List RegRow := [
  roRow 0x400000 [] true,
  roRow 0x400004 [] true,
  roRow 0x400100 [(0x10, 4), (4, 3)] true,
  roRow 0x400140 [(4, 4)] true,
  rwRow 0x410000 [(0x100, 4)] 0xFFFFF000 0 true,
  roRow 0x410004 [(0x100, 4)] true,
  rwRow 0x410008 [(0x100, 4), (4, 4)] allBits 0 true,
  roRow 0x410018 [(0x100, 4)] true,
  rwRow 0x410020 [(0x100, 4)] allBits 0x01B8002C true,
  rwRow 0x410024 [(0x100, 4)] allBits 0x03E81008 true,
  rwRow 0x410028 [(0x100, 4)] 0x7FFFFFFF 0x1A36E2EB true,
  rwRow 0x41002C [(0x100, 4)] 0xFFFF 0xBB8 true,
  rwRow 0x410030 [(0x100, 4)] allBits 0 true,
  roRow 0x410034 [(0x100, 4), (4, 3)] true,
  ⟨0x410040, [(0x100, 4)], true, 0, 0x20000000, 0xFFFF, 0, 0⟩,
  rwRow 0x420000 [] 0xF000FFFF 0x2710 true,
  rwRow 0x420004 [] allBits 0 true,
  roRow 0x420008 [] true,
  rwRow 0x42000C [] 0xFFFF 0 true,
  roRow 0x420010 [(4, 2)] true,
  rwRow 0x420020 [] 0xE0000000 0 true,
  rwRow 0x420024 [] allBits 0 true,
  rwRow 0x420100 [(4, 64)] allBits 0 true,
  rwRow 0x430000 [] allBits 0x06666666 true,
  rwRow 0x430004 [(4, 2)] allBits 0 true,
  roRow 0x43000C [] true,
  rwRow 0x440000 [] 0xE0000000 0 true,
  rcRow 0x440004 [(4, 2)] true,
  rwRow 0x440100 [(4, 96)] 0x8000007F 0 true]

/-- LAN block (R542 to R547). -/
def regsLan : List RegRow := [
  roRow 0x1000000 [(0x1000, 16)],
  ⟨0x1000004, [(0x1000, 16)], false, 0, 0x2000, 0, 0, 0⟩,
  rcRow 0x1000008 [(0x1000, 16), (4, 8)],
  roRow 0x1000040 [(0x1000, 16), (4, 5)],
  roRow 0x1000060 [(0x1000, 16)],
  roRow 0x1000100 [(0x1000, 16), (4, 34)],
  roRow 0x1000200 [(0x1000, 16), (0x80, 8), (4, 2)],
  roRow 0x1000240 [(0x1000, 16), (0x80, 8), (4, 16)],
  roRow 0x1010000 [(0x20, 8), (4, 2)],
  ⟨0x1010008, [(0x20, 8)], false, 0, 0x70000000, 0xFFFF, 0, 0⟩]

/-- OPT block (R548, R549). -/
def regsOpt : List RegRow := [
  roRow 0x1400000 [(0x1000, 8)],
  ⟨0x1400004, [(0x1000, 8)], false, 0, 0x40000000, 0, 0, 0⟩,
  rwRow 0x1400008 [(0x1000, 8)] 0xFFFF0000 0x03200000,
  rwRow 0x1400010 [(0x1000, 8), (4, 8)] 0xFFFF0000 0x00FA0000,
  roRow 0x1410000 [(0x1000, 64)],
  ⟨0x1410004, [(0x1000, 64)], false, 0, 0x2000, 0, 0, 0⟩,
  rcRow 0x1410008 [(0x1000, 64), (4, 2)],
  roRow 0x1410040 [(0x1000, 64), (4, 5)],
  roRow 0x1410060 [(0x1000, 64)],
  rcRow 0x1480010 [(0x1000, 32), (4, 6)],
  roRow 0x1480100 [(0x1000, 32), (4, 34)],
  roRow 0x1480200 [(0x1000, 32), (0x80, 8), (4, 2)],
  roRow 0x1480240 [(0x1000, 32), (0x80, 8), (4, 16)]]

/-- WYL block (R607 to R613). -/
def regsWyl : List RegRow := [
  rwRow 0x1800000 [] 0xFFF 0 true,
  rwRow 0x1800004 [] 0x80000FFF 0 true,
  rcRow 0x1800008 [(4, 2)] true,
  rwRow 0x1800100 [(0x40, 16)] 0xFFFF0FFF,
  rwRow 0x1800104 [(0x40, 16)] allBits,
  ⟨0x1800108, [(0x40, 16)], false, 0, 0x10000000, 0, 0, 0⟩,
  roRow 0x180010C [(0x40, 16)],
  rcRow 0x1800110 [(0x40, 16), (4, 3)],
  rwRow 0x180011C [(0x40, 16)] 0xE000FFFF 0x3E8,
  rwRow 0x1810000 [(4, 256)] 0x800FFFFF 0 true,
  rwRow 0x1820000 [(4, 4096)] 0x8000001F 0 true]

/-- CRN, BRM, NVS and PWR blocks (R670 to R672). -/
def regsSys : List RegRow := [
  roRow 0x30000 [],
  roRow 0x30004 [],
  ⟨0x30008, [], false, 0, 0, 0xFFFF, 0, 0⟩,
  rcRow 0x3000C [],
  roRow 0x40000 [],
  rcRow 0x40010 [(4, 4)] false 0xFFFF,
  roRow 0x20000 [],
  roRow 0x20004 [(4, 2)],
  roRow 0x10000 [(4, 2)],
  roRow 0x10008 [] true,
  roRow 0x10100 [(4, 16)] true 0xFFFFFFFF]

/-- Reset value of a calibration word: `floor(c / 2)` for the four entries c = 4 w to 4 w + 3 (R437). -/
def calReset (w : Nat) : Nat := 2 * w + 2 * w * 2 ^ 8 + (2 * w + 1) * 2 ^ 16 + (2 * w + 1) * 2 ^ 24

/-- Reset value of a register of a row that differs by element: the calibration words (R437) and LOGICAL of
the lane status registers (R543). DEDUCED: log entry 46. -/
def rowReset (r : RegRow) (off : Nat) : Nat :=
  if r.base = 0x801000 ∨ r.base = 0x420100 then calReset (off % 0x100 / 4)
  else if r.base = 0x1000004 then (off - r.base) / 0x1000 * 2 ^ 19
  else if r.base = 0x1410004 then (off - r.base) / 0x1000 % 8 * 2 ^ 19
  else r.reset
/-- Every register of a die window. -/
def regTable : List RegRow :=
  regsCtl ++ regsFlt ++ regsCnt ++ regsChk ++ regsMit ++ regsSeq ++ regsScl ++ regsLat ++ regsDeep ++ regsCap ++ regsTim ++ regsLan ++ regsOpt
    ++ regsWyl ++ regsSys

/-- Die of a BAR0 offset (R698). -/
def addrDie (a : Nat) : Nat := a / 0x8000000
/-- Die offset of a BAR0 offset. -/
def addrOff (a : Nat) : Nat := a % 0x8000000

/-- The row that describes the register at BAR0 offset `a`; none where no register stands (R700). -/
def regRow (a : Nat) : Option RegRow :=
  if a % 4 ≠ 0 ∨ 1 < addrDie a then none
  else
    match regTable.find? (fun r => rowHit r (addrOff a)) with
    | none => none
    | some r => if r.die0 && decide (addrDie a = 1) then none else some r

/-- Reset value of the register at `a` (R14). -/
def regReset (a : Nat) : Word :=
  match regRow a with
  | some r => BitVec.ofNat 32 (rowReset r (addrOff a))
  | none => 0

/-! ### Addresses (R698 to R701) -/

/-- First offset of die `d`'s window. -/
def dieBase (d : Nat) : Nat := 0x8000000 * d
/-- CTL register (die 0). -/
def aCtl (o : Nat) : Nat := o
/-- PWR register. -/
def aPwr (d o : Nat) : Nat := dieBase d + 0x10000 + o
/-- NVS register. -/
def aNvs (d o : Nat) : Nat := dieBase d + 0x20000 + o
/-- CRN register. -/
def aCrn (d o : Nat) : Nat := dieBase d + 0x30000 + o
/-- BRM register. -/
def aBrm (d o : Nat) : Nat := dieBase d + 0x40000 + o
/-- FLT register. -/
def aFlt (d o : Nat) : Nat := dieBase d + 0x100000 + o
/-- CHK register. -/
def aChk (d o : Nat) : Nat := dieBase d + 0x200000 + o
/-- CNT register. -/
def aCnt (d o : Nat) : Nat := dieBase d + 0x300000 + o
/-- TIM register (die 0). -/
def aTim (o : Nat) : Nat := 0x400000 + o
/-- MIT register (die 0). -/
def aMit (o : Nat) : Nat := 0x500000 + o
/-- SEQ register. -/
def aSeq (d o : Nat) : Nat := dieBase d + 0x600000 + o
/-- SCL register. -/
def aScl (d o : Nat) : Nat := dieBase d + 0x700000 + o
/-- GAU register. -/
def aGau (d o : Nat) : Nat := dieBase d + 0x780000 + o
/-- CAP register. -/
def aCap (d o : Nat) : Nat := dieBase d + 0x800000 + o
/-- MEM register. -/
def aMem (d o : Nat) : Nat := dieBase d + 0xC00000 + o
/-- LAN register. -/
def aLan (d o : Nat) : Nat := dieBase d + 0x1000000 + o
/-- OPT register. -/
def aOpt (d o : Nat) : Nat := dieBase d + 0x1400000 + o
/-- WYL register. -/
def aWyl (d o : Nat) : Nat := dieBase d + 0x1800000 + o
/-- LAT register of physical region `r` (R32, R701). -/
def aLat (r o : Nat) : Nat := dieBase (r / 8) + 0x2000000 + 0x400000 * (r % 8) + o

/-- Region of a physical unit address (R22). -/
def uRegion (u : Nat) : Nat := u / 2048
/-- Cluster of a physical unit address. -/
def uCluster (u : Nat) : Nat := u / 32 % 64
/-- Unit within its cluster of a physical unit address. -/
def uUnit (u : Nat) : Nat := u % 32
/-- Physical unit address (R22). -/
def unitAddr (r c u : Nat) : Nat := 2048 * r + 32 * c + u
/-- Cluster key: 64 × region + cluster. -/
def uKey (u : Nat) : Nat := u / 32
/-- Register of unit `u` at unit offset `o` (R200). -/
def aUnit (u o : Nat) : Nat := aLat (uRegion u) (0x10000 + 0x1000 * uCluster u + 0x100 + 0x40 * uUnit u + o)
/-- LAT_UNIT_CTXA[k]. -/
def aCtxA (u k : Nat) : Nat := aUnit u (0x14 + 4 * k)
/-- LAT_UNIT_CTXB[k]. -/
def aCtxB (u k : Nat) : Nat := aUnit u (0x24 + 4 * k)
/-- LAT_UNIT_CTXC[k]; context 3 lies at cluster offset 0x600 + 4 × u. -/
def aCtxC (u k : Nat) : Nat :=
  if k < 3 then aUnit u (0x34 + 4 * k)
  else aLat (uRegion u) (0x10000 + 0x1000 * uCluster u + 0x600 + 4 * uUnit u)
/-- LAT_SW_SLOT[i] of cluster key `k`. -/
def aSwSlot (k i : Nat) : Nat := aLat (k / 64) (0x10000 + 0x1000 * (k % 64) + 0x800 + 4 * i)
/-- SEQ_DF_SLOT[n][f][ch] of physical region `r` (R247). -/
def aDfSlot (r f ch : Nat) : Nat := aSeq (r / 8) (0x10000 + 0x2000 * (r % 8) + 4 * (20 * f + ch))

/-- Code of a control port (R614). -/
def portCode : Port → Nat
  | .pcieA => 1 | .pcieB => 2 | .wyile => 3 | .smbus => 4 | .jtag => 5

/-- The port of a PCIe link, 0 for A and 1 for B. -/
def linkPort (q : Nat) : Port := if q = 0 then .pcieA else .pcieB

/-- The port is a PCIe port. -/
def portPcie : Port → Bool
  | .pcieA | .pcieB => true
  | _ => false

/-- The ring registers' index of a PCIe port. -/
def portLink : Port → Nat
  | .pcieB => 1
  | _ => 0

/-- Every control port, in port order. -/
def allPorts : List Port := [.pcieA, .pcieB, .wyile, .smbus, .jtag]

end Sys2Proof.Machine
end

