-- ==== Sys2Proof/Machine/State.lean ====
section
/-! DEFINITION. The state of the Keaha: plain data for every piece of state the spec gives the part,
the queue of waiting commands, the reasons a step can stop, and the state after reset. -/

namespace Sys2Proof.Machine

/-! ### The part (R1 to R8) -/

/-- Ordering grades (R1). -/
inductive Grade where
  | kh16 | kh12
  deriving DecidableEq, Repr

/-- Steppings (R7). -/
inductive Stepping where
  | a1 | b0
  deriving DecidableEq, Repr

/-- What is fixed at manufacture: grade, stepping, fused regions (R3), DEVICE_ID (R359). DESIGN CHOICE: log entry 42. -/
structure PartId where
  grade    : Grade
  stepping : Stepping
  fused    : BitVec 16
  deviceId : BitVec 128
  /-- SMB_ADDR[1:0] as sampled at RESET_N release: the SMBus address is 0x5C plus it (R727) -/
  smbAddr  : BitVec 2
  deriving DecidableEq, Repr


/-! ### Control ports and operations -/

/-- A completion entry (R619), before its phase bit is set. -/
structure Completion where
  tag    : BitVec 16
  opcode : BitVec 8
  status : BitVec 8
  detail : BitVec 16
  result : BitVec 64
  /-- the IRQ flag of the command's descriptor (R617) -/
  irq    : Bool
  /-- data that follows the entry of a BUF_READ (R634) -/
  extra  : List Byte
  deriving DecidableEq, Repr

/-- An operation in progress (R630): a class W or S command between its acceptance and its final status. -/
structure Op where
  port    : Port
  place   : Nat
  cmd     : Instr
  hdr     : CmdHdr
  opcode  : BitVec 8
  /-- the partition the command names, if any -/
  part    : Option Nat
  /-- current status: QUEUED or STEPPING (R15) -/
  status  : BitVec 8
  /-- steps done (R624, SEL 2) -/
  steps   : Nat
  /-- step agent of each die that runs it; 4 for the lead Crown, none for class W (R631) -/
  agent   : Option Nat
  dies    : List Nat
  /-- bytes or units done so far -/
  done    : Nat
  /-- partial result gathered by the steps -/
  buf     : List Byte
  /-- its completion is discarded because its port was reset (R638) -/
  orphan  : Bool
  deriving DecidableEq, Repr

/-- One control port (R614). -/
structure PortState where
  /-- commands ready and not yet taken, oldest first (R615) -/
  ready  : List Instr
  /-- the oldest of them has reported QUEUED (R620) -/
  queued : Bool
  /-- the dispatcher cycle in which the dispatcher last took a command from the port (R615) -/
  takenAt : Option Nat
  /-- completions held while the completion ring is full (R637) -/
  held   : List Completion
  /-- unread completion entries of a short-form port, oldest first (R635) -/
  unread : List Completion
  /-- the 64 KiB port buffer of a short-form port (R634) -/
  buffer : Mem
  /-- host memory of a PCIe port, as this device has written it (R617) -/
  host   : Mem
  /-- PHASE of the current pass of the completion ring (R637) -/
  phase  : Bool
  /-- MSI-X vectors signalled, newest first (R639) -/
  irqs   : List Nat
  /-- the MSI-X table (R638) -/
  msix   : AMap (BitVec 128)
  deriving DecidableEq, Repr

/-! ### Partitions (R293 to R330) -/

/-- Partition states (R295). -/
inductive PState where
  | none | bound | loading | loaded | running | pausing | paused | stopped
  deriving DecidableEq, Repr

/-- A pending mode change (R309 to R314). -/
structure ModeChange where
  kind    : Nat
  stream  : Nat
  n       : Nat
  /-- base of the staged settings, offset in the allocation -/
  settings : Nat
  pmask   : Nat
  seeds   : List Nat
  /-- boundary armed (R312) -/
  armed   : Bool
  /-- ingest cycle of the boundary instance, once created (R310) -/
  boundary : Option Nat
  /-- sequence number of the boundary instance's event -/
  boundarySeq : Nat
  /-- SHA-384 digest of the new settings (R314) -/
  digest  : List Byte
  deriving DecidableEq, Repr

/-- A staged image or scale set (R625). -/
structure Staged where
  dst    : Nat
  len    : Nat
  /-- end of the last chunk accepted (R625) -/
  next   : Nat
  /-- bytes staged; the staging is finished when they are `len` -/
  done   : Nat
  /-- authoritative: a loaded image stands on these copies (R474) -/
  auth   : Bool
  /-- the load digest held with the finished staging (R305) -/
  digest : List Byte
  deriving DecidableEq, Repr

/-- A record of a loaded image (R259). -/
structure ImgRec where
  typ      : Nat
  section_ : Nat
  template : Nat
  lregion  : Nat
  cluster  : Nat
  unit     : Nat
  body     : List Byte
  deriving DecidableEq, Repr

/-- The image loaded on a partition. -/
structure Loaded where
  /-- offset of the staged image in the allocation -/
  dst      : Nat
  digest   : List Byte
  /-- KIND of the header: 0 front path, 1 deep path -/
  kind     : Nat
  /-- REPRO_CLASS is ANY (R258) -/
  anyClass : Bool
  profile  : Nat
  elastic  : Bool
  relaxed  : Bool
  template : Nat
  nsect    : Nat
  ntempl   : Nat
  /-- NLREG of each template of the image, in increasing index (R263) -/
  nlregs   : List Nat
  nprog    : Nat
  /-- physical region of each logical region, in increasing logical index (R244) -/
  map      : List Nat
  /-- every record of the image that serves the bound template -/
  recs     : List ImgRec
  deriving DecidableEq, Repr

/-- One partition (R293 to R330). -/
structure Partition where
  regions   : BitVec 16
  owner     : Option Port
  state     : PState
  epoch     : BitVec 2
  saved     : Bool
  saveCount : Nat
  /-- HUNG and RELAXED of SEQ_PART_STATUS, until the next LOAD (R251) -/
  hung      : Bool
  relaxed   : Bool
  allocBase : Nat
  allocSize : Nat
  staged    : List Staged
  image     : Option Loaded
  /-- scale sets switched since LOAD; its parity is the active bank (R133) -/
  gen       : Nat
  /-- generator seed of each program (R309) -/
  seeds     : AMap (BitVec 64)
  change    : Option ModeChange
  /-- a SET_MODE_AT whose shadow fill runs (R312) -/
  filling   : Bool
  /-- context half that a prefetched swap made active (R390) -/
  half      : Nat
  /-- offsets of the scale sets switched since LOAD, oldest first (R402) -/
  sets      : List Nat
  /-- `T` of the START_AT or RESUME whose admission has not opened (R629) -/
  opensAt   : Option Nat
  deriving DecidableEq, Repr

/-! ### Lattice: tokens, units, clusters (R142 to R208) -/

/-- A token: payload, one even parity bit per payload byte, and the 32-bit sideband (R142, R146). -/
structure Token where
  payload : BitVec 256
  par     : BitVec 32
  side    : BitVec 32
  deriving DecidableEq, Repr

/-- A token as the machine holds it: with the event instance it belongs to (0 for none) and whether
it is handled under R146. -/
structure Held where
  tok    : Token
  inst   : Nat
  exempt : Bool
  /-- first cycle, since cold reset, in which it stands where it is held -/
  since  : Nat
  /-- number of the token from which it was copied: the copies of a multicast share it (R116) -/
  id     : Nat
  deriving DecidableEq, Repr

/-- A firing or other operation that the schedule names (R213). -/
structure Due where
  sched : Nat
  inst  : Nat
  deriving DecidableEq, Repr

/-- A firing whose pipeline runs (R171): completion cycle and output tokens of each port. -/
structure Flight where
  done : Nat
  out0 : List Held
  out1 : List Held
  deriving DecidableEq, Repr

/-- A filled feature buffer that waits for its evaluation (R191). -/
structure TreeEvent where
  buf  : Nat
  ctx  : Nat
  inst : Nat
  side : BitVec 32
  taint : BitVec 2
  ready : Nat
  deriving DecidableEq, Repr

/-- One unit (R142 to R199). -/
structure UnitState where
  q0 : List Held
  q1 : List Held
  q2 : List Held
  q3 : List Held
  out0 : List Held
  out1 : List Held
  /-- tokens of a pending burst not yet placed (R154) -/
  burst0 : List Held
  burst1 : List Held
  pipe : List Flight
  due : List Due
  actx : Nat
  fdone : Nat
  lastFire : Option Nat
  /-- the unit has fired FIRES times and owes its switch cycle (R167) -/
  switching : Bool
  standbyOk : Bool
  /-- cycle in which the running standby fill completes (R168) -/
  fillDone : Option Nat
  /-- decoded set found with a parity mismatch (R480) -/
  decodedBad : Bool
  /-- accumulations, terms or keys of the event under way, by logical element index -/
  acc : AMap (BitVec 48)
  /-- fp32 terms in order of arrival (FSUM_ARRIVAL, R71) -/
  arrivals : List (BitVec 32)
  /-- tokens consumed of the accumulation or event under way -/
  accTok : Nat
  accTaint : BitVec 2
  accBlk : BitVec 8
  /-- elements delivered so far by Q0 and Q1 for the event (R195) -/
  elems0 : Nat
  elems1 : Nat
  /-- latched steering decision and its phase (R185) -/
  decision : Option Nat
  phase : Nat
  /-- operand areas of the active and the standby set, as the fill read them (R168, R183) -/
  setA : List Byte
  setB : List Byte
  /-- iterations of the LOOP event held (R187) -/
  loopCount : Nat
  /-- feature buffer being filled and features in it (R191) -/
  featBuf : Nat
  featCount : Nat
  waiting : List TreeEvent
  evalStart : Option Nat
  /-- feature buffer held by the running evaluation, and when it ends -/
  evalHold : Option (Nat × Nat)
  /-- events since the last histogram readout (R199) -/
  rdCount : Nat
  /-- stochastic draws made so far for each instance (R94, R340) -/
  draws : AMap Nat
  deriving DecidableEq, Repr

/-- A final accumulation that waits at or runs in the rescale stage (R112, R182). -/
structure Final where
  unit   : Nat
  /-- fold context that completed it -/
  ctx    : Nat
  inst   : Nat
  fp     : Bool
  acc    : List (BitVec 48)
  side   : BitVec 32
  taint  : BitVec 2
  /-- cycle in which the MAC pipeline hands it over -/
  ready  : Nat
  /-- enabled output ports: bit 0 for the result, bit 1 for the PASS copies (R182) -/
  outs   : Nat
  /-- entry index of each channel (R183) -/
  entries : List Nat
  /-- channels whose sum was clamped to int32 (R63) -/
  sats    : List Bool
  deriving DecidableEq, Repr

/-- An event that has had a SCALE_SKEW at a rescale stage (R114). -/
structure Skew where
  inst  : Nat
  seq   : BitVec 12
  /-- the scale that serves every later token of the event -/
  scale : Option Held
  /-- a later event has cleared the latch -/
  ended : Bool
  deriving DecidableEq, Repr

/-- One cluster: switch side inputs, rescale stage and its queues (R110 to R114, R158 to R165). -/
structure ClusterState where
  /-- the token that each side input holds, and behind it the one that takes its place in the next cycle (R160) -/
  sideN : List Held
  sideE : List Held
  sideS : List Held
  sideW : List Held
  scaleQ : List Held
  latched : Option Held
  /-- final accumulations in stage order -/
  stage : List Final
  /-- accumulations of the current block so far, keyed by block of the draw counter (R111) -/
  blkCount : Nat
  waitSince : Option Nat
  /-- events that have skewed -/
  skews : List Skew
  /-- BLK of the block being counted (R111) -/
  curBlk : Option (BitVec 8)
  /-- tokens that entered by the west edge port in lattice mode -/
  latCount : Nat
  deriving DecidableEq, Repr

/-- A token in a crossing (R37, R220) or bridge channel (R221). -/
structure Passage where
  held : Held
  /-- release cycle -/
  rel  : Nat
  /-- scheduled release cycle -/
  due  : Nat
  /-- endpoint that a bridge transfer reaches; stream of an admitted token -/
  src  : Nat
  deriving DecidableEq, Repr

/-- A slot whose token could not move (R161, R218, R584): cause code, destinations, the unit they feed, the waiting
instance. -/
structure SlotWait where
  cause : Nat
  /-- region whose stall cycles these are (R253) -/
  region : Nat
  dsts : List Nat
  unit : Nat
  inst : Nat
  deriving DecidableEq, Repr

/-- A switch transfer on its way into a row of cluster SRAM (R160): the cycle from which it stands there. -/
structure RowWrite where
  cluster : Nat
  row : Nat
  tok : Token
  at_ : Nat
  deriving DecidableEq, Repr

/-- A token sent to the sync-cell array (R46): its cycle, the logical region that sent it. -/
structure SyncOp where
  cycle : Nat
  lregion : Nat
  tok : Token
  deriving DecidableEq, Repr

/-- A relocated memory slot (R280, R281). -/
structure MemSlot where
  cycle : Nat
  ctrl  : Nat
  lane  : Nat
  write : Bool
  addr  : Nat
  sched : Word
  deriving DecidableEq, Repr

/-- The lattices, fabrics and crossings of both dies. -/
structure Lattice where
  /-- by physical unit address (R22) -/
  units    : AMap UnitState
  /-- by 64 × region + cluster -/
  clusters : AMap ClusterState
  /-- cluster SRAM byte A of cluster k at 2^19 × k + A -/
  sram     : Mem
  /-- bytes of the cluster SRAM whose parity bit is wrong -/
  sramBad  : AMap Bool
  /-- sideband columns, row R of cluster k at 2^14 × k + R (R164) -/
  sideCol  : AMap Word
  /-- rows that the switch has written, keyed as the columns: they hold writable state (R473, R481) -/
  wrRows   : AMap Bool
  /-- rescale tables: entry e of bank b of cluster k at 8192 × k + 4096 × b + e (R89) -/
  rescale  : AMap (BitVec 128)
  /-- input quantiser tables: entry e of bank b of die d at 8192 × d + 4096 × b + e (R100) -/
  inq      : AMap (BitVec 128)
  /-- LIDX of each input quantiser entry, keyed as the entries (R282) -/
  inqLidx  : AMap Nat
  /-- tokens on the die fabric at source endpoint e of die d, from the cycle `rel` on: 512 × d + e; those at a bridge port
  that wait for the bridge: 4096 + 512 × d + e -/
  fabIn    : AMap (List Passage)
  /-- tokens released into an endpoint's island and not yet taken: 512 × d + e -/
  inbox    : AMap (List Passage)
  /-- crossings from the fabric into the endpoint's island: 512 × d + e -/
  xIn      : AMap (List Passage)
  /-- crossings from the endpoint's island onto the fabric -/
  xOut     : AMap (List Passage)
  /-- bridge channels: 32 × sending die + channel; destination endpoint in `src` -/
  bridge   : AMap (List Passage)
  /-- schedule words of switch and fabric slots, by the slot register's address (R277) -/
  sched    : AMap Word
  /-- relocated memory slots of each physical region -/
  memSlots : AMap (List MemSlot)
  /-- last instance served by each memory slot, 65536 × region + index, and by each cluster SRAM slot of a
  cluster switch, 2^24 + 512 × cluster key + entry -/
  memServed : AMap Nat
  /-- cycles by which context k of unit u falls short of the image's profile: 4 × u + k (R241) -/
  deficits : AMap Nat
  /-- shadow copies of the slot tables and configuration words of a prefetched section, by register address (R390) -/
  shadow   : AMap Word
  /-- resources that have had their one use of the present cycle (R148, R154, R215, R216), as `useKey` numbers them -/
  used     : List Nat
  /-- slots and crossings that wait: 64 × cluster key + source of a switch, 2^20 + 512 × region + source of a fabric,
  2^24 + 512 × cluster key + entry of a cluster SRAM read, 2^25 + 512 × die + endpoint of a crossing -/
  waits    : AMap SlotWait
  /-- first cycle in which a bank serves a further switch access: 32 × cluster key + bank (R165) -/
  banks    : AMap Nat
  /-- switch writes under way -/
  rowWrites : List RowWrite
  /-- accepted tokens that admission holds until the crossing of their capture port takes them: 512 × d + e (R232) -/
  admQ     : AMap (List Passage)
  /-- operations applied to the sync-cell array of each die, in the order of R46; the cells hold what they made of them -/
  sync     : AMap (List SyncOp)
  deriving DecidableEq, Repr

/-! ### The sequencer: event instances (R211 to R214, R348 to R352) -/

/-- An event instance. -/
structure Inst where
  id      : Nat
  part    : Nat
  prog    : Nat
  stream  : Nat
  seq     : Nat
  ingest  : Nat
  /-- operations of the instance still in flight on each die (R214) -/
  ops0    : Nat
  ops1    : Nat
  late    : Bool
  lateCount : Nat
  /-- FLAGS of the provenance tag gathered so far (R349) -/
  flags   : BitVec 16
  /-- INPUT_CHECK of the tag (R350) -/
  check   : BitVec 64
  /-- side streams whose event has not been placed (R421) -/
  sides   : List Nat
  /-- raw bytes of the entry event (0) and of each placed side event (1 + its place in SIDE), until all are placed -/
  raws    : AMap (List Byte)
  /-- tokens given to the capture ports of die 0 and die 1 (R413) -/
  tok0    : Nat
  tok1    : Nat
  /-- result tokens still to be released -/
  results : Nat
  /-- cycle of its last release, once all are released -/
  released : Option Nat
  /-- tokens that crossed each edge port, as R367 takes them: 64 × logical region + 2 × port + direction -/
  sigs    : AMap (List Byte)
  /-- released result tokens in release order: output endpoint and token -/
  outputs : List (Nat × Token)
  /-- it was created before the pending mode boundary (R310) -/
  old     : Bool
  /-- scheduled cycle of its last result token (R234) -/
  lastDue : Nat
  /-- a unit slower than the image's profile has fired for it (R241) -/
  behind  : Bool
  /-- result tokens released LATE or not on die 0 and on die 1 (R252) -/
  rel0    : Bool
  rel1    : Bool
  /-- transfers made for it from each fabric source, by the source's key among the tokens on the fabric (R218) -/
  moved   : AMap Nat
  deriving DecidableEq, Repr

/-- An event placed in the present cycle, whose fields go to the lattice as the cycle ends (R310, R311, R413). -/
structure Entering where
  die    : Nat
  stream : Nat
  inst   : Nat
  /-- program whose seed the quantisers draw with (R341) -/
  prog   : Nat
  seq    : Nat
  raw    : List Byte
  deriving DecidableEq, Repr

/-- The sequencers of both dies. -/
structure Sequencer where
  /-- schedule cycle count of die 0 and of die 1 (R211) -/
  count0 : Nat
  count1 : Nat
  insts  : List Inst
  nextId : Nat
  /-- number of the next token made; the model's own field -/
  nextTok : Nat
  /-- operations in flight: die 0 and die 1, with the peak since its last read (SEQ_OPS) -/
  ops0   : Nat
  ops1   : Nat
  /-- elastic step that each die's power manager asks for (R399) -/
  steps  : AMap Nat
  /-- events placed in this cycle, oldest first -/
  entering : List Entering
  deriving DecidableEq, Repr

/-! ### Audit chains (R353 to R362) -/

/-- An entry of an audit batch; a tag entry waits for its event's last release before its content stands (R354). -/
structure AuditEntry where
  isTag : Bool
  /-- stream and cycle of the first release of a tag entry: entries of one cycle stand in stream order -/
  stream : Nat
  cycle : Nat
  /-- the instance whose tag entry this is, while it has not released its last result token; else 0 -/
  inst  : Nat
  bytes : List Byte
  deriving DecidableEq, Repr

/-- An open batch, or one that waits for its events (R357). -/
structure Batch where
  no      : Nat
  entries : List AuditEntry
  /-- a closing condition has been met -/
  closing : Bool
  final   : Bool
  deriving DecidableEq, Repr

/-- A closed batch (R358 to R361). -/
structure ClosedBatch where
  no       : Nat
  header   : List Byte
  prevHead : List Byte
  head     : List Byte
  /-- the content while a slot holds it -/
  content  : Option (List Byte)
  /-- AUDIT_FETCH has returned the content -/
  fetched  : Bool
  /-- a byte of the content has a parity fault -/
  parity   : Bool
  deriving DecidableEq, Repr

/-- The audit chain of one partition (R353, R359). -/
structure Chain where
  genesis : List Byte
  /-- head of the last closed batch, or of the genesis block -/
  head    : List Byte
  /-- batches not yet closed, oldest first; the last one is open unless it is closing -/
  batches : List Batch
  /-- closed batches, newest first -/
  closed  : List ClosedBatch
  nextNo  : Nat
  deriving DecidableEq, Repr

/-! ### The Mitten comparator (R363 to R375) -/

/-- A comparison record (R366). -/
structure MittenRec where
  part   : Nat
  stream : Nat
  seq    : Nat
  tag    : List Byte
  check  : BitVec 64
  sigs   : List (BitVec 32)
  /-- cycle of the local release of its event's last result token, or of its arrival -/
  cycle  : Nat
  deriving DecidableEq, Repr

/-- The comparator. -/
structure Mitten where
  /-- local partition to peer partition -/
  pairs   : AMap Nat
  /-- digest and template index last received for a local partition's peer (R365) -/
  peer    : AMap (List Byte × Nat)
  /-- digest and template index last sent to the peer for a local partition (R365) -/
  sent    : AMap (List Byte × Nat)
  /-- local records formed and not yet sent -/
  toSend  : List MittenRec
  /-- local records that wait for the peer's -/
  localRecs : List MittenRec
  /-- peer records that wait for the local one -/
  peerRecs : List MittenRec
  /-- partition, stream and sequence number of local records whose peer record was not awaited any longer (R369) -/
  lost    : List (Nat × Nat × Nat)
  deriving DecidableEq, Repr

/-! ### Integrity (R467 to R506) -/

/-- An entry of the fault log: words W0 to W3 (R504). -/
structure FaultEntry where
  w0 : Word
  w1 : Word
  w2 : Word
  w3 : Word
  deriving DecidableEq, Repr

/-- A queued repair (R475): the kind of row and its key in the lattice maps. -/
structure RepairReq where
  /-- 0 cluster SRAM row, 1 rescale entry, 2 input quantiser entry, 3 configuration word, 4 wide-weight row -/
  kind : Nat
  key  : Nat
  part : Option Nat
  deriving DecidableEq, Repr

/-- A stacked-memory read severity or mismatch (R483). -/
inductive MemErr where
  | corrected | parity | uncorrectable | both
  deriving DecidableEq, Repr

/-- Fault managers of both dies and the stacked memory. DEDUCED: log entry 51. -/
structure Integrity where
  /-- fault log of each die, oldest first (R496) -/
  logs    : AMap (List FaultEntry)
  /-- repair queue of each die, oldest first (R478) -/
  repairs : AMap (List RepairReq)
  /-- damaged rows: 8 × key + kind (R479) -/
  damaged : AMap Bool
  /-- rescale entries with a parity mismatch, by their map key -/
  rescaleBad : AMap Bool
  /-- input quantiser entries with a parity mismatch -/
  inqBad  : AMap Bool
  /-- configuration words and slot entries with a parity mismatch, by register address -/
  cfgBad  : AMap Bool
  /-- wide-weight rows with a parity mismatch -/
  wideBad : AMap Bool
  /-- four-byte side-buffer entries with a parity mismatch, by byte address / 4 (R128) -/
  sideBad : AMap Bool
  /-- audit content with a parity mismatch: 2^20 × partition + batch number -/
  auditBad : AMap Bool
  /-- errors standing in stacked memory, by 2^31 × stack + 32-byte unit -/
  memBad  : AMap MemErr
  /-- stacked memory: byte b of stack s at 48 GiB × s + b (R707) -/
  stack   : Mem
  /-- microsecond of each bucket's last leak: 8 × die + k (R488) -/
  bktLast : AMap Nat
  /-- time of the last scrub pass of each die (R490) -/
  scrubLast : AMap Nat
  /-- ranges under zero fill: base and size in units of 64 MiB (R298) -/
  zeroFills : List (Nat × Nat)
  /-- stack byte address of the first recorded error, by 2 × die + controller (R506) -/
  errAddr : AMap Nat
  deriving DecidableEq, Repr

/-! ### Performance counters and check-value units (R673 to R696) -/

/-- Counters and check-value units of both dies. -/
structure Counters where
  /-- die counter k of die d at 256 × d + k; core counter i of core c at 256 × d + 64 + 8 × c + i -/
  val : AMap (BitVec 48)
  /-- sample FIFO of each die, oldest first (R684) -/
  samples : AMap (List FaultEntry)
  /-- running register of software stream u of die d at 4 × d + u (R690) -/
  chk : AMap (BitVec 64)
  /-- sampling interrupts that wait for a halted core: core `4d + c`, and the address at which it will take it (R685) -/
  sampleIrq : List (Nat × Nat)
  deriving DecidableEq, Repr

/-! ### The gauntlet lane (R115 to R130) -/

/-- The pass of one instance through a re-runnable layer (R116, R117, R120 to R125). -/
structure LayerWork where
  inst     : Nat
  /-- input elements and final accumulations counted by the monitor (R116) -/
  inCount  : Nat
  accCount : Nat
  /-- numbers of the input tokens already counted (R116) -/
  seen     : List Nat
  /-- final-accumulation tokens with LAST of the layer seen for the instance -/
  finals   : Nat
  /-- PASS tokens taken into the side buffer (R737) -/
  taken    : Nat
  /-- wide inputs written for this instance, by vector × C_IN + element; an absent one reads 0 (R120) -/
  inputs   : AMap (BitVec 32)
  /-- the inputs that the wide run has fetched -/
  fetched  : AMap (BitVec 32)
  /-- conditions that the merge point gives the tag: of the narrow computation, or of the wide run once it has ended (R124) -/
  narrow   : BitVec 16
  /-- window-start cycle and pass number, once reached (R117, R122) -/
  window   : Option Nat
  pass     : Nat
  /-- the trip was accepted -/
  accepted : Bool
  /-- the wide run has started; the cycle in which it ends -/
  runEnds  : Option Nat
  /-- the wide result is ready: output elements by vector × C_OUT + channel -/
  wide     : Option (AMap (BitVec 16))
  /-- taint of the wide run (R128) -/
  taint    : BitVec 2
  /-- narrow result tokens held at the merge point -/
  held     : List Held
  /-- the merge point has released: result tokens passed so far -/
  passed   : Option Nat
  deriving DecidableEq, Repr

/-- A layer slot with the re-runnable layer it holds (R118, R122). -/
structure Layer where
  part    : Nat
  /-- GAU_LYR_CFG and GAU_LYR_WIN as LOAD set them (R140) -/
  cfg     : Word
  win     : Word
  engine  : Nat
  src     : Nat
  w       : Nat
  k       : Nat
  v       : Nat
  cIn     : Nat
  cOut    : Nat
  /-- E_OUT of bank 0 and bank 1 -/
  eOut0   : BitVec 8
  eOut1   : BitVec 8
  sbBase  : Nat
  /-- entries of four bytes of the layer's part of the side buffer -/
  sbDepth : Nat
  wtBase  : Nat
  /-- physical unit address and queue of the merge point -/
  merge   : Nat
  mqueue  : Nat
  /-- logical indices of the layer's MAC units -/
  units   : List Nat
  /-- monitor limits of bank 0 and bank 1, in the order and sizes of R283 -/
  lim0    : List Byte
  lim1    : List Byte
  /-- pass counter and n_last (R122) -/
  n       : BitVec 48
  nLast   : Option (BitVec 48)
  /-- GAU_LYR_TRIP and GAU_LYR_OVER -/
  trip    : BitVec 48
  overs   : BitVec 48
  work    : List LayerWork
  deriving DecidableEq, Repr

/-- The gauntlet lanes of both dies. -/
structure Gauntlet where
  /-- layer slot l of die d at 64 × d + l -/
  layers : AMap Layer
  /-- wide-weight store: byte a of bank b of engine g at 2^23 × g + 2^22 × b + a, g the package number -/
  wide   : Mem
  /-- side buffer: byte a of bank b of engine g at 2^21 × g + 2^20 × b + a -/
  side   : Mem
  deriving DecidableEq, Repr

/-! ### Time bases (R550 to R577) -/

/-- A change of a time base that falls due in a schedule cycle (R553, R554, R564). -/
inductive TbOp where
  /-- a host SET or completed SET_ON_PPS: the count to load -/
  | set (t : Nat)
  /-- a host STEP, in units of 2^-48 ns -/
  | step (d : Int)
  /-- a servo step, in units of 2^-48 ns -/
  | servoStep (d : Int)
  /-- a servo rate update -/
  | rate (adj : Int)
  /-- a manual rate that takes effect (R551) -/
  | manual (adj : Int)
  deriving DecidableEq, Repr

/-- A Sync that waits for its Follow_Up (R568). -/
structure PtpSync where
  seqId : Nat
  t2    : Nat
  corr  : Int
  cycle : Nat
  deriving DecidableEq, Repr

/-- One time base and its servo. ADJ, I_ACC and LOCKED have their homes in TIM_TB_ADJ, TIM_SRV_INT and
TIM_SRV_STATUS. -/
structure TimeBase where
  /-- `T`, in units of 2^-48 ns -/
  t     : Nat
  /-- cycles modulo 5 -/
  phase : Nat
  /-- pending changes with the schedule cycle in which each falls due -/
  due   : List (Nat × TbOp)
  /-- staged value of a SET_ON_PPS whose edge has not arrived -/
  onPps : Option Nat
  /-- the servo's count of good samples, and its last sample (R564, R575) -/
  good  : Nat
  off   : BitVec 48
  /-- sourcePortIdentity of the Sync sender taken (R568) -/
  source : Option (List Byte)
  sync  : Option PtpSync
  /-- receipt and origin of the last complete Sync, for the path delay (R569): t2 minus t1 -/
  t2t1  : Int
  /-- sequenceId and egress stamp of the Delay_Req sent -/
  delayReq : Option (Nat × Nat)
  /-- sequenceId of the next Delay_Req -/
  reqSeq : Nat
  deriving DecidableEq, Repr

/-- A PTP frame queued for forwarding (R570, R571). -/
structure FwdFrame where
  bytes : List Byte
  /-- ingress stamp in the clock's time base -/
  ingress : Nat
  deriving DecidableEq, Repr

/-- The time unit of die 0. -/
structure TimeUnit where
  /-- the four time bases -/
  bases : AMap TimeBase
  /-- counts of the four bases in kept schedule cycles, newest first (R558, R559) -/
  hist  : List (Nat × List Nat)
  /-- G1 count in units of 2^-24 ns, modulo 2^88 (R556) -/
  g1    : Nat
  /-- pending G1 load: 1 on the next reference edge, 2 waiting for a PPS edge -/
  g1Load : Nat
  /-- last counted PPS_IN and REF10M_IN edges, in units of 1/128 cycle -/
  ppsTau : Option Nat
  refEdges : Nat
  /-- forwarded frames of each egress port -/
  fwd   : AMap (List FwdFrame)
  ppsOut : Bool
  refOut : Bool
  deriving DecidableEq, Repr

/-! ### Deep partitions (R376 to R409) -/

/-- A record in the record queue (R380). -/
structure DeepRec where
  stream : Nat
  seq    : Nat
  slot   : Nat
  len    : Nat
  /-- schedule cycle of die 0 in which its last byte was written -/
  waitAt : Nat
  /-- INPUT_CHECK of its bytes (R377) -/
  check  : BitVec 64
  flags  : BitVec 16
  deriving DecidableEq, Repr

/-- An instance of the pass: its record, its event instance, its result slot (R383). -/
structure DeepInst where
  rcd     : DeepRec
  inst    : Nat
  slot    : Nat
  /-- measured latency in cycles, once its first result token is released (R395) -/
  latency : Option Nat
  deriving DecidableEq, Repr

/-- A running pass. -/
structure DeepPass where
  insts : List DeepInst
  /-- largest step in force during the pass -/
  step  : Nat
  /-- c_s of the section under way -/
  start : Nat
  deriving DecidableEq, Repr

/-- A deep partition. -/
structure Deep where
  par     : DeepParams
  stream  : Nat
  e       : Nat
  phi     : Nat
  /-- DECL in microseconds -/
  decl    : Nat
  queue   : List DeepRec
  nextSlot : Nat
  /-- record slots held by waiting records and by the pass -/
  pass    : Option DeepPass
  section_ : Nat
  swap    : Bool
  pfReady : Bool
  passN   : Nat
  /-- WR of the ring header -/
  wr      : Nat
  /-- a record was refused since the last instance (R377) -/
  refused : Bool
  deriving DecidableEq, Repr

/-! ### Streams and capture (R410 to R466) -/

/-- An event formed from a source frame. -/
structure AdmEvent where
  /-- raw bytes, padded to whole tokens -/
  bytes   : List Byte
  /-- cycle in which the deframer formed its first raw token -/
  arrival : Nat
  /-- first cycle, since cold reset, in which an entry slot may take it (R418) -/
  since   : Nat
  deriving DecidableEq, Repr

/-- Admission of one stream on one die. CAP_STRM_SEQ, CAP_STRM_REFUSED and CAP_STRM_CLOSED are registers. -/
structure Stream where
  /-- events whose raw tokens are being formed, oldest first -/
  forming : List AdmEvent
  /-- waiting events, oldest first (R418) -/
  waiting : List AdmEvent
  /-- a refusal not yet reported by REFUSED_SEEN (R423) -/
  refused : Bool
  /-- last cycle, since cold reset, whose entry slot was taken -/
  slotAt  : Option Nat
  deriving DecidableEq, Repr

/-- A frame of a capture group (R425). -/
structure FrameInfo where
  g       : Nat
  arrival : Nat
  refSeq  : Nat
  inst    : Nat
  flags   : Nat
  /-- cycle of its acceptance, in cycles since cold reset -/
  at_     : Nat
  deriving DecidableEq, Repr

/-- A pass of a condition at an occurrence time (R431, R438). -/
structure TrigPass where
  cond   : Nat
  tau    : Nat
  frac   : Nat
  /-- time base A at the occurrence time, in units of 2^-16 ns, where it could be converted (R559) -/
  time   : Option Nat
  /-- instance of a lattice decision, else 0; its final tag and late count once it has retired -/
  inst   : Nat
  tag    : List Byte
  late   : Nat
  deriving DecidableEq, Repr

/-- An unsealed record (R441 to R443). -/
structure Record where
  sample : Nat
  frame  : Nat
  passes : List TrigPass
  deriving DecidableEq, Repr

/-- A sealed record that waits for its copy. -/
structure Sealed where
  header : List Byte
  first  : Int
  toHost : Bool
  toDeep : Bool
  filled : List Int
  deriving DecidableEq, Repr

/-- A capture group (R424). The block is the armed group block of R447. -/
structure Group where
  blk    : List Byte
  meas   : List (List Byte)
  die    : Nat
  e      : Nat
  phi    : Nat
  frameLen : Nat
  ringFrames : Nat
  /-- trigger seed, and the one that a kind-1 change brings, with its boundary once there is one (R432) -/
  seed   : BitVec 64
  seedNew : Option (Option Nat × BitVec 64)
  armed  : Bool
  /-- streaming until the STOP mark is written -/
  streaming : Bool
  stopping : Bool
  nextFrame : Nat
  recNo  : Nat
  frames : List FrameInfo
  /-- passes that wait for their frame with the time to map (R439), and forced conditions that wait (R440) -/
  unassigned : List (Nat × TrigPass)
  forces : List Nat
  records : List Record
  /-- sample indices of sealed records -/
  sealedAt : List Nat
  ready  : List Sealed
  lost   : Nat
  /-- next frame to copy, marks that follow it, bytes of the slot being filled -/
  copyNext : Nat
  marks  : List (Nat × List Byte)
  slotBuf : List Byte
  deriving DecidableEq, Repr

/-- An armed trigger condition (R428). The entry is the 16 bytes of R447. -/
structure Condition where
  entry : List Byte
  group : Nat
  part  : Nat
  /-- occurrences since ARM -/
  occ   : Nat
  /-- occurrences of each event of the reference stream (R430) -/
  draws : AMap Nat
  /-- PRESCALE and THRESH that a kind-1 change brings, behind its boundary (R432) -/
  new   : Option (Option Nat × Nat × Nat)
  deriving DecidableEq, Repr

/-- Where a pass's trigger point lies (R438): placed, to be mapped from a time, or in no frame. -/
inductive TrigPoint where
  | at_ (frame sample frac : Nat)
  | time (tau : Nat)
  | nowhere
  deriving DecidableEq, Repr

/-- An input event of a coincidence table (R434). -/
structure CoincEvent where
  slot  : Nat
  time  : Nat
  point : TrigPoint
  deriving DecidableEq, Repr

/-- An armed coincidence table (R433). -/
structure Coinc where
  tbl    : List Byte
  new    : Option (Option Nat × List Byte)
  group  : Nat
  events : List CoincEvent
  /-- close of the previous window -/
  closed : Option Nat
  deriving DecidableEq, Repr

/-- A pulse of a TRIG_OUT pin (R431). -/
structure Pulse where
  pin   : Nat
  start : Nat
  stop  : Nat
  deriving DecidableEq, Repr

/-- Capture and triggers. -/
structure Capture where
  /-- by 16384 × die + stream -/
  streams : AMap Stream
  groups  : AMap Group
  conds   : AMap Condition
  tables  : AMap Coinc
  pulses  : List Pulse
  /-- driven TRIG_OUT pins -/
  trigOut : BitVec 8
  /-- time of the last counted edge of each TRIG_IN (R436) -/
  lastEdge : AMap Nat
  /-- a SEQ_LO write's staged upper half: by 16384 × die + stream -/
  seqHi   : AMap Nat
  deriving DecidableEq, Repr

/-! ### Lanes and optics (R507 to R549) -/

/-- One physical lane (R507). -/
structure LaneState where
  /-- running equalisation entry (R533); empty when none has been taken -/
  eq     : List Byte
  /-- the entry was set by SET_EQ since the last UP -/
  eqSet  : Bool
  /-- a slip test runs (R531) -/
  slipping : Bool
  /-- checker counters (R538) -/
  errs   : Nat
  bits   : Nat
  deriving DecidableEq, Repr

/-- A frame that an output template is building (R523). -/
structure OutFrame where
  head   : List Byte
  body   : List Byte
  tokens : Nat
  inst   : Nat
  deriving DecidableEq, Repr

/-- An output lane or port, by PSEL (R522). -/
structure OutPort where
  /-- frames under construction by template -/
  open_  : AMap OutFrame
  /-- FSEQ of each template -/
  fseq   : AMap Nat
  /-- frames sent, newest first -/
  sent   : List (List Byte)
  deriving DecidableEq, Repr

/-- Lanes, engines and links of the package. -/
structure Lanes where
  /-- by LSEL -/
  lanes  : AMap LaneState
  /-- by PSEL -/
  outs   : AMap OutPort
  /-- lane map entries set or applied, by group (R534) -/
  maps   : AMap (List Byte)
  /-- reversal decided for a group (R532) -/
  rev    : AMap Bool
  /-- locked LEMC phase of JESD link j of die d at 8 × d + j -/
  lemc   : AMap Nat
  deriving DecidableEq, Repr

/-! ### The Wyile fabric (R578 to R613) -/

/-- A token handed to a Wyile lane: the frame period it rides, its slot. -/
structure WylToken where
  period : Nat
  slot   : Nat
  tok    : Token
  deriving DecidableEq, Repr

/-- A Wyile frame: its full number, VALID and slots of 40 bytes. -/
structure WylFrame where
  num   : Nat
  valid : BitVec 4
  slots : List (List Byte)
  deriving DecidableEq, Repr

/-- One lane of a link (R591, R592). -/
structure WylLane where
  /-- tokens that wait for their frame -/
  tx     : List WylToken
  /-- the last 16 frames sent, newest first -/
  kept   : List WylFrame
  /-- valid data slots of older frames, newest first (R594) -/
  past   : List (Nat × Nat)
  /-- start of the scheduled period of the next new frame -/
  next   : Option Nat
  /-- number of the frame to send again as the next frame -/
  replay : Option Nat
  /-- periods behind the boundaries, and tenths of a bit regained towards the next (R592) -/
  behind : Nat
  gained : Nat
  /-- highest number received, and missing numbers below it, lowest first -/
  high   : Option Nat
  missing : List Nat
  /-- request to put into the next frame, and the frame requested last and not yet arrived -/
  nak    : Option Nat
  asked  : Option Nat
  /-- service segments that ride this lane's next frame -/
  plan   : List (List Byte)
  deriving DecidableEq, Repr

/-- A service message (R595, R597). -/
structure SvcMsg where
  mtype : Nat
  dst   : Nat
  hops  : Nat
  body  : List Byte
  deriving DecidableEq, Repr

/-- A link (R578), by package link number. -/
structure WylLink where
  /-- service messages queued, in sending order (R597) -/
  queue  : List SvcMsg
  msgId  : Nat
  /-- segments received of unfinished messages: 16 × type + MSGID -/
  parts  : AMap (List (Nat × List Byte))
  /-- messages delivered whose row has not run, oldest first -/
  inbox  : List SvcMsg
  /-- t1 of the last TIME_REQ in each time base (R603) -/
  t1     : List Nat
  /-- the peer's last TRAIN message (R588) -/
  peer   : Option TrainMsg
  deriving DecidableEq, Repr

/-- The Wyile control channel (R601). -/
structure WylControl where
  /-- CSEQ of the next message to send, and the highest accepted in order -/
  nextSeq : Nat
  accepted : Option Nat
  /-- messages sent and not acknowledged, oldest first -/
  unacked : List (Nat × List Byte)
  /-- CTL_IRQ_STATUS bits of which the master has been told (R635) -/
  told : Word
  deriving DecidableEq, Repr

/-- A pending BARRIER (R343 to R346). -/
structure Barrier where
  hdr  : CmdHdr
  tb   : Nat
  at_  : Nat
  v    : Nat
  id   : Nat
  deriving DecidableEq, Repr

/-- Wyile links of both dies. -/
structure Wyile where
  links : AMap WylLink
  /-- lane x of link n at 8 × n + x -/
  lanes : AMap WylLane
  ctl   : WylControl
  deriving DecidableEq, Repr

/-! ### Crown, Brim, settings, power, pins (R647 to R672, R720 to R734) -/

/-- Boot states (R649). -/
inductive Boot where
  | fill | crown | memory | brim | ready | failMem | failFw
  deriving DecidableEq, Repr

/-- A bank of settings memory (R659): its SEQ and records, by kind; none when the bank is not valid. -/
structure Bank where
  seq  : Nat
  recs : AMap (List Byte)
  deriving DecidableEq, Repr

/-- A Brim core (R654, R655). -/
structure BrimCore where
  /-- time of its last mailbox report -/
  reported : Nat
  /-- times of its restarts, newest first -/
  restarts : List Nat
  /-- its image in flash no longer has the digest verified at boot (R730) -/
  stale    : Bool
  deriving DecidableEq, Repr

/-- The JTAG TAP (R728). -/
structure Tap where
  ir       : BitVec 8
  /-- boundary-scan register, package signal balls in scan order -/
  boundary : List Bool
  /-- outputs that EXTEST, CLAMP, EXTEST_PULSE or EXTEST_TRAIN drives from the boundary register -/
  driven   : Option (List Bool)
  /-- outputs in high impedance -/
  highz    : Bool
  deriving DecidableEq, Repr

/-- Pins of the package that no other structure holds (R720 to R734). -/
structure Pins where
  /-- RESET_N is low -/
  resetLow : Bool
  thermtrip : Bool
  /-- FLASH_REQ_N and FLASH_GNT_N are low -/
  flashReq : Bool
  flashGnt : Bool
  deriving DecidableEq, Repr

/-- Firmware domains, settings, debug, power. -/
structure Sys where
  boot   : Boot
  /-- settings banks: 2 × die + bank -/
  banks  : AMap Bank
  /-- committed records, by die and kind: 8 × die + kind; the SECURITY body in force since boot at 22 (R660) -/
  settings : AMap (List Byte)
  seq    : Nat
  /-- the board's firmware flash (R729) -/
  flash  : Mem
  /-- Brim image digest verified at boot, by die -/
  brimDigest : AMap (List Byte)
  cores  : AMap BrimCore
  /-- last Crown divergence of each die -/
  diverged : AMap Nat
  /-- the die's Crown stays stopped until cold reset (R656) -/
  crownDead : AMap Bool
  /-- current debug nonce, and the block after a failed response (R657) -/
  nonce  : Option (List Byte)
  blocked : Bool
  tap    : Tap
  pins   : Pins
  /-- PCIe links A and B are up; two x8 links (R660, kind 7) -/
  linkA  : Bool
  linkB  : Bool
  twoX8  : Bool
  /-- a wake is under way: regions, and the package -/
  waking : BitVec 16
  wakingPkg : Bool
  deriving DecidableEq, Repr



/-! ### Why a step can stop -/

/-- Faults. `outsideSpace`: raised by a BAR0 or BAR2 access at an offset outside its BAR (R697), an address
that does not exist; safe, since no such access can be made. -/
inductive Fault where
  | outsideSpace
  deriving DecidableEq, Repr

/-- Refusals. `notModelled`: raised by an arm of `exec` whose command has no meaning yet; safe, since it
claims nothing of the command. -/
inductive Refusal where
  | notModelled (mnemonic : String)
  deriving DecidableEq, Repr

/-! ### The whole state -/

/-- How a read of BAR0 or BAR2 ends under PCIe: with data, with Unsupported Request, or with poisoned data. -/
inductive ReadEnd where
  | ok | unsupported | poisoned
  deriving DecidableEq, Repr

/-- What the present cycle has done to a register (R12, R702). -/
structure RegCycle where
  /-- its value before the cycle -/
  before : Word
  /-- `before` with the writes of the cycle alone -/
  base   : Word
  /-- what the happenings of the cycle alone leave in it -/
  fresh  : Word
  /-- place in the order of R12 of the happening that `fresh` records, and the registers that record it beside this one -/
  order  : Option Nat
  along  : List (Nat × Nat)
  /-- rank of the last agent that wrote it, plus one; 0 for none -/
  agent  : Nat
  deriving DecidableEq, Repr

/-- The state of the part and the commands that wait. -/
structure State where
  /-- commands that wait, first in, first out -/
  pending : List Instr
  hw      : PartId
  /-- lattice cycles since cold reset; the model's own clock for waits that the schedule count does not show -/
  now     : Nat
  /-- registers that no other field holds, by BAR0 offset; an unlisted one has its reset value -/
  regs    : AMap Word
  /-- registers that hardware has set or an agent has written in the present cycle; the model's own field -/
  cyc     : AMap RegCycle
  /-- value returned by the last register, aperture or BAR2 read -/
  readData : Word
  /-- bytes returned by the last BAR2, SMBus, JTAG or BUF_READ access -/
  readBytes : List Byte
  /-- how the last such read ended (R471, R706, R709) -/
  readEnd : ReadEnd
  /-- draws made so far from the free values of Config; the model's own field -/
  free    : Nat
  ports   : AMap PortState
  ops     : List Op
  parts   : AMap Partition
  lat     : Lattice
  seq     : Sequencer
  gau     : Gauntlet
  chains  : AMap Chain
  mit     : Mitten
  flt     : Integrity
  cnt     : Counters
  tim     : TimeUnit
  deep    : AMap Deep
  cap     : Capture
  lan     : Lanes
  wyl     : Wyile
  sys     : Sys
  barrier : Option Barrier
  deriving DecidableEq, Repr


/-- The machine right after reset (R14, R470, R648): nothing filled, nothing trained, every register at its
reset value. DESIGN CHOICE: log entry 26. DESIGN CHOICE: log entry 42. DESIGN CHOICE: log entry 43. DESIGN CHOICE: log entry 44. -/
def State.reset : State where
  pending := []
  hw := ⟨.kh16, .a1, 0, 0, 0⟩
  now := 0
  regs := []
  cyc := []
  readData := 0
  readBytes := []
  readEnd := .ok
  free := 0
  ports := []
  ops := []
  parts := []
  lat := { units := [], clusters := [], sram := [], sramBad := [], sideCol := [], wrRows := [], rescale := [], inq := [], inqLidx := [],
           fabIn := [], inbox := [], xIn := [], xOut := [], bridge := [], sched := [], memSlots := [], memServed := [],
           deficits := [], shadow := [], used := [], waits := [], banks := [], rowWrites := [], admQ := [], sync := [] }
  seq := ⟨0, 0, [], 1, 1, 0, 0, [], []⟩
  gau := ⟨[], [], []⟩
  chains := []
  mit := ⟨[], [], [], [], [], [], []⟩
  flt := ⟨[], [], [], [], [], [], [], [], [], [], [], [], [], [], []⟩
  cnt := ⟨[], [], [], []⟩
  tim := ⟨[], [], 0, 0, none, 0, [], false, false⟩
  deep := []
  cap := ⟨[], [], [], [], [], 0, [], []⟩
  lan := ⟨[], [], [], [], []⟩
  wyl := ⟨[], [], ⟨0, none, [], 0⟩⟩
  sys := { boot := .fill, banks := [], settings := [], seq := 0, flash := [], brimDigest := [], cores := [],
           diverged := [], crownDead := [], nonce := none, blocked := false,
           tap := ⟨0x02, [], none, false⟩, pins := ⟨true, false, false, false⟩, linkA := false, linkB := false,
           twoX8 := false, waking := 0, wakingPkg := false }
  barrier := none

end Sys2Proof.Machine
end

