-- ==== Sys2Proof/WellFormed.lean ====
section
/-! DEFINITION. Well-formed commands: every operand lies in the range that the spec gives the thing it names. A command
outside these ranges names nothing: a host command then meets the checks of R618, and any other has no effect. -/

namespace Sys2Proof

/-- The header of a Gliniril command: its fields have the widths of R617. -/
def CmdHdr.wf (h : CmdHdr) : Bool := decide (h.hostLen < 2 ^ 32) && decide (h.hostAddr < 2 ^ 64)

/-- The header of a Gliniril command. -/
def Instr.header : Instr → Option CmdHdr
  | .identify h | .query h _ _ | .bind h _ _ _ _ | .unbind h _ _ | .stageImage h _ _ _ _ _ | .load h _ _ _ _ _
  | .startAt h _ _ _ _ | .pause h _ | .saveState h _ _ | .restoreState h _ _ | .resume h _ _ | .setModeAtScaleSet h _ _ _ _
  | .setModeAtTrigger h _ _ _ _ | .setModeAtSeeds h _ _ _ _ _ | .setModeAtCancel h _ | .arm h _ _ | .disarm h _ _
  | .forceTrigger h _ | .scrub h _ _ _ _ _ _ | .storeSettings h _ | .readSettings h _ | .eyeScan h _ _
  | .laneCtlSetMode h _ _ _ _ | .laneCtlUp h _ _ _ _ | .laneCtlDown h _ _ _ _ | .laneCtlSlip h _ _ _ _
  | .laneCtlTest h _ _ _ _ | .laneCtlInject h _ _ _ _ | .laneCtlSetEq h _ _ _ _ | .laneCtlSetMap h _ _ _ _
  | .laneCtlSetClass h _ _ _ _ | .laneCtlSetOut h _ _ _ _ | .laneCtlSetJesd h _ _ _ _ | .setWakeTol h _ _
  | .counterRead h _ _ _ | .auditFetch h _ _ _ _ | .mittenPair h _ _ _ _ | .mittenPairDissolve h | .barrier h _ _ _ _
  | .bufWrite h _ | .bufRead h => some h
  | _ => none

/-- Ranges of deep-path parameters (R622). -/
def DeepParams.wf (p : DeepParams) : Bool :=
  [p.pmax, p.rqSlot, p.rqDepth, p.rrSlot, p.rrDepth].all (fun x => decide (x < 2 ^ 16)) && decide (p.rqBase < 2 ^ 32)
    && decide (p.rrBase < 2 ^ 32)

/-- Ranges of a time value (R550). -/
def TimeVal.wf (t : TimeVal) : Bool := decide (t.sec < 2 ^ 48) && decide (t.ns < 2 ^ 32) && decide (t.frac < 2 ^ 16)

/-- Ranges of an eye grid: one byte each (R622). -/
def EyeGrid.wf (g : EyeGrid) : Bool :=
  [g.eye, g.phMin, g.phMax, g.phStep, g.ofMin, g.ofMax, g.ofStep, g.dwell].all (fun x => decide (x < 256))

/-- The operands that are neither a header nor data of the outside world lie in their ranges: dies 0 and 1, partitions 0 to 15
of one byte as sent, regions 0 to 15, clusters 0 to 63, endpoints below 512, time bases 0 to 3, local links 0 to 15, PCIe
links 0 and 1, lanes 0 to 159, ports PSEL 0 to 95, streams 0 to 16,383, groups 0 to 63, and so on. -/
def Instr.ranges : Instr → Bool
  | .query _ sel part => decide (sel < 256) && decide (part < 256)
  | .bind _ part _ base size => decide (part < 256) && decide (base < 2 ^ 16) && decide (size < 2 ^ 16)
  | .unbind _ part _ => decide (part < 256)
  | .stageImage _ part k dst len off => decide (part < 256) && decide (k < 256) && decide (dst < 2 ^ 64) && decide (len < 2 ^ 64)
      && decide (off < 2 ^ 64)
  | .load _ part _ _ _ img => decide (part < 256) && decide (img < 2 ^ 64)
  | .startAt _ part _ t deep => decide (part < 256) && decide (t < 2 ^ 64) && deep.wf
  | .pause _ part | .setModeAtCancel _ part => decide (part < 256)
  | .saveState _ part base | .restoreState _ part base => decide (part < 256) && decide (base < 2 ^ 16)
  | .resume _ part t => decide (part < 256) && decide (t < 2 ^ 64)
  | .setModeAtScaleSet _ part st n v | .setModeAtTrigger _ part st n v =>
      decide (part < 256) && decide (st < 2 ^ 16) && decide (n < 2 ^ 48) && decide (v < 2 ^ 64)
  | .setModeAtSeeds _ part st n m ss =>
      decide (part < 256) && decide (st < 2 ^ 16) && decide (n < 2 ^ 48) && decide (m < 2 ^ 16) && decide (ss.length ≤ 4)
        && ss.all (fun x => decide (x < 2 ^ 64))
  | .arm _ part g | .disarm _ part g => decide (part < 256) && decide (g < 256)
  | .forceTrigger _ c => decide (c < 256)
  | .scrub _ sp _ ks rs b n => decide (sp < 256) && decide (ks < 256) && decide (rs < 2 ^ 16) && decide (b < 2 ^ 64) && decide (n < 2 ^ 64)
  | .storeSettings _ m | .readSettings _ m => decide (m < 2 ^ 32)
  | .eyeScan _ l g => decide (l < 2 ^ 16) && g.wf
  | .laneCtlSetMode _ k t x a | .laneCtlUp _ k t x a | .laneCtlDown _ k t x a | .laneCtlSlip _ k t x a | .laneCtlTest _ k t x a
  | .laneCtlInject _ k t x a | .laneCtlSetEq _ k t x a | .laneCtlSetMap _ k t x a | .laneCtlSetClass _ k t x a
  | .laneCtlSetOut _ k t x a | .laneCtlSetJesd _ k t x a =>
      decide (k < 256) && decide (t < 2 ^ 16) && decide (x < 256) && decide (a.length = 40)
  | .setWakeTol _ part tol => decide (part < 256) && decide (tol < 2 ^ 32)
  | .counterRead _ d m bm => decide (d < 256) && decide (m < 2 ^ 64) && decide (bm < 2 ^ 32)
  | .auditFetch _ part _ _ b => decide (part < 256) && decide (b < 2 ^ 64)
  | .mittenPair _ _ link peer ps => decide (link < 256) && decide (peer < 2 ^ 16) && decide (ps.length ≤ 17)
      && ps.all (fun p => decide (p.1 < 256) && decide (p.2 < 256))
  | .barrier _ tb t v id => decide (tb < 256) && t.wf && decide (v < 2 ^ 64) && decide (id < 2 ^ 32)
  | .identify _ | .mittenPairDissolve _ | .bufWrite _ _ | .bufRead _ | .longOpStep _ _ _ => true
  | .ctlSqTailWrite l v | .ctlCqHeadWrite l v => decide (l < 2) && decide (v < 2 ^ 32)
  | .descriptorFetch l d => decide (l < 2) && decide (d.length = 64)
  | .portReset l _ | .pcieLinkUp l => decide (l < 2)
  | .smbusBlockWrite b _ => decide (b.length ≤ 255)
  | .glinSubmit b => decide (b.length = 64)
  | .smbusBlockRead | .glinComplete | .glinChallenge | .glinResponse _ | .glinLock | .extest _ | .samplePreload _ | .idcode
  | .clamp | .highz | .extestPulse _ | .extestTrain _ | .bypass | .timPpsTauLoRead | .ppsCalStart | .timSnap | .g1LoadNow
  | .g1LoadAtPps | .g1Load | .barrierRelease | .ppsOutPulse | .ppsOutPulseEnd | .ref10mOutEdge | .mittenRecordSend
  | .mittenWaitExpiry | .debugBlockExpiry | .coldReset | .sramFillDone | .memFillDone | .bootReady | .flashRequest
  | .flashRelease _ | .ref10mInLoss | .trstN => true
  | .registerWrite _ a _ _ | .rcRead _ a _ => decide (a < 2 ^ 28)
  | .seqCycleLoRead d | .nvsSeqLoRead d | .clrTrip d | .clrOver d | .cntSnap d | .cntSmpPop d | .fltLogPop d | .elasticStep d _
  | .repair d | .scrubPass d | .crownLockstep d _ | .crownRestartDone d => decide (d < 2)
  | .gauLyrLoRead d l k => decide (d < 2) && decide (l < 64) && decide (k < 3)
  | .seqPartBndLoRead p | .chkAudBatchLoRead p => decide (p < 16)
  | .capStrmSeqLoRead d st | .capStrmSeqLoWrite d st _ | .eventAssembly d st | .entrySlot d st => decide (d < 2) && decide (st < 16384)
  | .memErrAddrLoRead d k => decide (d < 2) && decide (k < 2)
  | .lanPrbsLoRead l _ _ | .checkerLock l | .laneStageAdvance l _ _ | .slipTestDone l _ => decide (l < 160)
  | .timSrvOffLoRead t | .tbSet t | .tbStep t | .tbSetOnPps t | .manadjWrite t _ | .timeBaseUpdate t | .holdover t => decide (t < 4)
  | .cntValLoRead d n | .cntValLoWrite d n _ => decide (d < 2) && decide (n < 96)
  | .chkResLoRead d u | .chkStart d u | .chkDataWrite d u _ | .chkFinish d u => decide (d < 2) && decide (u < 4)
  | .cntUpSnap l d p => decide (l < 2) && decide (d < 2) && decide (p < 16)
  | .tdcCalStart d n => decide (d < 2) && decide (n < 4)
  | .apertureRead l a => decide (l < 2) && decide (a < 2 ^ 28)
  | .bar2Access l o w n =>
      decide (l < 2) && decide (o + (match w with | some bs => bs.length | none => n) ≤ 2 ^ 36)
  | .firing u | .foldSwitch u | .standbyFillDone u | .pipelineComplete u | .treeEvaluation u => decide (u < 2 ^ 15)
  | .burstTokenPlace u p => decide (u < 2 ^ 15) && decide (p < 2)
  | .switchSlot r c _ => decide (r < 16) && decide (c < 64)
  | .fabricSlot d r src => decide (d < 2) && decide (r < 8) && decide (src < 512)
  | .crossingRelease d e _ | .latticeOccurrence d e => decide (d < 2) && decide (e < 512)
  | .bridgeRelease d c _ => decide (d < 2) && decide (c < 32)
  | .memoryReadRelease d k l | .memoryWriteSlot d k l => decide (d < 2) && decide (k < 2) && decide (l < 32)
  | .rescaleStage r c | .scaleWaitTimeout r c => decide (r < 16) && decide (c < 64)
  | .gauntletRun d l | .mergeRelease d l => decide (d < 2) && decide (l < 64)
  | .gauntletRunEnd d e => decide (d < 2) && decide (e < 4)
  | .scheduleHang d p => decide (d < 2) && decide (p < 16)
  | .rawFrameReceive p l _ _ _ _ => decide (p < 96) && decide (l < 160)
  | .jesdMultiblockReceive d j _ _ => decide (d < 2) && decide (j < 8)
  | .ethFrameReceive p _ _ _ | .ptpSync p _ _ _ | .ptpFollowUp p _ | .ptpDelayResp p _ | .tcPtpMessage p _ _ _
  | .tcFrameSend p _ _ => decide (p < 96)
  | .admissionOpen p | .passStart p | .sectionComplete p | .swapComplete p | .prefetchComplete p | .modeChangeArm p
  | .modeChangeDone p | .pauseDrained p | .batchClose p => decide (p < 16)
  | .pinEdge n _ _ tap => decide (n < 8) && decide (tap < 256)
  | .trigOutPulse n | .trigOutPulseEnd n => decide (n < 8)
  | .coincWindowClose t => decide (t < 64)
  | .triggerPointAssign g | .recordSeal g | .recordDelivery g | .streamCopy g => decide (g < 64)
  | .tdcCalDone n h => decide (n < 9) && decide (h.length = 256)
  | .ppsInEdge _ _ tap | .ref10mInEdge _ tap _ => decide (tap < 256)
  | .timeReqSend d i _ _ | .timeReq d i _ _ _ _ | .timeRsp d i _ _ | .train d i _ | .wyileTrainingDone d i _ | .trainingRetry d i
  | .trigger d i | .control d i | .controlResend d i | .mitten d i => decide (d < 2) && decide (i < 16)
  | .wyileFrameSend d i x | .wyileFrameReceive d i x _ _ | .nakRetry d i x => decide (d < 2) && decide (i < 16) && decide (x < 8)
  | .bucketLeak d k => decide (d < 2) && decide (k < 5)
  | .zeroFillDone b => decide (b < 768)
  | .thermalSample d ts => decide (d < 2) && decide (ts.length = 12)
  | .thermtrip d n => decide (d < 2) && decide (n < 12)
  | .mailboxReport d c | .brimWatchdog d c | .brimAccessViolation d c | .brimRestartDone d c _ | .brimHoldExpiry d c
  | .brimDebugHalt d c | .brimDebugResume d c => decide (d < 2) && decide (c < 4)
  | .stackTrainingDone t => decide (t.length = 4)
  | .regionPowerEntry r l => decide (r < 16) && decide (l < 3)
  | .packagePowerEntry l => decide (l = 3 ∨ l = 4)
  | .wakeComplete r => (match r with | some r => decide (r < 16) | none => true)
  | .laneDrop l k => decide (l < 160) && decide (k < 8)
  | .sysrefEdge d _ => decide (d < 2)
  | .laserLoss e _ | .laserRecovery e _ => decide (e < 16)
  | .counterWrap d k core _ _ _ => decide (d < 2) && decide (k < (if core then 32 else 64))
  | .digestExchange p _ _ => decide (p < 16)
  | .ptpDelayReq t _ _ => decide (t < 4)

/-- A well-formed command. DESIGN CHOICE: log entry 4. -/
def Instr.wf (i : Instr) : Bool := (match i.header with | some h => h.wf | none => true) && i.ranges

end Sys2Proof
end

