-- ==== Sys2Proof/Machine/Ops.lean ====
section
/-! DEFINITION. The named operations over registers, memories and the tables of State that every meaning uses:
first records and counters (R11, R12), performance counters (R674 to R683), the fault log (R496), interrupts (R640),
completions (R619, R637), audit entries (R353 to R361), event instances (R213, R229). -/

namespace Sys2Proof.Machine

/-! ### Operands that name nothing -/

/-- The effect `t` of the command `c`, which has none where an operand of it names nothing (DESIGN CHOICE: the spec gives
such an occurrence no meaning). DESIGN CHOICE: log entry 2. DESIGN CHOICE: log entry 4. -/
def State.only (s : State) (c : Instr) (t : State) : State := if c.ranges then t else s

/-! ### Registers -/

/-- Stored value of the register at BAR0 offset `a`. -/
def State.reg (s : State) (a : Nat) : Word := mapGetD s.regs a (regReset a)

/-- Store a register's value; one equal to the reset value leaves the list. -/
def State.setReg (s : State) (a : Nat) (v : Word) : State := { s with regs := mapPut s.regs a v (regReset a) }

/-- Bits `[hi:lo]` of a register. -/
def State.field (s : State) (a hi lo : Nat) : Nat := getBits (s.reg a) hi lo

/-- Bit `i` of a register. -/
def State.flag (s : State) (a i : Nat) : Bool := (s.reg a).toNat.testBit i

/-- Set bits `[hi:lo]` of a register. -/
def State.setField (s : State) (a hi lo v : Nat) : State := s.setReg a (setBits (s.reg a) hi lo v)

/-! ### What a cycle does to a register (R12) -/

/-- What the present cycle has done to the register at `a` so far. -/
def State.regCycle (s : State) (a : Nat) : RegCycle := mapGetD s.cyc a ⟨s.reg a, s.reg a, 0, none, [], 0⟩
/-- Note it. -/
def State.putCycle (s : State) (a : Nat) (e : RegCycle) : State := { s with cyc := mapSet s.cyc a e }

/-- Hardware changes a register by `f`; what this cycle's changes alone would leave is kept, so that none is lost to a
clear in the same cycle (R12). -/
def State.happen (s : State) (a : Nat) (f : Word → Word) : State :=
  let e := s.regCycle a
  (s.setReg a (f (s.reg a))).putCycle a { e with fresh := f e.fresh }

/-- Set or clear bit `i` of a register by hardware. -/
def State.setFlag (s : State) (a i : Nat) (b : Bool) : State := s.happen a (fun w => setBits w i i (bitOf b))

/-- A counting field `[hi:lo]` raised by `n`, saturating. -/
def addBits (hi lo n : Nat) (w : Word) : Word := setBits w hi lo (min (2 ^ (hi + 1 - lo) - 1) (getBits w hi lo + n))

/-- Add to a counting field `[hi:lo]`, saturating. -/
def State.addField (s : State) (a hi lo n : Nat) : State := s.happen a (addBits hi lo n)

/-- Add to a 32-bit RC counter, saturating (R502). -/
def State.addReg (s : State) (a n : Nat) : State := s.addField a 31 0 n

/-- Keep the largest value seen in a field. -/
def State.maxField (s : State) (a hi lo v : Nat) : State :=
  s.happen a (fun w => setBits w hi lo (max (getBits w hi lo) v))

/-- Place of a happening among those of one cycle (R12): physical unit address, stream, event sequence number. -/
def firstOrder (u st sq : Nat) : Nat := u * 2 ^ 64 + st * 2 ^ 48 + sq

/-- Set a register that a first record holds beside its own; from 2^28 up, the address of a memory controller's first
error. -/
def State.setAlong (s : State) (e : Nat × Nat) : State :=
  if e.1 < 2 ^ 28 then s.setReg e.1 (BitVec.ofNat 32 e.2)
  else { s with flt := { s.flt with errAddr := mapSet s.flt.errAddr (e.1 - 2 ^ 28) e.2 } }

/-- A first record takes its place: the register, and those beside it. -/
def State.putRecord (s : State) (a : Nat) (w : Word) (along : List (Nat × Nat)) : State :=
  along.foldl State.setAlong (s.setReg a w)

/-- A happening at place `o` that the first-record register `a` records as `v`, beside it in `along` (R12): the first after
VALID, bit 31, was cleared, and of those of one cycle the first in order. -/
def State.firstRecord (s : State) (a v o : Nat) (along : List (Nat × Nat)) : State :=
  let e := s.regCycle a
  if (match e.order with | some p => decide (p ≤ o) | none => false) then s
  else
    let w := BitVec.ofNat 32 (v % 2 ^ 31 + 2 ^ 31)
    let s := s.putCycle a { e with fresh := w, order := some o, along := along }
    if e.base.toNat.testBit 31 then s else s.putRecord a w along

/-- The state as a read of the register at `a` meets it: the register with its value before this cycle (R12, R702). -/
def State.readState (s : State) (a : Nat) : State :=
  match mapGet s.cyc a with
  | some e => s.setReg a e.before
  | none => s

/-- Leave in the register at `a` what this cycle's happenings alone make of the bits `m` (R12). -/
def State.clearBits (s : State) (a : Nat) (m : Word) : State :=
  let e := s.regCycle a
  (s.setReg a ((s.reg a &&& ~~~m) ||| (e.fresh &&& m))).putCycle a e

/-- Blocks whose registers stay readable in FAIL_MEM and FAIL_FW (R650). DEDUCED: log entry 53. -/
def failReads (o : Nat) : Bool := decide ((0x30000 ≤ o ∧ o < 0x50000) ∨ (0x100000 ≤ o ∧ o < 0x200000))
/-- The part has failed its boot, and a read of the register answers 0 (R650). DEDUCED: log entry 53. -/
def State.silent (s : State) (a : Nat) : Bool :=
  decide (s.sys.boot = .failMem ∨ s.sys.boot = .failFw) && !failReads (addrOff a)
/-- A read answers `w`. -/
def State.readOut (s : State) (w : Nat) : State := { s with readData := BitVec.ofNat 32 w, readEnd := .ok }
/-- A read of a LO register at `a` answers `v`, and the HI register at `hi` latches `h`. -/
def State.latchRead (s : State) (a hi v h : Nat) : State :=
  if s.silent a then s.readOut 0 else (s.setReg hi (BitVec.ofNat 32 h)).readOut v

/-! ### Absent entries of the maps -/

/-- A unit with nothing in it: off, context 0, no firings done (R170, R173). -/
def unit0 : UnitState :=
  { q0 := [], q1 := [], q2 := [], q3 := [], out0 := [], out1 := [], burst0 := [], burst1 := [], pipe := [],
    due := [], actx := 0, fdone := 0, lastFire := none, switching := false, standbyOk := false,
    fillDone := none, decodedBad := false, acc := [], arrivals := [], accTok := 0, accTaint := 0, accBlk := 0,
    elems0 := 0, elems1 := 0, decision := none, phase := 0, setA := [], setB := [], loopCount := 0, featBuf := 0, featCount := 0,
    waiting := [], evalStart := none, evalHold := none, rdCount := 0, draws := [] }

/-- A cluster with nothing in it. -/
def cluster0 : ClusterState :=
  { sideN := [], sideE := [], sideS := [], sideW := [], scaleQ := [], latched := none, stage := [],
    blkCount := 0, waitSince := none, skews := [], curBlk := none, latCount := 0 }

/-- A control port after reset. PHASE of the first pass of the completion ring is 1 (R637). -/
def port0 : PortState :=
  { ready := [], queued := false, takenAt := none, held := [], unread := [], buffer := [], host := [], phase := true, irqs := [], msix := [] }

/-- A partition number that holds no region (R293). -/
def part0 : Partition :=
  { regions := 0, owner := none, state := .none, epoch := 0, saved := false, saveCount := 0,
    hung := false, relaxed := false, allocBase := 0, allocSize := 0, staged := [], image := none, gen := 0, seeds := [], change := none,
    filling := false, half := 0, sets := [], opensAt := none }

/-- The unit at physical unit address `u`. -/
def State.unit (s : State) (u : Nat) : UnitState := mapGetD s.lat.units u unit0
/-- Replace a unit. -/
def State.putUnit (s : State) (u : Nat) (x : UnitState) : State :=
  { s with lat := { s.lat with units := mapPut s.lat.units u x unit0 } }
/-- The cluster of key 64 × region + cluster. -/
def State.cluster (s : State) (k : Nat) : ClusterState := mapGetD s.lat.clusters k cluster0
/-- Replace a cluster. -/
def State.putCluster (s : State) (k : Nat) (x : ClusterState) : State :=
  { s with lat := { s.lat with clusters := mapPut s.lat.clusters k x cluster0 } }
/-- A control port. -/
def State.port (s : State) (p : Port) : PortState := mapGetD s.ports (portCode p) port0
/-- Replace a control port. -/
def State.putPort (s : State) (p : Port) (x : PortState) : State :=
  { s with ports := mapPut s.ports (portCode p) x port0 }
/-- Partition `p`. -/
def State.part (s : State) (p : Nat) : Partition := mapGetD s.parts p part0
/-- Replace partition `p`. -/
def State.putPart (s : State) (p : Nat) (x : Partition) : State :=
  { s with parts := mapPut s.parts p x part0 }

/-- The schedule cycle count of a die (R211). -/
def State.cycle (s : State) (d : Nat) : Nat := if d = 0 then s.seq.count0 else s.seq.count1

/-- Number for the next token made, and the state with it used up. -/
def State.nextTok (s : State) : Nat × State := (s.seq.nextTok, { s with seq := { s.seq with nextTok := s.seq.nextTok + 1 } })

/-- Draw number for the next free value, and the state with it used up. DESIGN CHOICE: log entry 26. -/
def State.nextFree (s : State) : Nat × State := (s.free, { s with free := s.free + 1 })

/-- A time base after cold reset. DESIGN CHOICE: log entry 44. -/
def tb0 : TimeBase := ⟨0, 0, [], none, 0, 0, none, none, 0, none, 0⟩
/-- Time base `t`. -/
def State.tb (s : State) (t : Nat) : TimeBase := mapGetD s.tim.bases t tb0
/-- Replace time base `t`. -/
def State.putTb (s : State) (t : Nat) (x : TimeBase) : State :=
  { s with tim := { s.tim with bases := mapPut s.tim.bases t x tb0 } }

/-- The value of a count in units of 2^-48 ns (R551). -/
def timeOf (t : Nat) : TimeVal :=
  let ns := t / 2 ^ 48
  ⟨ns / 1000000000 % 2 ^ 48, ns % 1000000000, t / 2 ^ 32 % 2 ^ 16⟩

/-- The 12 bytes of a time value: seconds, nanoseconds, fraction, each little-endian (R355, R457). -/
def timeBytes (v : TimeVal) : List Byte := leBytes 6 v.sec ++ leBytes 4 v.ns ++ leBytes 2 v.frac

/-! ### Dies and regions (R18, R33) -/

/-- Region `r` is fused (R3). -/
def State.isFused (s : State) (r : Nat) : Bool := s.hw.fused.toNat.testBit r
/-- The partition that holds region `r`, if any (R31). -/
def State.regionPart (s : State) (r : Nat) : Option Nat :=
  (List.range 16).find? (fun p => (s.part p).regions.toNat.testBit r)
/-- Physical regions of a partition. -/
def partRegions (p : Partition) : List Nat := maskList 16 p.regions.toNat
/-- The partition holds a region of die `d`. -/
def partOnDie (p : Partition) (d : Nat) : Bool := (partRegions p).any (fun r => decide (r / 8 = d))

/-! ### Performance counters (R674 to R683) -/

/-- What an occurrence belongs to: region, partition, unit address, stream and sequence number. -/
structure Occ where
  region : Option Nat
  part   : Option Nat
  unit   : Nat
  event  : Option (Nat × Nat)
  deriving DecidableEq, Repr

/-- An occurrence of nothing in particular. -/
def occ0 : Occ := ⟨none, none, 0x7FFF, none⟩

/-- The CNT_CFG word of die counter `k`. -/
def cntCfg (d k : Nat) : Nat := aCnt d (0x1000 + 0x10 * k)

/-- The four words of a sample entry (R684, R694). -/
def sampleEntry (k : Nat) (o : Occ) (cyc : Nat) : FaultEntry :=
  let (v, st, sq) := match o.event with | some (a, b) => (1, a, b) | none => (0, 0, 0)
  ⟨BitVec.ofNat 32 (2 ^ 31 + v * 2 ^ 30 + k * 2 ^ 24 + o.unit), BitVec.ofNat 32 sq,
   BitVec.ofNat 32 (st * 2 ^ 16 + sq / 2 ^ 32), BitVec.ofNat 32 cyc⟩

/-- Put a sample in the die's FIFO of 64, or count it lost (R684). -/
def State.pushSample (s : State) (d : Nat) (e : FaultEntry) : State :=
  let q := mapGetD s.cnt.samples d []
  if 64 ≤ q.length then s.addReg (aCnt d 0x24) 1
  else { s with cnt := { s.cnt with samples := mapPut s.cnt.samples d (q ++ [e]) [] } }

/-- Add `n` occurrences to die counter `k`, with wrap, sample and chain (R677, R682, R683).
`fuel` bounds the chain. -/
def State.addCount (s : State) (d : Nat) (o : Occ) : Nat → Nat → Nat → State
  | 0, _, _ => s
  | fuel + 1, k, n =>
    let key := 256 * d + k
    let c := (mapGetD s.cnt.val key 0).toNat
    let cfg := cntCfg d k
    if c + n < 2 ^ 48 then
      { s with cnt := { s.cnt with val := mapPut s.cnt.val key (BitVec.ofNat 48 (c + n)) 0 } }
    else
      let smp := s.flag cfg 29
      let p := let p := s.field (aCnt d (0x100C + 0x10 * k)) 31 0; if p = 0 then 2 ^ 32 else p
      let v := if smp then min (2 ^ 48 - 1) (c + n - p) else (c + n) % 2 ^ 48
      let s := { s with cnt := { s.cnt with val := mapPut s.cnt.val key (BitVec.ofNat 48 v) 0 } }
      let s := s.setFlag (aCnt d (0x10 + 4 * (k / 32))) (k % 32) true
      let s := if smp then s.pushSample d (sampleEntry k o (s.cycle d)) else s
      let nx := cntCfg d (k + 1)
      if k + 1 < 64 ∧ s.flag nx 31 ∧ s.flag nx 30 then State.addCount s d o fuel (k + 1) 1 else s

/-- Whether an enabled counter takes an occurrence (R674, R677). -/
def State.counts (s : State) (d k ev : Nat) (o : Occ) : Bool :=
  let c := (s.reg (cntCfg d k)).toNat
  c.testBit 31 && !(c.testBit 30 && decide (0 < k)) && decide (c % 256 = ev) && decide (ev ≠ 0)
    && (match o.region with | some r => c.testBit (16 + r % 8) | none => true)
    && (if c.testBit 28 then decide (o.part = some (bitsOf c 27 24)) else true)

/-- Count `n` occurrences of event `ev` on die `d` (R674, R675). DEDUCED: log entry 56. -/
def State.count (s : State) (d ev n : Nat) (o : Occ) : State :=
  if s.flag (aCnt d 0) 1 ∨ n = 0 then s
  else (List.range 64).foldl (fun s k => if s.counts d k ev o then s.addCount d o 64 k (min n 65535) else s) s

/-- Best-effort traffic over bytes `b` to `b + n - 1` of stack `k`: one slot each 32-byte unit (R225). DEDUCED: log entry 56. -/
def State.bestEffort (s : State) (k b n : Nat) : State :=
  if s.flag (aCnt (k / 2) 0) 1 ∨ n = 0 then s
  else
    let u := (b + n - 1) / 32 - b / 32 + 1
    ((List.range (u / 65535)).foldl (fun (s : State) _ => s.count (k / 2) 0x62 65535 occ0) s).count (k / 2) 0x62 (u % 65535) occ0

/-- Traffic over a byte range of stack `k` that passes image lanes and best-effort slots. UNVERIFIED: log entry 104. -/
def State.someBestEffort (s : State) (k b n : Nat) : State :=
  if n = 0 then s
  else
    let (i, s) := s.nextFree
    s.bestEffort k b (Config.bestShare i % (n + 1))

/-- Performance counter event of a condition (R675). -/
def condEvent : Cond → Nat
  | .accSat => 0x30 | .redSat => 0x31 | .cvtSat => 0x32 | .histSat => 0x33 | .fpOvf => 0x34 | .fpNan => 0x35
  | .tblClamp => 0x36 | .rescaleClamp => 0x37 | .inClamp => 0x3A

/-! ### Interrupts (R639, R640) -/

/-- Signal an MSI-X vector on a PCIe port. DESIGN CHOICE: log entry 93. -/
def State.msi (s : State) (p : Port) (v : Nat) : State :=
  if portPcie p then s.putPort p { s.port p with irqs := v :: (s.port p).irqs } else s

/-- A package-level cause (bit of CTL_IRQ_STATUS) reaches every port whose mask enables it (R640). DESIGN CHOICE: log entry 93. -/
def State.irqCause (s : State) (bit : Nat) : State :=
  allPorts.foldl (fun s p =>
    let i := portCode p - 1
    let st := aCtl (0x108 + 0x20 * i)
    if s.flag (aCtl (0x10C + 0x20 * i)) bit ∧ ¬ s.flag st bit then (s.setFlag st bit true).msi p (bit + 1)
    else s) s

/-! ### The fault log (R496, R504) -/

/-- Actions of a fault. -/
inductive FAction where
  | report | taint | stop | device
  deriving DecidableEq, Repr

/-- ACTION code of W0. -/
def factCode : FAction → Nat
  | .report => 0 | .taint => 1 | .stop => 2 | .device => 3

/-- A fault to log. -/
structure FaultRec where
  code   : Nat
  action : FAction
  part   : Option Nat
  unit   : Nat
  full   : Bool
  detail : Nat
  stream : Nat
  seq    : Nat
  deriving DecidableEq, Repr

/-- The four log words of a fault. UNVERIFIED: log entry 33. -/
def faultWords (f : FaultRec) : FaultEntry :=
  let np := match f.part with | some p => p * 2 ^ 19 | none => 2 ^ 18
  ⟨BitVec.ofNat 32 (2 ^ 31 + f.code * 2 ^ 25 + factCode f.action * 2 ^ 23 + np + bitOf f.full * 2 ^ 17
      + f.unit % 2 ^ 15),
   BitVec.ofNat 32 f.detail, BitVec.ofNat 32 f.seq, BitVec.ofNat 32 (f.stream * 2 ^ 16 + f.seq / 2 ^ 32)⟩

/-- Report a fault to the fault manager of die `d`: log it or count it, and raise FAULT for STOP and DEVICE. -/
def State.fault (s : State) (d : Nat) (f : FaultRec) : State :=
  let q := mapGetD s.flt.logs d []
  let s := if 32 ≤ q.length then s.addReg (aFlt d 0x214) 1
    else { s with flt := { s.flt with logs := mapPut s.flt.logs d (q ++ [faultWords f]) [] } }
  if f.action = .stop ∨ f.action = .device then s.irqCause 0 else s

/-- Add `n` corrections to leaky bucket `k` of die `d` (R487, R488). DEDUCED: log entry 50. -/
def State.bucketAdd (s : State) (d k n : Nat) : State :=
  let s := s.addReg (aFlt d (0x108 + 0x10 * k)) n
  let s := s.addField (aFlt d (0x104 + 0x10 * k)) 15 0 n
  if s.field (aFlt d (0x100 + 0x10 * k)) 31 16 < s.field (aFlt d (0x104 + 0x10 * k)) 15 0
      ∧ ¬ s.flag (aFlt d 0) k then (s.setFlag (aFlt d 0) k true).irqCause 0
  else s

/-! ### Stacked memory (R707, R483 to R485) -/

/-- Bytes of one stack. -/
def stackBytes : Nat := 48 * 2 ^ 30

/-- Read bytes of stack `k` from byte `b`. DEDUCED: log entry 51. -/
def State.stackRead (s : State) (k b n : Nat) : List Byte := memRead s.flt.stack (stackBytes * k + b) n

/-- Write bytes of stack `k` from byte `b`; a unit written whole loses any standing error (R485). -/
def State.stackWrite (s : State) (k b : Nat) (bs : List Byte) : State :=
  let lo := (b + 31) / 32
  let hi := (b + bs.length) / 32
  { s with flt := { s.flt with
      stack := memWrite s.flt.stack (stackBytes * k + b) bs
      memBad := s.flt.memBad.filter (fun e => decide (e.1 < 2 ^ 31 * k + lo ∨ 2 ^ 31 * k + hi ≤ e.1)) } }

/-- Byte offset of a partition's allocation in each stack (R297). -/
def partBase (p : Partition) : Nat := p.allocBase * 2 ^ 26
/-- Byte length of a partition's allocation. -/
def partLen (p : Partition) : Nat := p.allocSize * 2 ^ 26

/-! ### Resources with one use a cycle (R148, R154, R215, R216) -/

/-- Number of a resource: 1 output port 2 × unit + port of a unit, which sends one token; 2 the same port, which takes one
burst token; 3 fabric channel 32 × region + channel; 4 fabric port 512 × die + endpoint as sender, 6 the same port as sender to the
other die; 7 merge point of a layer; 8 rescale stage of a cluster; 9 side input 4 × cluster key + side; 10 memory port
512 × die + endpoint as receiver of a read token. -/
def useKey (kind i : Nat) : Nat := 2 ^ 24 * kind + i
/-- The resource has had its use of this cycle. -/
def State.usedNow (s : State) (k : Nat) : Bool := decide (k ∈ s.lat.used)
/-- It has it now. -/
def State.use (s : State) (k : Nat) : State := { s with lat := { s.lat with used := k :: s.lat.used } }

/-! ### Completions (R619, R620, R637) -/

/-- The 16 bytes of a completion entry. PRESUMED: log entry 16. -/
def completionBytes (p : Port) (phase : Bool) (c : Completion) : List Byte :=
  leBytes 2 c.tag.toNat ++ [c.opcode, c.status, BitVec.ofNat 8 (bitOf phase), BitVec.ofNat 8 (portCode p)]
    ++ leBytes 2 c.detail.toNat ++ leBytes 8 c.result.toNat

/-- LOG2 of a ring as its SIZE register gives it (R645). -/
def ringLog2 (v : Nat) : Nat := max 4 (min 12 v)

/-- Entries of the submission ring of PCIe link `q`. -/
def State.sqSize (s : State) (q : Nat) : Nat := 2 ^ ringLog2 (s.field (aCtl (0x1008 + 0x100 * q)) 3 0)
/-- Entries of the completion ring. -/
def State.cqSize (s : State) (q : Nat) : Nat := 2 ^ ringLog2 (s.field (aCtl (0x1028 + 0x100 * q)) 3 0)
/-- Tail of the completion ring. -/
def State.cqTail (s : State) (q : Nat) : Nat := s.field (aCtl (0x102C + 0x100 * q)) 11 0
/-- Head of the completion ring. -/
def State.cqHead (s : State) (q : Nat) : Nat := s.field (aCtl (0x1030 + 0x100 * q)) 11 0
/-- The completion ring is full (R637). -/
def State.cqFull (s : State) (q : Nat) : Bool := decide ((s.cqTail q + 1) % s.cqSize q = s.cqHead q)

/-- Write one completion entry into the ring of a PCIe port. -/
def State.cqWrite (s : State) (p : Port) (c : Completion) : State :=
  let q := portLink p
  let base := s.field (aCtl (0x1020 + 0x100 * q)) 31 12 * 2 ^ 12 + s.field (aCtl (0x1024 + 0x100 * q)) 31 0 * 2 ^ 32
  let t := s.cqTail q
  let x := s.port p
  let nx := (t + 1) % s.cqSize q
  let x := { x with host := memWrite x.host (base + 16 * t) (completionBytes p x.phase c)
                    phase := if nx = 0 then !x.phase else x.phase }
  let s := (s.putPort p x).setField (aCtl (0x102C + 0x100 * q)) 11 0 nx
  if c.irq then s.msi p 0 else s

/-- Post a completion on a port: into the ring, held while it is full, or unread on a short-form port. -/
def State.post (s : State) (p : Port) (c : Completion) : State :=
  if portPcie p then
    if s.cqFull (portLink p) ∨ (s.port p).held ≠ [] then
      s.putPort p { s.port p with held := (s.port p).held ++ [c] }
    else s.cqWrite p c
  else
    let s := s.putPort p { s.port p with unread := (s.port p).unread ++ [c] }
    let i := portCode p - 1
    if s.flag (aCtl (0x10C + 0x20 * i)) 5 then s.setFlag (aCtl (0x108 + 0x20 * i)) 5 true else s

/-- Write a command's output to its host buffer: host memory, or the port buffer on a short-form port. -/
def State.hostWrite (s : State) (h : CmdHdr) (bs : List Byte) : State :=
  let x := s.port h.port
  if portPcie h.port then s.putPort h.port { x with host := memWrite x.host h.hostAddr bs }
  else s.putPort h.port { x with buffer := memWrite x.buffer h.hostAddr bs }

/-- A command's input: host memory as read, or the port buffer on a short-form port. DEDUCED: log entry 11. -/
def State.hostInput (s : State) (h : CmdHdr) : List Byte :=
  if portPcie h.port then h.input else memRead (s.port h.port).buffer h.hostAddr h.hostLen

/-- The host buffer cannot hold `n` bytes (R618 step 5, R634). -/
def hostShort (h : CmdHdr) (n : Nat) : Bool :=
  decide (h.hostLen < n) || (!portPcie h.port && decide (65536 < h.hostAddr + h.hostLen))

/-- Status codes (R15). -/
def stOK : Nat := 0x00
def stQueued : Nat := 0x01
def stStepping : Nat := 0x02
def stState : Nat := 0x10
def stOwner : Nat := 0x11
def stRange : Nat := 0x12
def stImage : Nat := 0x13
def stTiming : Nat := 0x14
def stFault : Nat := 0x20

/-- DETAIL of a refusal at step `n` of R618 (R619). DEDUCED: log entry 8. -/
def det618 (n : Nat) : Nat := 0x400 + n

/-- Write a completion of the command with header `h` and opcode `op`. -/
def State.complete (s : State) (h : CmdHdr) (op st detail result : Nat) : State :=
  s.post h.port ⟨h.tag, BitVec.ofNat 8 op, BitVec.ofNat 8 st, BitVec.ofNat 16 detail, BitVec.ofNat 64 result, h.irq, []⟩

/-- Write an interim completion, where the command asks for them (R620). -/
def State.interim (s : State) (h : CmdHdr) (op st : Nat) : State :=
  if h.interim then s.complete h op st 0 0 else s

/-- An operation in progress gets its final status, and leaves its place (R630); its completion is discarded where its
port was reset (R638). -/
def State.finishOp (s : State) (o : Op) (st detail result : Nat) : State :=
  let s := { s with ops := s.ops.filter (fun x => !decide (x.port = o.port ∧ x.place = o.place)) }
  if o.orphan then s else s.complete o.hdr o.opcode.toNat st detail result

/-- The START_AT, PAUSE, RESUME and SET_MODE_AT in progress on partition `p` end: another happening overtakes them. -/
def State.abortOps (s : State) (p st detail : Nat) : State :=
  (s.ops.filter (fun o => decide (o.part = some p ∧ o.opcode.toNat ∈ [0x20, 0x21, 0x24, 0x25]))).foldl
    (fun s o => s.finishOp o st detail 0) s

/-- The operation in progress on partition `p` with one of the opcodes `ops`. -/
def State.partOp (s : State) (p : Nat) (ops : List Nat) : Option Op :=
  s.ops.find? (fun o => decide (o.part = some p ∧ o.opcode.toNat ∈ ops))

/-! ### Event instances (R213, R229, R348) -/

/-- The instance of an identifier. -/
def State.inst (s : State) (i : Nat) : Option Inst := s.seq.insts.find? (fun x => decide (x.id = i))

/-- Apply `f` to the instance of an identifier. -/
def State.mapInst (s : State) (i : Nat) (f : Inst → Inst) : State :=
  { s with seq := { s.seq with insts := s.seq.insts.map (fun x => if x.id = i then f x else x) } }

/-- Set FLAGS bits of an instance's tag (R348). -/
def State.raise (s : State) (i : Nat) (f : BitVec 16) : State :=
  s.mapInst i (fun x => { x with flags := x.flags ||| f })

/-- The instance belongs to a deep-path program, to which R229 does not apply (R378). -/
def State.deepInst (s : State) (x : Inst) : Bool :=
  match (s.part x.part).image with | some im => decide (im.kind = 1) | none => false

/-- Mark an instance late (R229): FLAGS bit 0. A deep instance never is (R378). -/
def State.markLate (s : State) (i : Nat) : State :=
  s.mapInst i (fun x => if s.deepInst x then x else { x with late := true, flags := x.flags ||| 1#16 })

/-- An operation of an instance on die `d` has completed (R214). -/
def State.opDone (s : State) (i d : Nat) : State :=
  match s.inst i with
  | none => s
  | some x =>
    let s := s.mapInst i (fun x => if d = 0 then { x with ops0 := x.ops0 - 1 } else { x with ops1 := x.ops1 - 1 })
    if d = 0 then (if 0 < x.ops0 then { s with seq := { s.seq with ops0 := s.seq.ops0 - 1 } } else s)
    else (if 0 < x.ops1 then { s with seq := { s.seq with ops1 := s.seq.ops1 - 1 } } else s)

/-- An operation scheduled at `sched` executes now: late when the cycle has passed (R229). -/
def State.execOp (s : State) (i d sched : Nat) : State :=
  let s := if sched < s.cycle d ∧ i ≠ 0 then s.markLate i else s
  s.opDone i d

/-- Occurrence of a unit for an instance. -/
def State.occUnit (s : State) (u i : Nat) : Occ :=
  ⟨some (uRegion u), s.regionPart (uRegion u), u, (s.inst i).map (fun x => (x.stream, x.seq))⟩

/-- Occurrence of a partition for an instance, without a unit. -/
def State.occInst (s : State) (i : Nat) : Occ :=
  ⟨none, (s.inst i).map (·.part), 0x7FFF, (s.inst i).map (fun x => (x.stream, x.seq))⟩

/-- Stream and sequence number of an instance; 0 for none. -/
def State.instEvent (s : State) (i : Nat) : Nat × Nat :=
  match s.inst i with | some x => (x.stream, x.seq) | none => (0, 0)

/-- Raise arithmetic conditions for an instance at a unit: tag flags and counts (R80, R131). -/
def State.raiseConds (s : State) (u i : Nat) (cs : List Cond) : State :=
  let s := if condsFlags cs = 0#16 then s else s.raise i (condsFlags cs)
  let s := s.addReg (aScl (uRegion u / 8) (0x300 + 4 * (uRegion u % 8)))
    (cs.filter (fun c => decide (c = .rescaleClamp))).length
  cs.foldl (fun s c => s.count (uRegion u / 8) (condEvent c) 1 (s.occUnit u i)) s

/-- One stall cycle of cause `cause` in region `r`, at the unit `u` that waits or is fed by what waits (R231, R235, R253).
DEDUCED: log entry 83. -/
def State.stallAt (s : State) (r u i cause : Nat) : State :=
  let d := r / 8
  let ev := s.instEvent i
  let s := s.addReg (aSeq d (0x300 + 4 * (r % 8))) 1
  let s := s.firstRecord (aSeq d (0x320 + 4 * (r % 8))) (cause * 2 ^ 27 + u * 2 ^ 12 + ev.2 % 2 ^ 12) (firstOrder u ev.1 ev.2) []
  s.count d (0x10 + cause) 1 { s.occUnit u i with region := some r, part := s.regionPart r }

/-- One stall cycle at the unit that waits. -/
def State.stall (s : State) (u i cause : Nat) : State := s.stallAt (uRegion u) u i cause

/-- The provenance tag of an instance (R348). -/
def State.tagOf (s : State) (x : Inst) : List Byte :=
  let dg := match (s.part x.part).image with | some im => bytesAt im.digest 0 8 | none => List.replicate 8 0
  dg ++ leBytes 8 x.check.toNat ++ leBytes 6 x.seq ++ leBytes 2 x.flags.toNat

/-- The comparison mask of a tag clears LATE and RELAXED (R351). -/
def tagMasked (t : List Byte) : List Byte :=
  t.take 22 ++ leBytes 2 (fieldLE t 22 2 &&& 0xFFBE)

/-! ### The audit chain (R353 to R361) -/

/-- The 128 bytes of a control entry and its appended content (R355). DEDUCED: log entry 57. -/
def ctrlEntry (kind stream seq cycle arg : Nat) (time : List Byte) (digest aux extra : List Byte) : List Byte :=
  [2#8, BitVec.ofNat 8 kind] ++ leBytes 2 stream ++ leBytes 4 extra.length ++ leBytes 8 seq ++ leBytes 8 cycle
    ++ leBytes 8 arg ++ bytesAt time 0 16 ++ bytesAt digest 0 48 ++ bytesAt aux 0 32 ++ extra

/-- The 32 bytes of a tag entry (R354). -/
def tagEntry (stream late : Nat) (tag : List Byte) : List Byte :=
  [1#8, 0#8] ++ leBytes 2 stream ++ leBytes 2 late ++ tag ++ [0#8, 0#8]

/-- Tag entries of a batch. -/
def batchTags (b : Batch) : Nat := (b.entries.filter (·.isTag)).length
/-- Bytes of control content of a batch. -/
def batchCtrl (b : Batch) : Nat := (b.entries.filter (fun e => !e.isTag)).foldl (fun n e => n + e.bytes.length) 0

/-- Drop the content of the oldest closed batch that meets `f`; the list is newest first. DEDUCED: log entry 57. -/
def dropOldest (f : ClosedBatch → Bool) (l : List ClosedBatch) : List ClosedBatch × Option Nat :=
  match l.reverse.find? (fun b => b.content.isSome && f b) with
  | none => (l, none)
  | some b => (l.map (fun x => if x.no = b.no then { x with content := none } else x), some b.no)

/-- Open a batch of partition `p`'s chain, freeing a slot first when all eight are taken (R360, R361).
The second result is the number of a batch whose content was lost. -/
def openBatch (c : Chain) : Chain × Option Nat :=
  let used := (c.closed.filter (fun b => b.content.isSome)).length + c.batches.length
  let c' := { c with batches := c.batches ++ [⟨c.nextNo, [], false, false⟩], nextNo := c.nextNo + 1 }
  if used < 8 then (c', none)
  else
    match dropOldest (·.fetched) c.closed with
    | (l, some _) => ({ c' with closed := l }, none)
    | _ =>
      let (l, n) := dropOldest (fun b => !b.fetched) c.closed
      ({ c' with closed := l }, n)

/-- Apply `f` to the open batch, which is the last. -/
def mapLastBatch (f : Batch → Batch) (l : List Batch) : List Batch :=
  match l.reverse with
  | [] => []
  | b :: bs => (f b :: bs).reverse

/-- A batch is open: it stands and its closing condition has not been met. -/
def chainOpen (c : Chain) : Bool :=
  match c.batches.getLast? with
  | some b => !b.closing
  | none => false

/-- Replace partition `p`'s chain. -/
def State.putChain (s : State) (p : Nat) (c : Chain) : State := { s with chains := mapSet s.chains p c }

/-- The chain with a batch open, and a LOST entry where that cost one (R361). -/
def State.ensureBatch (s : State) (p : Nat) : State :=
  match mapGet s.chains p with
  | none => s
  | some c =>
    if chainOpen c then s
    else
      let (c, lost) := openBatch c
      match lost with
      | none => s.putChain p c
      | some n =>
        let e : AuditEntry := ⟨false, 0, 0, 0, ctrlEntry 0x0C 0 0 (s.cycle 0) n (timeBytes (timeOf (s.tb 0).t)) [] [] []⟩
        let c := { c with batches := mapLastBatch (fun b => { b with entries := b.entries ++ [e] }) c.batches }
        (s.putChain p c).addReg (aChk 0 (0x1000C + 0x10 * p)) 1

/-- Put an entry behind the entries of a batch: a tag entry before those of its own cycle with a higher stream (R354). -/
def entryInsert (e : AuditEntry) (l : List AuditEntry) : List AuditEntry :=
  let after := fun (x : AuditEntry) => e.isTag && x.isTag && decide (x.cycle = e.cycle ∧ e.stream < x.stream)
  let tail := (l.reverse.takeWhile after).reverse
  l.take (l.length - tail.length) ++ e :: tail

/-- Append an entry to the open batch, opening one as needed; meet the closing conditions that follow (R357). -/
def State.auditPush (s : State) (p : Nat) (e : AuditEntry) : State :=
  let s := match mapGet s.chains p with
    | none => s
    | some c =>
      match c.batches.getLast? with
      | some b =>
        if !e.isTag && !b.closing && decide (32768 < batchCtrl b + e.bytes.length) then
          s.putChain p { c with batches := mapLastBatch (fun b => { b with closing := true }) c.batches }
        else s
      | none => s
  let s := s.ensureBatch p
  match mapGet s.chains p with
  | none => s
  | some c =>
    let f := fun (b : Batch) =>
      let b := { b with entries := entryInsert e b.entries }
      if 4096 ≤ batchTags b then { b with closing := true } else b
    s.putChain p { c with batches := mapLastBatch f c.batches }

/-- Meet the closing condition of the open batch (R357). -/
def State.auditClosing (s : State) (p : Nat) (final : Bool) : State :=
  match mapGet s.chains p with
  | none => s
  | some c =>
    s.putChain p { c with batches := mapLastBatch (fun b => { b with closing := true, final := b.final || final }) c.batches }

/-- Make a control entry in partition `p`'s chain (R355, R356). -/
def State.auditCtrl (s : State) (p kind stream seq arg : Nat) (digest aux extra : List Byte) : State :=
  s.auditPush p ⟨false, 0, 0, 0,
    ctrlEntry kind stream seq (s.cycle 0) arg (timeBytes (timeOf (s.tb 0).t)) digest aux extra⟩

/-- The header of a batch that closes now (R358). -/
def batchHeader (p cycle : Nat) (b : Batch) : List Byte :=
  leBytes 8 b.no ++ [BitVec.ofNat 8 p, BitVec.ofNat 8 (bitOf (decide (batchTags b < 4096)) + 2 * bitOf b.final)]
    ++ leBytes 2 (batchTags b) ++ leBytes 4 (b.entries.length - batchTags b) ++ leBytes 8 cycle
    ++ List.replicate 8 0

/-- The entries' bytes of a batch, in entry order. -/
def batchContent (b : Batch) : List Byte := b.entries.foldl (fun l e => l ++ e.bytes) []

/-- Close a batch: header and head (R358, R359); the last 1,024 headers and heads are kept (R360). -/
def closeBatch (p cycle : Nat) (c : Chain) (b : Batch) : Chain :=
  let hd := batchHeader p cycle b
  let ct := batchContent b
  let h := sha384 (c.head ++ hd ++ ct)
  { c with head := h, batches := c.batches.filter (fun x => decide (x.no ≠ b.no))
           closed := (⟨b.no, hd, c.head, h, some ct, false, false⟩ :: c.closed).take 1024 }

/-- The first batch that waits to close and whose events have all released (R357). -/
def closable (c : Chain) : Option Batch :=
  match c.batches.head? with
  | some b => if b.closing && b.entries.all (fun e => decide (e.inst = 0)) then some b else none
  | none => none

/-- Close the batch of partition `p` that can close, if any. -/
def State.closeReady (s : State) (p : Nat) : State :=
  match mapGet s.chains p with
  | none => s
  | some c =>
    match closable c with
    | none => s
    | some b => s.putChain p (closeBatch p (s.cycle 0) c b)

/-- Write the final content of an instance's tag entry (R354). -/
def State.auditFill (s : State) (p i : Nat) (bytes : List Byte) : State :=
  match mapGet s.chains p with
  | none => s
  | some c =>
    let f := fun (e : AuditEntry) => if e.isTag && decide (e.inst = i) then { e with inst := 0, bytes := bytes } else e
    s.putChain p { c with batches := c.batches.map (fun b => { b with entries := b.entries.map f }) }

/-- The genesis block of a partition's chain (R359). -/
def State.genesis (s : State) (p : Nat) (owner : Port) : List Byte :=
  beBytes 16 s.hw.deviceId.toNat ++ [BitVec.ofNat 8 p, BitVec.ofNat 8 (portCode owner)] ++ List.replicate 6 0
    ++ leBytes 8 (s.cycle 0) ++ timeBytes (timeOf (s.tb 0).t) ++ List.replicate 20 0

end Sys2Proof.Machine
end

