-- ==== Sys2Proof/Machine/Image.lean ====
section
/-! DEFINITION. The Pyrtin image: header, records, structural checks, and what a loaded image says of its
programs (R256 to R292). -/

namespace Sys2Proof.Machine

/-! ### Header (R258) -/

def iKind (b : List Byte) : Nat := fieldLE b 0x08 1
def iRepro (b : List Byte) : Nat := fieldLE b 0x09 1
def iProfile (b : List Byte) : Nat := fieldLE b 0x0A 2
def iRmin (b : List Byte) : Nat := fieldLE b 0x0C 1
def iRmax (b : List Byte) : Nat := fieldLE b 0x0D 1
def iNtempl (b : List Byte) : Nat := fieldLE b 0x0E 1
def iNsect (b : List Byte) : Nat := fieldLE b 0x0F 1
def iNprog (b : List Byte) : Nat := fieldLE b 0x10 1
def iFlags (b : List Byte) : Nat := fieldLE b 0x11 1
def iCover (b : List Byte) : Nat := fieldLE b 0x18 8
def iRecOff (b : List Byte) : Nat := fieldLE b 0x20 8
def iRecLen (b : List Byte) : Nat := fieldLE b 0x28 8
def iDataOff (b : List Byte) : Nat := fieldLE b 0x30 8
def iDataLen (b : List Byte) : Nat := fieldLE b 0x38 8
/-- SIG_FORMAT and SIG_LEN of the signature trailer (R289). -/
def iSigFmt (b : List Byte) : Nat := fieldLE b (iCover b + 48) 2
def iSigLen (b : List Byte) : Nat := fieldLE b (iCover b + 52) 4
/-- SIG_FORMAT and SIG_LEN belong together, and the trailer's reserved bytes are 0 (R257, R289). -/
def trailerOk (b : List Byte) : Bool :=
  decide ((iSigFmt b = 0 ∧ iSigLen b = 0) ∨ (iSigFmt b = 1 ∧ iSigLen b = 196)) && decide (fieldLE b (iCover b + 50) 2 = 0)
    && decide (iSigLen b = 0 ∨ fieldLE b (iCover b + 48 + 0x69) 3 = 0)
/-- The signature trailer. -/
def iTrailer (b : List Byte) : List Byte := bytesAt b (iCover b + 48) (8 + iSigLen b)

/-- All bytes are 0. -/
def allZero (b : List Byte) : Bool := b.all (fun x => decide (x = 0))

/-! ### Records (R259 to R262) -/

/-- Records of a record area, and whether the headers tile it exactly. -/
def parseRecs : Nat → List Byte → List ImgRec × Bool
  | 0, b => ([], b.isEmpty)
  | n + 1, b =>
    if b.isEmpty then ([], true)
    else if b.length < 16 then ([], false)
    else
      let len := fieldLE b 4 4
      if b.length < 16 + len then ([], false)
      else
        let (rs, ok) := parseRecs n (b.drop (16 + len))
        (⟨fieldLE b 0 2, fieldLE b 2 1, fieldLE b 3 1, fieldLE b 8 2, fieldLE b 10 1, fieldLE b 11 1,
          bytesAt b 16 len⟩ :: rs, ok && decide (len % 8 = 0) && decide (fieldLE b 12 4 = 0))

/-- Every record of an image. -/
def imgRecs (b : List Byte) : List ImgRec × Bool :=
  parseRecs (iRecLen b) (bytesAt b (iRecOff b) (iRecLen b))

/-- Records of a type. -/
def recsOfType (rs : List ImgRec) (t : Nat) : List ImgRec := rs.filter (fun r => decide (r.typ = t))

def tyTemplate : Nat := 0x01
def tyProgram : Nat := 0x02
def tyTprog : Nat := 0x03
def tyProfile : Nat := 0x04
def tyVariant : Nat := 0x05
def tySection : Nat := 0x06
def tyRegion : Nat := 0x10
def tyUnit : Nat := 0x11
def tyFiring : Nat := 0x12
def tyOperand : Nat := 0x13
def tySram : Nat := 0x14
def tyRescale : Nat := 0x15
def tySwslot : Nat := 0x16
def tyDfslot : Nat := 0x17
def tyMemslot : Nat := 0x18
def tyInq : Nat := 0x19
def tyMonitor : Nat := 0x1A
def tyGauntlet : Nat := 0x1B

/-- Round up to a multiple of 8. -/
def pad8 (n : Nat) : Nat := ceilDiv n 8 * 8

/-- The body length that a type allows (R263 to R284), where the body's own counts say so. -/
def bodyLenOk (r : ImgRec) : Bool :=
  let b := r.body
  let n := b.length
  let t := r.typ
  if t = tyTemplate then decide (n = 16 ∨ n = 24)
  else if t = tyProgram then decide (n = pad8 (16 + 2 * fieldLE b 0xC 2))
  else if t = tyTprog then decide (n = 16)
  else if t = tyProfile then decide (n = 112)
  else if t = tyVariant then decide (n = 8 + 8 * fieldLE b 0 4)
  else if t = tySection then decide (n = 24)
  else if t = tyRegion then decide (n = 8)
  else if t = tyUnit then decide (n = 32 ∨ n = 40 ∨ n = 56 ∨ n = 64)
  else if t = tyFiring then decide (n = 8 + 16 * fieldLE b 0 4)
  else if t = tyOperand then decide (n = 24)
  else if t = tySram then decide (n = 24)
  else if t = tyRescale then decide (n = 8 + 16 * fieldLE b 2 2)
  else if t = tySwslot then decide (n = 4096)
  else if t = tyDfslot then decide (n = 10240)
  else if t = tyMemslot then decide (n = 8 + 16 * fieldLE b 0 4)
  else if t = tyInq then decide (n = 16 + 16 * fieldLE b 4 2)
  else if t = tyMonitor then decide (n = pad8 (0x18 + 4 * fieldLE b 2 2))
  else if t = tyGauntlet then decide (n = 0x40)
  else false

/-- The type has region, cluster, unit scope (R261). -/
def hasRegion (t : Nat) : Bool := decide (tyRegion ≤ t ∧ t ≤ tyMemslot)
def hasCluster (t : Nat) : Bool := decide (tyUnit ≤ t ∧ t ≤ tySwslot)
def hasUnit (t : Nat) : Bool := decide (t = tyUnit ∨ t = tyFiring ∨ t = tyOperand)

/-- The TEMPLATE column of R261: 0 only 0xFF, 1 only an index, 2 either. -/
def templRule (t : Nat) : Nat :=
  if t = tyProgram ∨ t = tyProfile ∨ t = tyVariant ∨ t = tySection ∨ t = tyInq then 0
  else if t = tyRescale then 2 else 1

/-- NLREG of template `t` of an image. -/
def templRegions (rs : List ImgRec) (t : Nat) : Nat :=
  match (recsOfType rs tyTemplate).find? (fun r => decide (r.template = t)) with
  | some r => fieldLE r.body 2 1
  | none => 0

/-- NLREG of every template of an image. -/
def imgNlregs (b : List Byte) : List Nat := (List.range (iNtempl b)).map (templRegions (imgRecs b).1)

/-- Scope fields of a record are in range (order 6 of R292). `nl` holds the NLREG of each template: for a scale set, those of
the image that it serves (R260, R261, R291). -/
def scopeOk (b : List Byte) (nl : List Nat) (r : ImgRec) : Bool :=
  let t := r.typ
  let ff := decide (r.template = 0xFF)
  let tOk := match templRule t with
    | 0 => ff
    | 1 => decide (r.template < iNtempl b)
    | _ => ff || decide (r.template < iNtempl b)
  let sOk := if t ≤ tySection ∨ t = tyInq then decide (r.section_ = 0) else decide (r.section_ < iNsect b)
  let rOk := if hasRegion t then
      (if ff then nl.any (fun n => decide (r.lregion < n)) else decide (r.lregion < nl.getD r.template 0))
    else decide (r.lregion = 0xFFFF)
  let cOk := if hasCluster t then decide (r.cluster < 64) else decide (r.cluster = 0xFF)
  let uOk := if hasUnit t then decide (r.unit < 20) else decide (r.unit = 0xFF)
  tOk && sOk && rOk && cOk && uOk

/-- The order key of R260. -/
def recKey (r : ImgRec) : List Nat :=
  [r.section_, if r.template = 0xFF then 0 else r.template + 1, r.typ, r.lregion, r.cluster, r.unit]

/-- Lexicographic order of keys. -/
def keyLe : List Nat → List Nat → Bool
  | [], _ => true
  | _ :: _, [] => false
  | a :: as, b :: bs => decide (a < b) || (decide (a = b) && keyLe as bs)

/-- Keys do not decrease. -/
def keysRise : List ImgRec → Bool
  | [] => true
  | [_] => true
  | a :: b :: l => keyLe (recKey a) (recKey b) && keysRise (b :: l)

/-- Two half-open ranges meet. -/
def rangesMeet (a la b lb : Nat) : Bool := decide (a < b + lb ∧ b < a + la ∧ 0 < la ∧ 0 < lb)

/-- Two records set one byte, word, table entry or slot entry of one section and template (R260). -/
def recsClash (a b : ImgRec) : Bool :=
  decide (a.typ = b.typ) && decide (a.section_ = b.section_)
    && (decide (a.template = b.template) || decide (a.template = 0xFF) || decide (b.template = 0xFF))
    && decide (a.lregion = b.lregion) && decide (a.cluster = b.cluster) && decide (a.unit = b.unit)
    && (let t := a.typ
        if t = tyProgram ∨ t = tyTprog ∨ t = tySection ∨ t = tyOperand then
          decide (fieldLE a.body 0 1 = fieldLE b.body 0 1)
        else if t = tySram then rangesMeet (fieldLE a.body 0 4) (fieldLE a.body 4 4) (fieldLE b.body 0 4) (fieldLE b.body 4 4)
        else if t = tyRescale then rangesMeet (fieldLE a.body 0 2) (fieldLE a.body 2 2) (fieldLE b.body 0 2) (fieldLE b.body 2 2)
        else if t = tyInq then decide (fieldLE a.body 0 1 = fieldLE b.body 0 1)
          && rangesMeet (fieldLE a.body 2 2) (fieldLE a.body 4 2) (fieldLE b.body 2 2) (fieldLE b.body 4 2)
        else if t = tyMonitor ∨ t = tyGauntlet then
          decide (fieldLE a.body 0 1 = fieldLE b.body 0 1 ∧ fieldLE a.body 1 1 = fieldLE b.body 1 1)
        else true)

/-- No two records of a list clash. -/
def noClash : List ImgRec → Bool
  | [] => true
  | r :: rs => !(rs.any (recsClash r)) && noClash rs

/-- Template, section, die and slot of a MONITOR or GAUNTLET record. -/
def layerKey (r : ImgRec) : List Nat := [r.template, r.section_, fieldLE r.body 0 1, fieldLE r.body 1 1]
/-- Every re-runnable layer of a template and section has one MONITOR and one GAUNTLET record (R261). -/
def onePerLayer (rs : List ImgRec) : Bool :=
  let n := fun (t : Nat) (r : ImgRec) => ((recsOfType rs t).filter (fun q => decide (layerKey q = layerKey r))).length
  rs.all (fun r => !(decide (r.typ = tyMonitor ∨ r.typ = tyGauntlet)) || decide (n tyMonitor r = 1 ∧ n tyGauntlet r = 1))

/-- The record counts of R261. -/
def countsOk (b : List Byte) (rs : List ImgRec) : Bool :=
  let n := fun t => (recsOfType rs t).length
  if iKind b = 2 then
    rs.all (fun r => decide (r.typ = tyRescale ∨ r.typ = tyInq ∨ r.typ = tyMonitor ∨ r.typ = tyGauntlet))
  else
    decide (n tyTemplate = iNtempl b) && decide (n tyProgram = iNprog b)
      && decide (n tyTprog = iNtempl b * iNprog b) && decide (n tyProfile = 1) && decide (n tyVariant = 1)
      && decide (n tySection = iNsect b) && noClash (recsOfType rs tyTemplate)
      && (List.range (iNtempl b)).all (fun t => (List.range (iNsect b)).all (fun sc =>
          (List.range (templRegions rs t)).all (fun l =>
            rs.any (fun r => decide (r.typ = tyRegion ∧ r.template = t ∧ r.section_ = sc ∧ r.lregion = l))
              && rs.any (fun r => decide (r.typ = tyDfslot ∧ r.template = t ∧ r.section_ = sc ∧ r.lregion = l)))))
      && onePerLayer rs

/-- Data references of a record: offset and length, with the length the record needs. -/
def dataRefs (r : ImgRec) : List (Nat × Nat × Nat) :=
  let b := r.body
  if r.typ = tyOperand then [(fieldLE b 8 8, fieldLE b 16 4, 0x480)]
  else if r.typ = tySram then [(fieldLE b 8 8, fieldLE b 16 4, fieldLE b 4 4)]
  else if r.typ = tyGauntlet then
    [(fieldLE b 0x20 8, fieldLE b 0x28 4, 2 * fieldLE b 0xA 2 * fieldLE b 0xC 2),
     (fieldLE b 0x2C 8, fieldLE b 0x34 4, 4 * fieldLE b 0xC 2)]
  else []

/-- A data reference lies within the data area, at a multiple of 8 bytes (R256, order 8 of R292). -/
def refOk (b : List Byte) (e : Nat × Nat × Nat) : Bool :=
  decide (e.1 % 8 = 0 ∧ iDataOff b ≤ e.1 ∧ e.1 + e.2.1 ≤ iDataOff b + iDataLen b ∧ e.2.1 = e.2.2)

/-- Bytes of a data reference. -/
def refBytes (b : List Byte) (off len : Nat) : List Byte := bytesAt b off len

/-- An entry period of R212. -/
def periodOk (e : Nat) : Bool :=
  decide (e ∈ [1, 2, 4, 8, 16, 32, 64]) || (decide (e % 64 = 0) && decide (0 < e ∧ e ≤ 65536))

/-- A RESCALE body names entries of the table (R276). -/
def rescaleBody (x : List Byte) : Bool :=
  decide (1 ≤ fieldLE x 2 2 ∧ fieldLE x 0 2 + fieldLE x 2 2 ≤ 4096 ∧ fieldLE x 4 4 = 0)
/-- An INQ body names entries of a die's table (R282). -/
def inqBody (x : List Byte) : Bool :=
  decide (fieldLE x 0 1 ≤ 1 ∧ fieldLE x 1 1 = 0 ∧ fieldLE x 6 2 = 0 ∧ fieldLE x 12 4 = 0 ∧ fieldLE x 2 2 + fieldLE x 4 2 ≤ 4096)
/-- Fields of a MONITOR body (R283). -/
def monitorBody (x : List Byte) : Bool :=
  let n := fieldLE x 2 2
  decide (fieldLE x 0 1 ≤ 1 ∧ fieldLE x 1 1 < 64 ∧ 1 ≤ n ∧ n ≤ 4096 ∧ fieldLE x 0x14 4 = 0) && allZero (x.drop (0x18 + 4 * n))
/-- Fields of a GAUNTLET body (R284). -/
def gauntletBody (x : List Byte) : Bool :=
  let e := fieldLE x 0xE 1
  decide (fieldLE x 0 1 ≤ 1 ∧ fieldLE x 1 1 < 64 ∧ fieldLE x 2 1 ≤ 3 ∧ fieldLE x 3 1 ≤ 1 ∧ fieldLE x 4 2 ≤ 4095
    ∧ 1 ≤ fieldLE x 6 2 ∧ (e < 32 ∨ 224 ≤ e) ∧ fieldLE x 0xF 1 = 0 ∧ fieldLE x 0x1C 1 < 4 ∧ fieldLE x 0x1D 3 = 0)

/-- The bodies that order 9 checks: those of the image-wide records, or those that a scale set may hold. -/
def bodyOk (b : List Byte) (rs : List ImgRec) (r : ImgRec) : Bool :=
  let x := r.body
  if r.typ = tyTemplate then
    let n0 := fieldLE x 0 1
    let n1 := fieldLE x 1 1
    let nl := fieldLE x 2 1
    let mp := bytesAt x 8 nl
    decide (n0 ≤ 8 ∧ n1 ≤ 8 ∧ nl = n0 + n1 ∧ iRmin b ≤ nl ∧ nl ≤ iRmax b) && decide (x.length = pad8 (8 + nl))
      && allZero (bytesAt x 3 5) && decide ((mp.filter (· = 0)).length = n0)
      && decide ((mp.filter (· = 1)).length = n1) && allZero (x.drop (8 + nl))
  else if r.typ = tyProgram then
    let ns := fieldLE x 0xC 2
    decide (fieldLE x 0 1 < iNprog b ∧ fieldLE x 1 1 = iKind b ∧ fieldLE x 2 2 < 16384 ∧ fieldLE x 8 4 < fieldLE x 4 4
        ∧ ns ≤ 64 ∧ fieldLE x 0xE 2 = 0) && periodOk (fieldLE x 4 4)
      && (List.range ns).all (fun i => decide (fieldLE x (0x10 + 2 * i) 2 < 16384)) && allZero (x.drop (0x10 + 2 * ns))
      && !(rs.any (fun q => decide (q.typ = tyProgram ∧ fieldLE q.body 0 1 ≠ fieldLE x 0 1 ∧ fieldLE q.body 2 2 = fieldLE x 2 2)))
      && (iKind b ≠ 1 || decide (iNprog b = 1 ∧ ns = 0))
  else if r.typ = tyTprog then decide (fieldLE x 0 1 < iNprog b) && allZero (bytesAt x 1 3)
  else if r.typ = tyProfile then
    decide (fieldLE x 0 2 = iProfile b ∧ fieldLE x 2 2 = 25 ∧ fieldLE x 4 4 = 0) && allZero (x.drop 108)
      && (List.range 24).all (fun i => decide (fieldLE x (8 + 4 * i + 2) 2 < fieldLE x (12 + 4 * i + 2) 2))
  else if r.typ = tyVariant then
    decide (fieldLE x 4 4 = 0) && (List.range (fieldLE x 0 4)).all (fun i =>
      decide (fieldLE x (8 + 8 * i) 4 < 2 ^ 27 ∧ 1 ≤ fieldLE x (12 + 8 * i) 2 ∧ fieldLE x (12 + 8 * i) 2 ≤ 3
        ∧ fieldLE x (14 + 8 * i) 2 = 0))
  else if r.typ = tySection then
    decide (fieldLE x 0 1 < iNsect b ∧ (fieldLE x 1 1 < iNsect b ∨ fieldLE x 1 1 = 0xFF) ∧ fieldLE x 2 1 ≤ 1)
      && allZero (bytesAt x 3 5)
  else if iKind b ≠ 2 then true
  else if r.typ = tyRescale then rescaleBody x
  else if r.typ = tyInq then inqBody x
  else if r.typ = tyMonitor then monitorBody x
  else if r.typ = tyGauntlet then gauntletBody x
  else true

/-- The section chain of a KIND 1 image visits every section once from section 0 and ends with 0xFF (R388). -/
def chainOk (rs : List ImgRec) (n : Nat) : Bool :=
  let next := fun k => ((recsOfType rs tySection).find? (fun r => decide (fieldLE r.body 0 1 = k))).map (fun r => fieldLE r.body 1 1)
  let rec walk : Nat → Nat → List Nat → Bool
    | 0, _, _ => false
    | f + 1, k, seen =>
      match next k with
      | none => false
      | some m => if m = 0xFF then decide (seen.length + 1 = n) else if m ∈ (k :: seen) then false else walk f m (k :: seen)
  walk (n + 1) 0 []

/-- Checks 1 to 9 of R292: the order of the first that fails. `dg` is the digest held with the staged copy (R305). For a scale
set, `base` holds the NLREG of each template of the image that it serves. `need` says that a signature is required, `keys` are
the owner key hashes. DEDUCED: log entry 73. -/
def imgCheck (b : List Byte) (len : Nat) (dg : List Byte) (base : Option (List Nat)) (need : Bool) (keys : List (List Byte)) :
    Option Nat :=
  let (rs, tiled) := imgRecs b
  let k := iKind b
  let nl := base.getD (imgNlregs b)
  if !(decide (fieldLE b 0 4 = 0x54525950 ∧ fieldLE b 4 2 = 0x0100 ∧ fieldLE b 6 2 = 128 ∧ k ≤ 2 ∧ iRepro b ≤ 1
      ∧ iFlags b ≤ 1 ∧ (iFlags b = 0 ∨ k = 1))) then some 1
  else if !(decide (iRecOff b = 128 ∧ iDataOff b = 128 + iRecLen b ∧ iCover b = iDataOff b + iDataLen b
      ∧ iRecLen b % 8 = 0 ∧ iCover b % 8 = 0 ∧ len = iCover b + 56 + iSigLen b ∧ (k = 2 ↔ base.isSome = true))
      && trailerOk b) then some 2
  else if dg ≠ bytesAt b (iCover b) 48 then some 3
  else if need && !(decide (iSigFmt b = 1 ∧ iSigLen b = 196) && decide (sha384 (bytesAt b (iCover b + 56) 97) ∈ keys)
      && ecdsaVerify dg (bytesAt b (iCover b + 56) 97) (bytesAt b (iCover b + 48 + 0x6C) 48)
          (bytesAt b (iCover b + 48 + 0x9C) 48)) then some 4
  else if !(decide (1 ≤ iRmin b ∧ iRmin b ≤ 16 ∧ iRmin b ≤ iRmax b ∧ iRmax b ≤ 16 ∧ 1 ≤ iNtempl b ∧ iNtempl b ≤ 32
      ∧ 1 ≤ iNsect b ∧ iNsect b ≤ 64 ∧ (k = 0 → iNsect b = 1) ∧ (k = 2 → iNprog b = 0)
      ∧ (k ≠ 2 → 1 ≤ iNprog b ∧ iNprog b ≤ 16)) && allZero (bytesAt b 0x12 6) && allZero (bytesAt b 0x5C 36)
      && (k = 2 || allZero (bytesAt b 0x54 8))) then some 5
  else if !(tiled && rs.all (fun r => bodyLenOk r && scopeOk b nl r)) then some 6
  else if !(keysRise rs && noClash rs && countsOk b rs) then some 7
  else if !(rs.all (fun r => (dataRefs r).all (refOk b))) then some 8
  else if !(rs.all (bodyOk b rs) && (k ≠ 1 || chainOk rs (iNsect b))) then some 9
  else none

/-! ### What a loaded image says -/

/-- Records of a loaded image of one type and section. -/
def Loaded.of (im : Loaded) (t sec : Nat) : List ImgRec :=
  im.recs.filter (fun r => decide (r.typ = t ∧ r.section_ = sec))

/-- Physical region of a record. -/
def Loaded.region (im : Loaded) (r : ImgRec) : Nat := im.map.getD r.lregion 0
/-- Physical unit address of a record with unit scope. -/
def Loaded.unitOf (im : Loaded) (r : ImgRec) : Nat := unitAddr (im.region r) r.cluster r.unit

/-- The PROGRAM record of program `g`. -/
def Loaded.prog (im : Loaded) (g : Nat) : Option ImgRec :=
  (im.of tyProgram 0).find? (fun r => decide (fieldLE r.body 0 1 = g))
/-- The TPROG record of program `g`. -/
def Loaded.tprog (im : Loaded) (g : Nat) : Option ImgRec :=
  (im.of tyTprog 0).find? (fun r => decide (fieldLE r.body 0 1 = g))
/-- The program whose entry stream is `st`. -/
def Loaded.progOf (im : Loaded) (st : Nat) : Option ImgRec :=
  (im.of tyProgram 0).find? (fun r => decide (fieldLE r.body 2 2 = st))
def prNum (r : ImgRec) : Nat := fieldLE r.body 0 1
def prStream (r : ImgRec) : Nat := fieldLE r.body 2 2
def prE (r : ImgRec) : Nat := fieldLE r.body 4 4
def prPhi (r : ImgRec) : Nat := fieldLE r.body 8 4
def prSides (r : ImgRec) : List Nat := (List.range (fieldLE r.body 0xC 2)).map (fun i => fieldLE r.body (0x10 + 2 * i) 2)
/-- DECL of program `g` (R265). -/
def Loaded.decl (im : Loaded) (g : Nat) : Nat := match im.tprog g with | some r => fieldLE r.body 4 4 | none => 0

/-- The SECTION record of section `k`. -/
def Loaded.sect (im : Loaded) (k : Nat) : Option ImgRec :=
  (im.of tySection 0).find? (fun r => decide (fieldLE r.body 0 1 = k))
def secNext (r : ImgRec) : Nat := fieldLE r.body 1 1
def secPrefetch (r : ImgRec) : Bool := decide (fieldLE r.body 2 1 = 1)
def secBase (r : ImgRec) : Nat := fieldLE r.body 8 8
def secLen (r : ImgRec) : Nat := fieldLE r.body 16 8

/-- Program and offset of a schedule word (R277). -/
def swProg (w : Nat) : Nat := bitsOf w 31 28
def swOff (w : Nat) : Nat := bitsOf w 27 0

/-- A run of firings (R273): context, offset, count, stride. -/
structure FireRun where
  prog   : Nat
  ctx    : Nat
  offset : Nat
  count  : Nat
  stride : Nat
  deriving DecidableEq, Repr

/-- Runs of a FIRING body. -/
def fireRuns (b : List Byte) : List FireRun :=
  (List.range (fieldLE b 0 4)).map (fun i =>
    let o := 8 + 16 * i
    ⟨fieldLE b o 1, fieldLE b (o + 1) 1, fieldLE b (o + 4) 4, fieldLE b (o + 8) 4, fieldLE b (o + 12) 4⟩)

/-- Offsets of the firings of a run. -/
def FireRun.offsets (r : FireRun) : List Nat := (List.range r.count).map (fun i => r.offset + i * r.stride)

/-- A die fabric entry of a DFSLOT body: position, entry word, schedule word. -/
structure DfEntry where
  f    : Nat
  ch   : Nat
  src  : Nat
  dst  : Nat
  prog : Nat
  off  : Nat
  deriving DecidableEq, Repr

/-- Valid entries of a DFSLOT body (R279). -/
def dfEntries (b : List Byte) : List DfEntry :=
  (List.range 1280).filterMap (fun i =>
    let w := fieldLE b (4 * i) 4
    let sw := fieldLE b (5120 + 4 * i) 4
    if w.testBit 31 then some ⟨i / 20, i % 20, bitsOf w 30 22, bitsOf w 21 13, swProg sw, swOff sw⟩ else none)

/-- Entries of a MEMSLOT body (R280): cycle, controller, lane, write, address, schedule word. -/
def memEntries (b : List Byte) : List MemSlot :=
  (List.range (fieldLE b 0 4)).map (fun i =>
    let o := 8 + 16 * i
    ⟨fieldLE b o 2, fieldLE b (o + 2) 1, fieldLE b (o + 3) 1, decide (fieldLE b (o + 4) 1 = 1), fieldLE b (o + 8) 4,
     BitVec.ofNat 32 (fieldLE b (o + 12) 4)⟩)

/-- A fabric entry of frame cycle `f` and offset `off` serves an instance of ingest cycle `t` (R277). -/
def slotServes (f off t : Nat) : Bool := decide ((t + off) % 64 = f)

/-- Fabric entries of the instance of program `g` with ingest cycle `t` in section `sec`: die of the table, entry. -/
def Loaded.dfOf (im : Loaded) (sec g t : Nat) : List (Nat × DfEntry) :=
  (im.of tyDfslot sec).foldl (fun l r =>
    l ++ ((dfEntries r.body).filter (fun e => decide (e.prog = g) && slotServes e.f e.off t)).map
      (fun e => (im.region r / 8, e))) []

/-- Operations of one instance on die `d` in section `sec` (R214): firings, fabric, bridge and memory transfers. -/
def Loaded.opCount (im : Loaded) (sec g t d : Nat) : Nat :=
  let fires := (im.of tyFiring sec).foldl (fun n r =>
    if im.region r / 8 = d then
      (fireRuns r.body).foldl (fun n x => if x.prog = g then n + x.count else n) n
    else n) 0
  let fabs := ((im.dfOf sec g t).filter (fun e => decide (e.1 = d))).length
  let mems := (im.of tyMemslot sec).foldl (fun n r =>
    if im.region r / 8 = d then
      n + ((memEntries r.body).filter (fun e =>
        decide (swProg e.sched.toNat = g ∧ (t + swOff e.sched.toNat) % 4096 = e.cycle))).length
    else n) 0
  fires + fabs + mems

/-- Cycles from the ingest cycle to the last scheduled operation of an instance of program `g` in section `sec` (R396). -/
def Loaded.span (im : Loaded) (sec g : Nat) : Nat :=
  let fires := (im.of tyFiring sec).foldl (fun n r =>
    (fireRuns r.body).foldl (fun n x => if x.prog = g then max n (x.offset + (x.count - 1) * x.stride) else n) n) 0
  let fabs := (im.of tyDfslot sec).foldl (fun n r =>
    (dfEntries r.body).foldl (fun n e => if e.prog = g then max n e.off else n) n) fires
  (im.of tyMemslot sec).foldl (fun n r =>
    (memEntries r.body).foldl (fun n e => if swProg e.sched.toNat = g then max n (swOff e.sched.toNat) else n) n) fabs

/-- A code is an output endpoint: lane, optical port, trigger pin (R215). -/
def isOutput (ep : Nat) : Bool := decide (0x1B0 ≤ ep ∧ ep < 0x1E4)
/-- A code is a capture and admission port. -/
def isCapture (ep : Nat) : Bool := decide (0x170 ≤ ep ∧ ep < 0x1B0)

/-- Result tokens that the instance releases at output endpoints. -/
def Loaded.resultCount (im : Loaded) (sec g t : Nat) : Nat :=
  ((im.dfOf sec g t).filter (fun e => isOutput e.2.dst)).length

/-- Cycle in which the last result token of an instance of ingest cycle `t` is scheduled to be released: its egress slot and the
crossing (R36, R215). -/
def Loaded.lastResult (im : Loaded) (sec g t : Nat) : Nat :=
  (im.dfOf sec g t).foldl (fun n e => if isOutput e.2.dst then max n (t + e.2.off + 6) else n) 0

/-- Capture ports of die `d` from which the instance's raw tokens leave, in order of schedule offset (R413). DEDUCED: log entry 89. -/
def Loaded.capPorts (im : Loaded) (sec g t d : Nat) : List (Nat × Nat) :=
  let l := ((im.dfOf sec g t).filter (fun e => decide (e.1 = d) && isCapture e.2.src)).map (fun e => (e.2.off, e.2.src))
  -- one entry per transfer: a multicast names one source several times in one frame cycle
  let l := l.foldl (fun a e => if e ∈ a then a else a ++ [e]) []
  sortBy (·.1) l

end Sys2Proof.Machine
end

