-- ==== Sys2Proof/Machine/Time.lean ====
section
/-! DEFINITION. Time bases, time-stamps, servos, PTP, the G1 counter and the snapshot (R550 to R577). -/

namespace Sys2Proof.Machine

/-! ### Advance and conversion -/

/-- ADJ of a time base, int32 (TIM_TB_ADJ). -/
def State.tbAdj (s : State) (t : Nat) : Int := signedOf 32 (s.reg (aTim (0x10004 + 0x100 * t))).toNat

/-- The register of time base `t` at offset `o` of its group. -/
def aTb (t o : Nat) : Nat := aTim (0x10000 + 0x100 * t + o)

/-- One cycle of a time base (R551). -/
def tbAdvance (adj : Int) (x : TimeBase) : TimeBase :=
  let d : Int := if x.phase < 4 then 225179981368525 else 225179981368524
  { x with t := ((x.t : Int) + d + adj * 256).toNat % 2 ^ 128, phase := (x.phase + 1) % 5 }

/-- Every time base after one more lattice cycle. -/
def State.tbTick (s : State) : State :=
  (List.range 4).foldl (fun s t => s.putTb t (tbAdvance (s.tbAdj t) (s.tb t))) s

/-- Counts of the four time bases now. -/
def State.tbNow (s : State) : List Nat := (List.range 4).map (fun t => (s.tb t).t)

/-- Keep TB(k) of the cycle that ends: the last 64 cycles, and multiples of 64 over the last 65,536 (R558, R559). -/
def State.tbKeep (s : State) : State :=
  let c := s.seq.count0
  let keep := fun (e : Nat × List Nat) =>
    decide (c < e.1 + 64) || (decide (e.1 % 64 = 0) && decide (c ≤ e.1 + 65536))
  { s with tim := { s.tim with hist := (c, s.tbNow) :: s.tim.hist.filter keep } }

/-- The G1 counter at an edge of the 156.25 MHz reference, every 8 lattice cycles (R556). -/
def State.g1Tick (s : State) : State :=
  { s with tim := { s.tim with g1 := (s.tim.g1 + (s.reg (aTim 0x30000)).toNat) % 2 ^ 88 } }

/-- TB_t(k) in units of 2^-16 ns, where cycle `k` is the present one or is kept. -/
def State.tbKept (s : State) (t k : Nat) : Option Nat :=
  if k = s.seq.count0 then some ((s.tb t).t >>> 32)
  else (s.tim.hist.find? (fun e => decide (e.1 = k))).map (fun e => (e.2.getD t 0) >>> 32)

/-- TB_t(τ) in units of 2^-16 ns, for an instant in units of 1/128 cycle (R557, R559). -/
def State.tbOf (s : State) (t tau : Nat) : Option Nat :=
  let k := tau / 128
  let c := s.seq.count0
  if c < k then none
  else if c ≤ k + 64 then (s.tbKept t k).map (fun v => v + 4096 * (tau % 128) / 10)
  else if c ≤ k + 65536 then
    let k0 := k / 64 * 64
    (s.tbKept t k0).map (fun v => v + 4096 * (tau - 128 * k0) / 10)
  else none

/-- A value in units of 2^-16 ns in the format of R550. -/
def timeOf16 (v : Nat) : TimeVal := timeOf (v * 2 ^ 32)

/-! ### Changes (R553, R554) -/

/-- The first schedule cycle that is a multiple of 16 and lies at least `n` cycles after the present one, in
cycles since cold reset, which a reset of the schedule count does not disturb. DEDUCED: log entry 86. -/
def State.dueAt (s : State) (n : Nat) : Nat := s.now + (ceilDiv (s.seq.count0 + n) 16 * 16 - s.seq.count0)

/-- Queue a change of a time base. DEDUCED: log entry 86. -/
def State.tbQueue (s : State) (t n : Nat) (o : TbOp) : State :=
  let x := s.tb t
  s.putTb t { x with due := x.due ++ [(s.dueAt n, o)] }

/-- The staged value of TIM_TB_SET, in units of 2^-48 ns (R553). -/
def State.tbStaged (s : State) (t : Nat) : Nat :=
  let lo := s.field (aTb t 0x0C) 31 0
  let ns := s.field (aTb t 0x10) 31 0
  let hi := s.field (aTb t 0x14) 31 16
  let fr := s.field (aTb t 0x14) 15 0
  ((lo + hi * 2 ^ 32) * 1000000000 + ns) * 2 ^ 48 + fr * 2 ^ 32

/-- The staged signed step, in units of 2^-48 ns. -/
def State.tbStagedStep (s : State) (t : Nat) : Int :=
  signedOf 32 (s.field (aTb t 0x10) 31 0) * 2 ^ 48 + (s.field (aTb t 0x14) 15 0 : Int) * 2 ^ 32

/-- The order of R554: lower first. -/
def tbClass : TbOp → Nat
  | .set _ | .step _ => 0
  | .servoStep _ => 1
  | .rate _ => 2
  | .manual _ => 3

/-- Clamp a rate to ±ADJ_MAX (R551). -/
def State.adjClamp (s : State) (t : Nat) (a : Int) : Int :=
  let m : Int := s.field (aTb t 0x28) 30 0
  max (-m) (min m a)

/-- Put a rate adjust in force. -/
def State.putAdj (s : State) (t : Nat) (a : Int) : State :=
  s.setReg (aTb t 0x04) (BitVec.ofInt 32 (s.adjClamp t a))

/-- End a pending BARRIER that names time base `t` with REFUSED_TIMING (R567). -/
def State.barrierEnd (s : State) (t : Nat) : State :=
  match s.barrier with
  | some b => if b.tb = t then
      { s with barrier := none
               ops := s.ops.filter (fun o => !(decide (o.opcode = 0x71#8))) }.complete b.hdr 0x71 stTiming 0 0
    else s
  | none => s

/-- A changed time base: LOCKED cleared, samples not yet applied discarded (R553), a barrier ended (R567). -/
def State.tbMoved (s : State) (t : Nat) (v : Nat) (keepSamples : Bool) : State :=
  let x := s.tb t
  let due := if keepSamples then x.due
    else x.due.filter (fun e => match e.2 with | .servoStep _ | .rate _ => false | _ => true)
  ((s.putTb t { x with t := v % 2 ^ 128, due := due }).setFlag (aTb t 0x40) 31 false).barrierEnd t

/-- Apply one change. -/
def State.tbApply (s : State) (t : Nat) : TbOp → State
  | .set v => s.tbMoved t v false
  | .step d => s.tbMoved t (((s.tb t).t : Int) + d).toNat false
  | .servoStep d => s.tbMoved t (((s.tb t).t : Int) + d).toNat true
  | .rate a => s.putAdj t a
  | .manual a => if s.flag (aTb t 0) 31 then s else s.putAdj t a

/-- The changes that fall due in the earliest due cycle, the first of R554 in front. -/
def tbDue (now : Nat) (due : List (Nat × TbOp)) : List TbOp :=
  match (due.filter (fun e => decide (e.1 ≤ now))).map (·.1) with
  | [] => []
  | c :: cs =>
    let m := cs.foldl min c
    let l := (due.filter (fun e => decide (e.1 = m))).map (·.2)
    l.filter (fun o => decide (tbClass o = 0)) ++ l.filter (fun o => decide (tbClass o = 1))
      ++ l.filter (fun o => decide (tbClass o = 2))

/-- A pending change of time base `t` falls due: the first in the order of R554 is applied, the others of the same
cycle are discarded; a manual rate is no change of R554 and takes effect beside it. -/
def State.timeBaseUpdate (s : State) (t : Nat) : State :=
  let x := s.tb t
  let cs := (x.due.filter (fun e => decide (e.1 ≤ s.now))).map (·.1)
  match cs with
  | [] => s
  | c :: r =>
    let m := r.foldl min c
    let man := (x.due.filter (fun e => decide (e.1 = m) && decide (tbClass e.2 = 3))).map (·.2)
    let first := (tbDue s.now x.due).head?
    let s := s.putTb t { x with due := x.due.filter (fun e => decide (e.1 ≠ m)) }
    let s := match first with | some o => s.tbApply t o | none => s
    man.foldl (fun s o => s.tbApply t o) s

/-- TIM_TB_CMD: SET (R553). -/
def State.tbSet (s : State) (t : Nat) : State :=
  (s.putTb t { s.tb t with onPps := none }).tbQueue t 16 (.set (s.tbStaged t))
/-- TIM_TB_CMD: STEP (R553). -/
def State.tbStep (s : State) (t : Nat) : State :=
  (s.putTb t { s.tb t with onPps := none }).tbQueue t 16 (.step (s.tbStagedStep t))
/-- TIM_TB_CMD: SET_ON_PPS (R553). -/
def State.tbSetOnPps (s : State) (t : Nat) : State :=
  s.putTb t { s.tb t with onPps := some (s.tbStaged t) }
/-- TIM_TB_MANADJ (R551). -/
def State.manadjWrite (s : State) (t : Nat) (v : Word) : State :=
  let s := s.setReg (aTb t 0x08) v
  if s.flag (aTb t 0) 31 then s else s.tbQueue t 16 (.manual (signedOf 32 v.toNat))

/-- What a write of TIM_TB_CFG brings: enabling the servo or changing SRC or SEL restarts it (R565); a servo that is
disabled gives the rate back to TIM_TB_MANADJ (R551). -/
def State.tbCfgWrite (s : State) (t : Nat) (v : Word) : State :=
  let a := aTb t 0
  let old := (s.reg a).toNat
  let s := s.setReg a (v &&& 0xFFFFF000#32)
  let new := (s.reg a).toNat
  if new.testBit 31 && (!old.testBit 31 || decide (bitsOf old 30 20 ≠ bitsOf new 30 20)) then
    (s.setReg (aTb t 0x3C) (s.reg (aTb t 0x04))).putTb t { s.tb t with good := 0, source := none, sync := none }
  else if old.testBit 31 && !new.testBit 31 then
    s.tbQueue t 16 (.manual (signedOf 32 (s.reg (aTb t 0x08)).toNat))
  else s

/-! ### The servo (R563 to R566) -/

/-- The servo of time base `t` is enabled with source `src`. -/
def State.srvOn (s : State) (t src : Nat) : Bool :=
  s.flag (aTb t 0) 31 && decide (s.field (aTb t 0) 30 28 = src)

/-- Saturate to int48. -/
def sat48 (e : Int) : Int := max (-(2 ^ 47)) (min (2 ^ 47 - 1) e)

/-- Process a completed offset sample, in units of 2^-16 ns (R564). DEDUCED: log entry 86. -/
def State.servoSample (s : State) (t : Nat) (e0 : Int) : State :=
  let e := sat48 e0
  let x := s.tb t
  let s := s.putTb t { x with off := BitVec.ofInt 48 e }
  let st := aTb t 0x40
  let s := (s.addField st 15 0 1).setFlag st 30 false
  let stepTh : Int := (s.field (aTb t 0x24) 31 16 : Int) * 2 ^ 16
  let lockTh : Int := (s.field (aTb t 0x24) 15 8 : Int) * 2 ^ 12
  if stepTh ≤ (e.natAbs : Int) then
    let s := (s.setFlag st 31 false).setFlag st 29 true
    (s.putTb t { s.tb t with good := 0 }).tbQueue t 64 (.servoStep (-(e * 2 ^ 32)))
  else
    let kp : Int := s.field (aTb t 0x20) 31 16
    let ki : Int := s.field (aTb t 0x20) 15 0
    let i0 := signedOf 32 (s.reg (aTb t 0x3C)).toNat
    let i1 := s.adjClamp t (i0 - (ki * e) / 2 ^ 16)
    let adj := s.adjClamp t (i1 - (kp * e) / 2 ^ 16)
    let s := s.setReg (aTb t 0x3C) (BitVec.ofInt 32 i1)
    let s := s.tbQueue t 64 (.rate adj)
    let ab : Int := (e.natAbs : Int)
    if ab < lockTh then
      let g := min (x.good + 1) 255
      let s := s.putTb t { s.tb t with good := g }
      if s.field (aTb t 0x24) 7 0 ≤ g then s.setFlag st 31 true else s
    else
      let s := s.putTb t { s.tb t with good := 0 }
      if 2 * lockTh ≤ ab then s.setFlag st 31 false else s

/-- No sample within HOLD_MS: holdover (R565). -/
def State.holdover (s : State) (t : Nat) : State :=
  if s.flag (aTb t 0) 31 && decide (s.field (aTb t 0) 30 28 ≠ 0) then
    let s := (s.setFlag (aTb t 0x40) 30 true).setFlag (aTb t 0x40) 31 false
    s.putAdj t (signedOf 32 (s.reg (aTb t 0x3C)).toNat)
  else s

/-- Time base `t` counts as locked (R566). -/
def State.tbLocked (s : State) (t : Nat) : Bool :=
  if s.flag (aTb t 0) 31 && decide (s.field (aTb t 0) 30 28 ≠ 0) then s.flag (aTb t 0x40) 31 else true

/-- TIM_STATUS (R573). -/
def State.timStatus (s : State) : Nat :=
  (List.range 4).foldl (fun v t => v + bitOf (s.tbLocked t) * 2 ^ (28 + t) + bitOf (s.flag (aTb t 0x40) 30) * 2 ^ (24 + t)) 0

/-! ### Pins: PPS_IN, REF10M_IN, outputs (R558, R560, R561) -/

/-- Entry `c` of the calibration table whose words stand at `a` (R464). -/
def State.calEntry (s : State) (a c : Nat) : Nat := s.field (a + 4 * (c / 4)) (8 * (c % 4) + 6) (8 * (c % 4))

/-- Time of an edge that a TDC reports in cycle `k` with tap code `c` (R436). -/
def State.tdcTime (s : State) (cal offs k c : Nat) : Int :=
  128 * (k : Int) + s.calEntry cal c + signedOf 16 (s.field offs 15 0)

/-- The PPS offset sample of an edge at `tau` (R563). UNVERIFIED: log entry 29. -/
def State.ppsSample (s : State) (t tau : Nat) : Option Int :=
  (s.tbOf t tau).map (fun v =>
    let delay := signedOf 32 (s.reg (aTim 0x20004)).toNat
    let sec : Int := 1000000000 * 65536
    let y := (v : Int) - delay
    let lo := y / sec
    let rm := y % sec
    let n := if 2 * rm < sec then lo else if sec < 2 * rm then lo + 1
      else if Config.ppsTie lo.toNat then lo + 1 else lo
    y - n * sec)

/-- A PPS_IN edge of either polarity, in cycle `k` with tap code `c` (R560, R553, R556, R563). -/
def State.ppsInEdge (s : State) (rising : Bool) (k c : Nat) : State :=
  if rising = s.flag (aTim 0x20000) 28 ∨ s.flag (aTim 0x20008) 30 then s
  else
    let tau := (s.tdcTime (aTim 0x20100) (aTim 0x2000C) k c).toNat
    let counted := match s.tim.ppsTau with | some p => decide (p + 512 ≤ tau) | none => true
    if !counted then s
    else
      let s := { s with tim := { s.tim with ppsTau := some tau, g1Load := if s.tim.g1Load = 2 then 1 else s.tim.g1Load } }
      (List.range 4).foldl (fun s t =>
        let s := match (s.tb t).onPps with
          | some v =>
            let at_ := s.dueAt 64
            let cyc := s.seq.count0 + (at_ - s.now)
            let dt := 4096 * (128 * cyc - tau) / 10
            (s.putTb t { s.tb t with onPps := none }).tbQueue t 64 (.set (v + dt * 2 ^ 32))
          | none => s
        if s.srvOn t 1 then
          match s.ppsSample t tau with
          | some e => s.servoSample t e
          | none => s
        else s) s

/-- A REF10M_IN rising edge (R558, R561, R563). -/
def State.ref10mInEdge (s : State) (k c : Nat) (ok : Bool) : State :=
  let tau := 128 * k + c / 2
  let s := s.setFlag (aTim 0x20020) 28 ok
  let n := s.tim.refEdges + 1
  let s := { s with tim := { s.tim with refEdges := n % 10000 } }
  if n = 10000 then
    (List.range 4).foldl (fun s t =>
      if s.srvOn t 2 then
        match s.tbOf t tau with
        | some v =>
          let m : Int := 100 * 65536
          let y := ((v : Int) - signedOf 32 (s.reg (aTim 0x20024)).toNat) % m
          s.servoSample t (if 2 * y < m then y else y - m)
        | none => s
      else s) s
  else s

/-- TIM_SNAP: one consistent set (R555). -/
def State.timSnap (s : State) : State :=
  let s := (List.range 4).foldl (fun s t =>
    let v := timeOf (s.tb t).t
    ((s.setReg (aTim (0x100 + 0x10 * t)) (BitVec.ofNat 32 v.sec)).setReg (aTim (0x104 + 0x10 * t))
      (BitVec.ofNat 32 v.ns)).setReg (aTim (0x108 + 0x10 * t)) (BitVec.ofNat 32 (v.sec / 2 ^ 32 * 2 ^ 16 + v.frac))) s
  let g := s.tim.g1 / 2 ^ 24
  let c := s.seq.count0
  (((s.setReg (aTim 0x140) (BitVec.ofNat 32 g)).setReg (aTim 0x144) (BitVec.ofNat 32 (g / 2 ^ 32))).setReg
    (aTim 0x148) (BitVec.ofNat 32 c)).setReg (aTim 0x14C) (BitVec.ofNat 32 (c / 2 ^ 32))

/-- The pending G1 load takes effect on its reference edge (R556). -/
def State.g1LoadDue (s : State) : State :=
  if s.tim.g1Load = 1 then
    let v := s.field (aTim 0x30004) 31 0 + s.field (aTim 0x30008) 31 0 * 2 ^ 32
    { s with tim := { s.tim with g1 := v * 2 ^ 24, g1Load := 0 } }
  else s

/-! ### PTP (R568 to R571) -/

/-- Message type of a PTP message. PRESUMED: log entry 87. -/
def ptpType (m : List Byte) : Nat := fieldLE m 0 1 % 16
/-- versionPTP. -/
def ptpVersion (m : List Byte) : Nat := fieldLE m 1 1 % 16
/-- domainNumber. PRESUMED: log entry 87. -/
def ptpDomain (m : List Byte) : Nat := fieldLE m 4 1
/-- twoStepFlag. -/
def ptpTwoStep (m : List Byte) : Bool := (fieldLE m 6 1).testBit 1
/-- correctionField, in units of 2^-16 ns. PRESUMED: log entry 87. -/
def ptpCorr (m : List Byte) : Int := signedOf 64 (beNat (bytesAt m 8 8))
/-- sourcePortIdentity. -/
def ptpSource (m : List Byte) : List Byte := bytesAt m 20 10
/-- sequenceId. -/
def ptpSeq (m : List Byte) : Nat := beNat (bytesAt m 30 2)
/-- The timestamp of the message body, in units of 2^-16 ns. -/
def ptpStamp (m : List Byte) : Nat := (beNat (bytesAt m 34 6) * 1000000000 + beNat (bytesAt m 40 4)) * 65536

/-- Servo `t` takes PTP messages of port `psel` and this domain. -/
def State.ptpOn (s : State) (t psel : Nat) (m : List Byte) : Bool :=
  s.srvOn t 3 && decide (s.field (aTb t 0) 27 20 = psel) && decide (s.field (aTb t 0) 19 12 = ptpDomain m)
    && decide (ptpVersion m = 2)

/-- Take a PTP sample: offset, and what the path delay needs (R568, R569). -/
def State.ptpSample (s : State) (t : Nat) (d : Int) : State :=
  (s.putTb t { s.tb t with t2t1 := d, sync := none }).servoSample t (d - s.field (aTb t 0x30) 31 0)

/-- A Sync received at instant 128 k + m (R568). -/
def State.ptpSync (s : State) (psel k m : Nat) (msg : List Byte) : State :=
  (List.range 4).foldl (fun s t =>
    let x := s.tb t
    if s.ptpOn t psel msg && decide (ptpType msg = 0)
        && (match x.source with | some p => decide (p = ptpSource msg) | none => true) then
      match s.tbOf t (128 * k + m) with
      | none => s
      | some t2 =>
        let s := s.putTb t { x with source := some (ptpSource msg), sync := none }
        if ptpTwoStep msg then
          s.putTb t { s.tb t with sync := some ⟨ptpSeq msg, t2, ptpCorr msg, s.now⟩ }
        else s.ptpSample t ((t2 : Int) - ptpStamp msg - ptpCorr msg)
    else s) s

/-- Lattice cycles in one second. -/
def second : Nat := 1250000000

/-- A Follow_Up received (R568). -/
def State.ptpFollowUp (s : State) (psel : Nat) (msg : List Byte) : State :=
  (List.range 4).foldl (fun s t =>
    let x := s.tb t
    match x.sync with
    | some y =>
      if s.ptpOn t psel msg && decide (ptpType msg = 8) && decide (x.source = some (ptpSource msg))
          && decide (y.seqId = ptpSeq msg) && decide (s.now ≤ y.cycle + second) then
        s.ptpSample t ((y.t2 : Int) - ptpStamp msg - (y.corr + ptpCorr msg))
      else s
    | none => s) s

/-- The Brim sends a Delay_Req on the port of servo `t` and takes t3 (R569). -/
def State.ptpDelayReq (s : State) (t k m : Nat) : State :=
  if s.srvOn t 3 then
    match s.tbOf t (128 * k + m) with
    | some t3 =>
      let x := s.tb t
      s.putTb t { x with delayReq := some (x.reqSeq, t3), reqSeq := (x.reqSeq + 1) % 65536 }
    | none => s
  else s

/-- A Delay_Resp gives t4; the Brim writes the mean path delay (R569). -/
def State.ptpDelayResp (s : State) (psel : Nat) (msg : List Byte) : State :=
  (List.range 4).foldl (fun s t =>
    let x := s.tb t
    match x.delayReq with
    | some (q, t3) =>
      if s.ptpOn t psel msg && decide (ptpType msg = 9) && decide (ptpSeq msg = q) then
        let d := (x.t2t1 + ((ptpStamp msg : Int) - t3) - ptpCorr msg) / 2
        (s.putTb t { x with delayReq := none }).setReg (aTb t 0x30) (BitVec.ofInt 32 d)
      else s
    | none => s) s

/-- Offset of the PTP message in an Ethernet frame, and whether UDP on IPv4 carries it (R568). -/
def ptpOffset (f : List Byte) : Option (Nat × Bool) :=
  let o := if beNat (bytesAt f 12 2) = 0x8100 then 16 else 12
  let et := beNat (bytesAt f o 2)
  if et = 0x88F7 then some (o + 2, false)
  else if et = 0x0800 then
    let ip := o + 2
    let hl := fieldLE f ip 1 % 16 * 4
    let dp := beNat (bytesAt f (ip + hl + 2) 2)
    if fieldLE f ip 1 / 16 = 4 ∧ fieldLE f (ip + 9) 1 = 17 ∧ (dp = 319 ∨ dp = 320) then some (ip + hl + 8, true) else none
  else none

/-- The stage of the lanes that a PSEL names (R528); a port has its first lane's. -/
def State.pselStage (s : State) (p : Nat) : Nat :=
  if p < 32 then s.field (aLan (p / 16) (0x1000 * (p % 16) + 4)) 31 29
  else
    let e := (p - 32) / 4
    min (s.field (aOpt (e / 8) (0x10000 + 0x1000 * (8 * (e % 8) + 2 * (p % 4)) + 4)) 31 29)
      (s.field (aOpt (e / 8) (0x10000 + 0x1000 * (8 * (e % 8) + 2 * (p % 4) + 1) + 4)) 31 29)

/-- Base of the frame, template and classifier registers of a PSEL: a lane or an optical port (R542, R548). -/
def aPsel (p : Nat) : Nat :=
  if p < 32 then aLan (p / 16) (0x1000 * (p % 16))
  else aOpt ((p - 32) / 32) (0x80000 + 0x1000 * ((p - 32) % 32))

/-- A valid output template stands on the lane or port. -/
def State.pselTemplate (s : State) (p : Nat) : Bool :=
  (List.range 8).any (fun t => s.flag (aPsel p + 0x200 + 0x80 * t) 31)

/-- A lane or port with nothing under construction. -/
def outPort0 : OutPort := ⟨[], [], []⟩
/-- The output side of a lane or port. -/
def State.outPort (s : State) (p : Nat) : OutPort := mapGetD s.lan.outs p outPort0
/-- Replace it. -/
def State.putOut (s : State) (p : Nat) (x : OutPort) : State :=
  { s with lan := { s.lan with outs := mapPut s.lan.outs p x outPort0 } }
/-- Send a frame on a lane or port. -/
def State.sendFrame (s : State) (p : Nat) (f : List Byte) : State :=
  s.putOut p { s.outPort p with sent := f :: (s.outPort p).sent }

/-- Count a forwarded frame discarded. -/
def State.tcDiscard (s : State) : State := s.addReg (aTim 0x40008) 1

/-- A PTP message on a transparent-clock port; the frame runs from the destination address to the byte before
the FCS (R570, R571). -/
def State.tcMessage (s : State) (psel k m : Nat) (f : List Byte) : State :=
  let mp := aTim (0x40100 + 4 * psel)
  if s.flag (aTim 0x40000) 31 && s.flag mp 31 then
    match ptpOffset f with
    | none => s
    | some (o, _) =>
      let ty := fieldLE f o 1 % 16
      if ty = 2 ∨ ty = 3 then s.tcDiscard
      else
        let peer := s.field mp 6 0
        let q := mapGetD s.tim.fwd peer []
        if 256 < f.length + 4 ∨ 16 ≤ q.length ∨ s.pselStage peer < 5 ∨ s.pselTemplate peer then s.tcDiscard
        else
          match s.tbOf (s.field (aTim 0x40000) 30 29) (128 * k + m) with
          | none => s.tcDiscard
          | some v => { s with tim := { s.tim with fwd := mapPut s.tim.fwd peer (q ++ [⟨f, v⟩]) [] } }
  else s

/-- The Ethernet frame check sequence (IEEE 802.3), in transmission order. -/
def ethFcs (f : List Byte) : List Byte :=
  leBytes 4 (crcFinal 32 true (2 ^ 32 - 1) (crcBytes 32 0x04C11DB7 true (2 ^ 32 - 1) f))

/-- Add big-endian 16-bit words into a ones-complement sum. -/
def onesSum (acc : Nat) (bs : List Byte) : Nat :=
  (chunks 2 (bs.length + 1) bs).foldl (fun a w => let t := a + beNat (bytesAt w 0 2); t % 65536 + t / 65536) acc

/-- Replace `n` bytes of a string at offset `o`. -/
def spliceAt (bs : List Byte) (o : Nat) (new : List Byte) : List Byte :=
  bs.take o ++ new ++ bs.drop (o + new.length)

/-- A forwarded message with its correctionField increased by `r` and its UDP checksum kept right (R570). -/
def tcCorrect (f : List Byte) (o : Nat) (udp : Bool) (r : Int) : List Byte :=
  let old := bytesAt f (o + 8) 8
  let c := signedOf 64 (beNat old) + r
  let new := if 2 ^ 63 ≤ c then beBytes 8 (2 ^ 63 - 1) else beBytes 8 (unsignedOf 64 c)
  let f := spliceAt f (o + 8) new
  let ck := beNat (bytesAt f (o - 2) 2)
  if udp && decide (ck ≠ 0) then
    let a := onesSum (65535 - ck) (old.map (fun b => ~~~b))
    let a := 65535 - onesSum a new
    spliceAt f (o - 2) (beBytes 2 (if a = 0 then 65535 else a))
  else f

/-- A forwarded frame leaves its egress port at instant 128 k + m (R570, R571). -/
def State.tcSend (s : State) (psel k m : Nat) : State :=
  match mapGetD s.tim.fwd psel [] with
  | [] => s
  | x :: q =>
    match s.tbOf (s.field (aTim 0x40000) 30 29) (128 * k + m), ptpOffset x.bytes with
    | some v, some (o, udp) =>
      let ty := fieldLE x.bytes o 1 % 16
      let f := if ty = 0 ∨ ty = 1 then tcCorrect x.bytes o udp ((v : Int) - x.ingress) else x.bytes
      let s := { s with tim := { s.tim with fwd := mapPut s.tim.fwd psel q [] } }
      (s.sendFrame psel (f ++ ethFcs f)).addReg (aTim 0x40004) 1
    | _, _ => s

/-! ### Meanings -/

/-- TB_SET (R553). -/
def execTbSet (t : Nat) (s : State) : Host.Outcome State Fault Refusal :=
  .next (s.only (.tbSet t) (s.tbSet t))
/-- TB_STEP (R553). -/
def execTbStep (t : Nat) (s : State) : Host.Outcome State Fault Refusal :=
  .next (s.only (.tbStep t) (s.tbStep t))
/-- TB_SET_ON_PPS (R553). -/
def execTbSetOnPps (t : Nat) (s : State) : Host.Outcome State Fault Refusal :=
  .next (s.only (.tbSetOnPps t) (s.tbSetOnPps t))
/-- MANADJ_WRITE (R551). -/
def execManadjWrite (t : Nat) (v : Word) (s : State) : Host.Outcome State Fault Refusal :=
  .next (s.only (.manadjWrite t v) (s.manadjWrite t v))
/-- G1_LOAD_NOW (R556). -/
def execG1LoadNow (s : State) : Host.Outcome State Fault Refusal := .next { s with tim := { s.tim with g1Load := 1 } }
/-- G1_LOAD_AT_PPS (R556). -/
def execG1LoadAtPps (s : State) : Host.Outcome State Fault Refusal := .next { s with tim := { s.tim with g1Load := 2 } }
/-- G1_LOAD (R556). -/
def execG1Load (s : State) : Host.Outcome State Fault Refusal := .next s.g1LoadDue
/-- TIM_SNAP (R555). -/
def execTimSnap (s : State) : Host.Outcome State Fault Refusal := .next s.timSnap
/-- TIME_BASE_UPDATE (R554). -/
def execTimeBaseUpdate (t : Nat) (s : State) : Host.Outcome State Fault Refusal :=
  .next (s.only (.timeBaseUpdate t) (s.timeBaseUpdate t))
/-- PPS_IN_EDGE (R560). -/
def execPpsInEdge (rising : Bool) (k tap : Nat) (s : State) : Host.Outcome State Fault Refusal :=
  .next (s.only (.ppsInEdge rising k tap) (s.ppsInEdge rising k tap))
/-- REF10M_IN_EDGE (R563). -/
def execRef10mInEdge (k tap : Nat) (ok : Bool) (s : State) : Host.Outcome State Fault Refusal :=
  .next (s.only (.ref10mInEdge k tap ok) (s.ref10mInEdge k tap ok))
/-- REF10M_IN_LOSS (R561). -/
def execRef10mInLoss (s : State) : Host.Outcome State Fault Refusal := .next (s.setFlag (aTim 0x20020) 28 false)
/-- HOLDOVER (R565). -/
def execHoldover (t : Nat) (s : State) : Host.Outcome State Fault Refusal :=
  .next (s.only (.holdover t) (s.holdover t))
/-- PPS_OUT_PULSE (R561): the pin idles low until READY (R724). -/
def execPpsOutPulse (s : State) : Host.Outcome State Fault Refusal :=
  .next (if s.flag (aTim 0x20000) 31 && decide (s.sys.boot = .ready) then
    { s with tim := { s.tim with ppsOut := true } } else s)
/-- PPS_OUT_PULSE_END (R561). -/
def execPpsOutPulseEnd (s : State) : Host.Outcome State Fault Refusal :=
  .next { s with tim := { s.tim with ppsOut := false } }
/-- REF10M_OUT_EDGE: a rise and 50 ns later a fall (R561). -/
def execRef10mOutEdge (s : State) : Host.Outcome State Fault Refusal :=
  .next (if s.flag (aTim 0x20020) 31 && decide (s.sys.boot = .ready) then
    { s with tim := { s.tim with refOut := !s.tim.refOut } }
    else { s with tim := { s.tim with refOut := false } })
/-- PTP_SYNC (R568). -/
def execPtpSync (psel k m : Nat) (msg : List Byte) (s : State) : Host.Outcome State Fault Refusal :=
  .next (s.only (.ptpSync psel k m msg) (s.ptpSync psel k m msg))
/-- PTP_FOLLOW_UP (R568). -/
def execPtpFollowUp (psel : Nat) (msg : List Byte) (s : State) : Host.Outcome State Fault Refusal :=
  .next (s.only (.ptpFollowUp psel msg) (s.ptpFollowUp psel msg))
/-- PTP_DELAY_REQ (R569). -/
def execPtpDelayReq (t k m : Nat) (s : State) : Host.Outcome State Fault Refusal :=
  .next (s.only (.ptpDelayReq t k m) (s.ptpDelayReq t k m))
/-- PTP_DELAY_RESP (R569). -/
def execPtpDelayResp (psel : Nat) (msg : List Byte) (s : State) : Host.Outcome State Fault Refusal :=
  .next (s.only (.ptpDelayResp psel msg) (s.ptpDelayResp psel msg))
/-- TC_PTP_MESSAGE (R570). -/
def execTcPtpMessage (psel k m : Nat) (msg : List Byte) (s : State) : Host.Outcome State Fault Refusal :=
  .next (s.only (.tcPtpMessage psel k m msg) (s.tcMessage psel k m msg))
/-- TC_FRAME_SEND (R571). -/
def execTcFrameSend (psel k m : Nat) (s : State) : Host.Outcome State Fault Refusal :=
  .next (s.only (.tcFrameSend psel k m) (s.tcSend psel k m))

end Sys2Proof.Machine
end

