-- ==== Sys2Proof/Machine/Wyile.lean ====
section
/-! DEFINITION. Wyile links: configuration, data slots, frames, replay, service messages, training, time
exchange (R578 to R613). A link is named by its package number n, entry n mod 16 of die n div 16 (R578). -/

namespace Sys2Proof.Machine

/-! ### Links and their lanes -/

/-- A link with nothing queued. -/
def wylLink0 : WylLink := ⟨[], 0, [], [], [], none⟩
/-- A lane with nothing sent or received. -/
def wylLane0 : WylLane := ⟨[], [], [], none, none, 0, 0, none, [], none, none, []⟩

/-- Package number of local link `i` of die `d`. -/
def linkNo (d i : Nat) : Nat := 16 * d + i

/-- Register of link `n` at offset `o` of its group. -/
def aLink (n o : Nat) : Nat := aWyl (n / 16) (0x100 + 0x40 * (n % 16) + o)

/-- Link `n`. -/
def State.wlink (s : State) (n : Nat) : WylLink := mapGetD s.wyl.links n wylLink0
/-- Replace link `n`. -/
def State.putWlink (s : State) (n : Nat) (x : WylLink) : State :=
  { s with wyl := { s.wyl with links := mapPut s.wyl.links n x wylLink0 } }
/-- Lane `x` of link `n`. -/
def State.wlane (s : State) (n x : Nat) : WylLane := mapGetD s.wyl.lanes (8 * n + x) wylLane0
/-- Replace lane `x` of link `n`. -/
def State.putWlane (s : State) (n x : Nat) (v : WylLane) : State :=
  { s with wyl := { s.wyl with lanes := mapPut s.wyl.lanes (8 * n + x) v wylLane0 } }

/-- Number of lanes of a link (R578). -/
def State.linkLanes (s : State) (n : Nat) : Nat := if s.flag (aLink n 0) 30 then 8 else s.field (aLink n 0) 29 28 + 1
/-- LSEL of lane `x` of a link (R507). -/
def State.linkLsel (s : State) (n x : Nat) : Nat :=
  let f := s.field (aLink n 0) 27 24
  if s.flag (aLink n 0) 30 then 32 + 64 * (n / 16) + 8 * (f % 8) + x else 16 * (n / 16) + (f + x) % 16
/-- Endpoint of lane `x` of a link on its die (R216). -/
def State.linkEp (s : State) (n x : Nat) : Nat :=
  let f := s.field (aLink n 0) 27 24
  if s.flag (aLink n 0) 30 then 0x1C0 + 4 * (f % 8) + x / 2 else 0x1B0 + (f + x) % 16
/-- The link is enabled. -/
def State.linkEn (s : State) (n : Nat) : Bool := s.flag (aLink n 0) 31
/-- The link is trained. -/
def State.linkUp (s : State) (n : Nat) : Bool := s.flag (aLink n 8) 31
/-- L of a link. -/
def State.linkL (s : State) (n : Nat) : Nat := s.field (aLink n 4) 15 0
/-- B of a link. -/
def State.linkB (s : State) (n : Nat) : Nat := s.field (aLink n 4) 31 16
/-- Service slots per frame (R580). -/
def State.linkSvc (s : State) (n : Nat) : Nat := min 4 (s.field (aLink n 0) 23 21)

/-- Configuration register of a physical lane (R542, R548). -/
def aLane (l o : Nat) : Nat :=
  if l < 32 then aLan (l / 16) (0x1000 * (l % 16) + o)
  else aOpt ((l - 32) / 64) (0x10000 + 0x1000 * ((l - 32) % 64) + o)

/-- Frame period of a rate code (R579). -/
def wylPeriod (rate : Nat) : Nat := if rate = 4 then 32 else if rate = 0x0A then 8 else 16
/-- Line bits per period in tenths (R579). -/
def wylLineBits (rate : Nat) : Nat := if rate = 6 then 14336 else 13600
/-- Rate code of a link's lanes. -/
def State.linkRate (s : State) (n : Nat) : Nat := s.field (aLane (s.linkLsel n 0) 0) 28 24
/-- Frame period of a link. -/
def State.linkP (s : State) (n : Nat) : Nat := wylPeriod (s.linkRate n)

/-- Lane of a link and slot that carry a token delivered to endpoint `ep` in cycle `c` (R579). -/
def State.wylPlace (s : State) (n ep c : Nat) : Nat × Nat :=
  if s.flag (aLink n 0) 30 then (2 * (ep % 4) + c % 2, c % 8 / 2)
  else
    let p := s.linkP n
    ((ep - 0x1B0 + 16 - s.field (aLink n 0) 27 24) % 16, c % p / (p / 4))

/-- The enabled link of die `d` whose endpoints include `ep`. -/
def State.linkAt (s : State) (d ep : Nat) : Option Nat :=
  ((List.range 16).map (linkNo d)).find? (fun n =>
    s.linkEn n && (List.range (s.linkLanes n)).any (fun x => decide (s.linkEp n x = ep)))

/-- Hand a token to a Wyile endpoint of die `d` in cycle `c` (R584, R587). -/
def State.wylHand (s : State) (d ep c : Nat) (t : Token) : State :=
  match s.linkAt d ep with
  | none => s
  | some n =>
    if !s.linkUp n then s.addReg (aLink n 0x18) 1
    else
      let (x, j) := s.wylPlace n ep c
      let p := s.linkP n
      let v := s.wlane n x
      s.putWlane n x { v with tx := v.tx ++ [⟨p * (c / p + 1), j, t⟩] }

/-! ### Service messages (R595 to R599) -/

/-- Sending class of a type (R597). -/
def svcClass (t : Nat) : Nat := if t = 4 ∨ t = 5 then 0 else if t = 1 then 1 else if t = 3 then 2 else 3

/-- Insert a message behind those of its class and of earlier ones. -/
def svcInsert (m : SvcMsg) : List SvcMsg → List SvcMsg
  | [] => [m]
  | x :: xs => if svcClass m.mtype < svcClass x.mtype then m :: x :: xs else x :: svcInsert m xs

/-- Queue a service message on link `n`, or drop it (R597). -/
def State.svcSend (s : State) (n : Nat) (m : SvcMsg) : State :=
  let k := s.wlink n
  if m.mtype ≠ 2 ∧ 64 ≤ (k.queue.filter (fun x => decide (x.mtype = m.mtype))).length then
    s.addReg (aWyl 0 8) 1
  else s.putWlink n { k with queue := svcInsert m k.queue }

/-- Count a message discarded. -/
def State.badMsg (s : State) : State := s.addReg (aWyl 0 0xC) 1

/-- Own package number. -/
def State.pkg (s : State) : Nat := s.field (aWyl 0 0) 11 0

/-- Types that are forwarded (R596). -/
def svcForwarded (t : Nat) : Bool := decide (t = 1 ∨ t = 2)

/-- Send a message towards its package by WYL_ROUTE (R599); `hops` is the count it leaves with. PRESUMED: log entry 92. -/
def State.svcRoute (s : State) (m : SvcMsg) : State :=
  let r := aWyl 0 (0x20000 + 4 * m.dst)
  if 15 ≤ m.hops ∨ ¬ s.flag r 31 ∨ ¬ svcForwarded m.mtype then s.badMsg
  else s.svcSend (s.field r 4 0) m

/-- Deliver a received message: to the inbox, onward, or nowhere (R596, R599). PRESUMED: log entry 92. -/
def State.svcReceive (s : State) (n : Nat) (m : SvcMsg) : State :=
  if m.mtype = 0 ∨ 6 < m.mtype then s.badMsg
  else if m.dst ≠ s.pkg then s.svcRoute { m with hops := m.hops + 1 }
  else
    let k := s.wlink n
    s.putWlink n { k with inbox := k.inbox ++ [m] }

/-- Take the oldest delivered message of a type from link `n`. PRESUMED: log entry 92. -/
def State.svcTake (s : State) (n t : Nat) : Option (SvcMsg × State) :=
  let k := s.wlink n
  match k.inbox.find? (fun m => decide (m.mtype = t)) with
  | none => none
  | some m => some (m, s.putWlink n { k with inbox := k.inbox.erase m })

/-- The segments of a message, each a slot of 40 bytes (R583, R595). -/
def svcSegments (m : SvcMsg) (id : Nat) : List (List Byte) :=
  let ns := max 1 (min 16 (ceilDiv m.body.length 32))
  (List.range ns).map (fun i =>
    leBytes 4 (m.mtype * 2 ^ 28 + (ns - 1) * 2 ^ 24 + i * 2 ^ 20 + m.dst % 4096 * 2 ^ 8 + m.hops % 16 * 2 ^ 4 + id % 16)
      ++ bytesAt m.body (32 * i) 32 ++ List.replicate 4 0)

/-- Choose the messages whose segments all fit in `cap` slots, in queue order; the others stay. -/
def svcPack (id : Nat) : Nat → List SvcMsg → List (List Byte) × List SvcMsg × Nat
  | _, [] => ([], [], id)
  | cap, m :: ms =>
    let sg := svcSegments m id
    if sg.length ≤ cap then
      let (a, b, i) := svcPack (id + 1) (cap - sg.length) ms
      (sg ++ a, b, i)
    else
      let (a, b, i) := svcPack id cap ms
      (a, m :: b, i)

/-- Plan the service slots of the frames of one period over the lanes of link `n` (R597). -/
def State.svcPlan (s : State) (n : Nat) : State :=
  let k := s.wlink n
  let v := s.linkSvc n
  let ln := s.linkLanes n
  let (sg, rest, id) := svcPack k.msgId (ln * v) k.queue
  let s := s.putWlink n { k with queue := rest, msgId := id % 16 }
  (List.range ln).foldl (fun s x =>
    s.putWlane n x { s.wlane n x with plan := (sg.drop (x * v)).take v }) s

/-! ### Frames (R582, R583, R592) -/

/-- Slot bytes of a token. -/
def tokenSlot (t : Token) : List Byte := leBytes 32 t.payload.toNat ++ leBytes 4 t.par.toNat ++ leBytes 4 t.side.toNat

/-- Token of a data slot. -/
def slotToken (b : List Byte) : Token :=
  ⟨BitVec.ofNat 256 (fieldLE b 0 32), BitVec.ofNat 32 (fieldLE b 32 4), BitVec.ofNat 32 (fieldLE b 36 4)⟩

/-- The header, slots and CRC of a frame. -/
def frameBytes (f : WylFrame) (replay : Bool) (nak : Option Nat) : List Byte :=
  let (nv, nf) := match nak with | some k => (1, k % 4096) | none => (0, 0)
  let hd := leBytes 4 (f.num % 4096 * 2 ^ 20 + bitOf replay * 2 ^ 19 + nv * 2 ^ 18 + nf * 2 ^ 6 + f.valid.toNat)
  let b := hd ++ f.slots.foldl (· ++ ·) []
  b ++ leBytes 4 (crc32c (2 ^ 32 - 1) b).toNat

/-- The new frame of lane `x` for the period that starts at `q`. -/
def State.frameNew (s : State) (n x q : Nat) : WylFrame :=
  let v := s.wlane n x
  let svc := s.linkSvc n
  let slot := fun j =>
    if s.linkUp n then
      if j < 4 - svc then
        (v.tx.find? (fun t => decide (t.period = q) && decide (t.slot = j))).map (fun t => tokenSlot t.tok)
      else v.plan[j - (4 - svc)]?
    else
      let e := match (s.wlink n).peer with | some m => m.count | none => 0
      some (leBytes 4 (6 * 2 ^ 28 + s.field (aLink n 0) 11 0 * 2 ^ 8)
        ++ bytesAt (Config.trainBody (s.pkg * 2 ^ 5 + n) (s.linkL n) (s.linkB n) q e) 0 32 ++ List.replicate 4 0)
  let sl := (List.range 4).map slot
  ⟨q / s.linkP n, BitVec.ofNat 4 ((List.range 4).foldl (fun a j => a + bitOf ((sl.getD j none).isSome) * 2 ^ j) 0),
   sl.map (fun o => o.getD (List.replicate 40 0))⟩

/-- Valid data slots of a frame. -/
def frameData (svc : Nat) (f : WylFrame) : Nat :=
  ((List.range (4 - svc)).filter (fun j => f.valid.toNat.testBit j)).length

/-- Keep a sent frame until 16 frames of higher number have been sent (R592). -/
def keepFrame (svc : Nat) (v : WylLane) (f : WylFrame) : WylLane :=
  let l := f :: v.kept
  { v with kept := l.take 16
           past := ((l.drop 16).map (fun g => (g.num, frameData svc g)) ++ v.past).take 4096 }

/-- CATCHUP of a link (R592). -/
def State.wylCatchup (s : State) (n : Nat) : State :=
  s.setFlag (aLink n 8) 27 ((List.range (s.linkLanes n)).any (fun x => decide (0 < (s.wlane n x).behind)))

/-! ### The control channel, outwards (R601, R635) -/

/-- WYL_CTL_CFG[MASTER]. -/
def State.master (s : State) : Nat := s.field (aWyl 0 4) 11 0

/-- The link on which messages to the master leave: its route, or a link whose peer it is. -/
def State.ctlLink (s : State) : Option Nat :=
  let r := aWyl 0 (0x20000 + 4 * s.master)
  if s.flag r 31 then some (s.field r 4 0)
  else (List.range 32).find? (fun n => s.linkEn n && decide (s.field (aLink n 0) 11 0 = s.master))

/-- Highest CSEQ accepted in order; before the first, the number below it. -/
def State.ctlAck (s : State) : Nat := match s.wyl.ctl.accepted with | some k => k | none => 2 ^ 16 - 1

/-- Header of a CONTROL message. -/
def ctlHead (seq ack : Nat) (ackOnly : Bool) : List Byte :=
  leBytes 2 seq ++ leBytes 2 ack ++ [BitVec.ofNat 8 (bitOf ackOnly), 0#8, 0#8, 0#8]

/-- Queue a CONTROL message for the master. -/
def State.ctlPut (s : State) (body : List Byte) : State :=
  match s.ctlLink with | some n => s.svcSend n ⟨2, s.master, 0, body⟩ | none => s

/-- Send a numbered message to the master, and keep it until it is acknowledged. DEDUCED: log entry 18. -/
def State.ctlMessage (s : State) (b : List Byte) : State :=
  let k := s.wyl.ctl
  let body := ctlHead k.nextSeq s.ctlAck false ++ b
  State.ctlPut { s with wyl := { s.wyl with ctl := { k with nextSeq := (k.nextSeq + 1) % 2 ^ 16, unacked := k.unacked ++ [(k.nextSeq, body)] } } } body

/-- Tell the master of new bits of the port's CTL_IRQ_STATUS, then of each unread completion, while fewer than 16 messages
wait for their acknowledgement. -/
def State.ctlFlush (s : State) : Nat → State
  | 0 => s
  | fuel + 1 =>
    let k := s.wyl.ctl
    let st := s.reg (aCtl 0x148)
    let x := s.port .wyile
    if !s.flag (aWyl 0 4) 31 ∨ 16 ≤ k.unacked.length then s
    else if st &&& ~~~k.told ≠ 0 then
      State.ctlFlush (State.ctlMessage { s with wyl := { s.wyl with ctl := { k with told := st } } } ([0xFD#8] ++ leBytes 4 st.toNat)) fuel
    else
      match x.unread with
      | [] => s
      | c :: cs => State.ctlFlush ((s.putPort .wyile { x with unread := cs }).ctlMessage ([0xFE#8] ++ completionBytes .wyile false c ++ c.extra)) fuel

/-- A lane sends its next frame, or a replay (R579, R592, R593). -/
def State.wyileFrameSend (s : State) (d i x : Nat) : State :=
  let n := linkNo d i
  if !s.linkEn n ∨ s.linkLanes n ≤ x then s
  else
    let lsel := s.linkLsel n x
    let out := fun (s : State) (b : List Byte) => s.sendFrame (100 + lsel) b
    let v := s.wlane n x
    match v.replay.bind (fun k => v.kept.find? (fun f => decide (f.num = k))) with
    | some f =>
      let s := s.putWlane n x { v with replay := none, nak := none, asked := v.nak.orElse (fun _ => v.asked)
                                       behind := v.behind + 1 }
      let s := (s.addReg (aLink n 0x10) 1).bucketAdd d 3 1
      (out s (frameBytes f true v.nak)).wylCatchup n
    | none =>
      let p := s.linkP n
      let now := s.cycle d / p * p
      let q := if 0 < v.behind then v.next.getD now else now
      let s := if x = 0 ∧ s.linkUp n then (s.ctlFlush 17).svcPlan n else s
      let v := s.wlane n x
      let f := s.frameNew n x q
      let lb := wylLineBits (s.linkRate n)
      let g := v.gained + (lb - 13440)
      let (bh, gn) := if v.behind = 0 then (0, 0) else if lb ≤ g then (v.behind - 1, g - lb) else (v.behind, g)
      let w := keepFrame (s.linkSvc n) v f
      let s := s.putWlane n x { w with tx := v.tx.filter (fun t => decide (q < t.period)), plan := []
                                       next := some (q + p), behind := bh, gained := gn, nak := none
                                       asked := v.nak.orElse (fun _ => v.asked) }
      (out s (frameBytes f false v.nak)).wylCatchup n

/-! ### Loss of a link (R590, R594) -/

/-- Discard the replay state of a lane. -/
def laneFresh (v : WylLane) : WylLane :=
  { v with kept := [], past := [], next := none, replay := none, behind := 0, gained := 0, high := none
           missing := [], nak := none, asked := none }

/-- Discard the replay state of every lane of link `n`. UNVERIFIED: log entry 31. -/
def State.wylFresh (s : State) (n : Nat) : State :=
  (List.range 8).foldl (fun s x => s.putWlane n x (laneFresh (s.wlane n x))) s

/-- A link is untrained; its lanes leave stage 6 (R581). -/
def State.wylDown (s : State) (n : Nat) : State :=
  let s := (s.setFlag (aLink n 8) 31 false).setFlag (aLink n 8) 27 false
  let s := (s.wylFresh n).putWlink n { s.wlink n with peer := none }
  (List.range (s.linkLanes n)).foldl (fun s x =>
    let a := aLane (s.linkLsel n x) 4
    if s.field a 31 29 = 6 then s.setField a 31 29 5 else s) s

/-- A TRAINED link returns to untrained and records the loss (R590). -/
def State.wylUntrain (s : State) (n : Nat) : State :=
  if s.linkUp n then (s.setFlag (aLink n 8) 28 true).wylDown n else s

/-- A replay request of the peer for frame number `k` modulo 4,096 (R592, R594). -/
def State.wylRequest (s : State) (n x k : Nat) : State :=
  let v := s.wlane n x
  match v.kept.find? (fun f => decide (f.num % 4096 = k)) with
  | some f => s.putWlane n x { v with replay := some f.num }
  | none =>
    match v.past.find? (fun f => decide (f.1 % 4096 = k)) with
    | some f => (s.addReg (aLink n 0x18) f.2).wylUntrain n
    | none => s.wylUntrain n

/-- A failed reception: the number to request (R591), counted in WYL_CRC_CNT and the bucket (R593). -/
def State.wylFailed (s : State) (d n x : Nat) : State :=
  let v := s.wlane n x
  let k := match v.missing, v.high with
    | m :: _, _ => some m
    | [], some h => some (h + 1)
    | [], none => none
  ((s.putWlane n x { v with nak := k }).addReg (aLink n 0x14) 1).bucketAdd d 3 1

/-- Full number of a received frame, from its number modulo 4,096 and the receiver's count (R584). -/
def frameNumber (p c k : Nat) : Nat :=
  let top := c / p + 1
  let b := top / 4096 * 4096 + k
  if top < b then b - 4096 else b

/-- Deliver the data slots of a good frame: each token stands at its endpoint from c + L + B on (R584). -/
def State.wylTokens (s : State) (d n x : Nat) (num : Nat) (valid : Nat) (slots : List (List Byte)) : State :=
  let p := s.linkP n
  let ep := s.linkEp n x
  let key := 512 * d + ep
  (List.range (4 - s.linkSvc n)).foldl (fun s j =>
    if valid.testBit j then
      let off := if s.flag (aLink n 0) 30 then 2 * j + x % 2 else p / 4 * j
      let c := num * p - p + off
      let (k, s) := s.nextTok
      let t : Passage := ⟨⟨slotToken (slots.getD j []), 0, false, s.now, k⟩, c + s.linkL n + s.linkB n, c + s.linkL n + s.linkB n, 0⟩
      let q := mapGetD s.lat.fabIn key []
      { s with lat := { s.lat with fabIn := mapPut s.lat.fabIn key (q ++ [t]) [] } }
    else s) s

/-- Take the service segments of a good frame; a completed message is delivered (R595, R598). -/
def State.wylSegments (s : State) (n : Nat) (valid : Nat) (slots : List (List Byte)) : State :=
  (List.range 4).foldl (fun s j =>
    if valid.testBit j ∧ 4 - s.linkSvc n ≤ j then
      let b := slots.getD j []
      let h := fieldLE b 0 4
      let key := 16 * bitsOf h 31 28 + bitsOf h 3 0
      let k := s.wlink n
      let ps := mapGetD k.parts key [] ++ [(bitsOf h 23 20, bytesAt b 4 32)]
      let ns := bitsOf h 27 24 + 1
      if ps.length < ns then s.putWlink n { k with parts := mapSet k.parts key ps }
      else
        let body := (List.range ns).foldl (fun l i =>
          l ++ (match ps.find? (fun e => decide (e.1 = i)) with | some e => e.2 | none => List.replicate 32 0)) []
        (s.putWlink n { k with parts := mapErase k.parts key }).svcReceive n
          ⟨bitsOf h 31 28, bitsOf h 19 8, bitsOf h 7 4, body⟩
    else s) s

/-- A lane receives a frame of 168 bytes; `ok` says that the lane held lock within it (R591 to R594). -/
def State.wyileFrameReceive (s : State) (d i x : Nat) (b : List Byte) (ok : Bool) : State :=
  let n := linkNo d i
  if !s.linkEn n ∨ s.linkLanes n ≤ x then s
  else if !ok ∨ crc32c (2 ^ 32 - 1) (b.take 164) ≠ BitVec.ofNat 32 (fieldLE b 164 4) then s.wylFailed d n x
  else
    let h := fieldLE b 0 4
    let num := frameNumber (s.linkP n) (s.cycle d) (bitsOf h 31 20)
    let v := s.wlane n x
    let v := match v.high with
      | none => { v with high := some num }
      | some hi =>
        if hi < num then
          { v with high := some num, missing := v.missing ++ (List.range (num - hi - 1)).map (fun k => hi + 1 + k) }
        else { v with missing := v.missing.filter (fun k => decide (k ≠ num)) }
    let v := if v.asked = some num then { v with asked := none, nak := v.missing.head? } else v
    let s := s.putWlane n x v
    if !s.linkUp n then s
    else
      let slots := (List.range 4).map (fun j => bytesAt b (4 + 40 * j) 40)
      let s := s.wylTokens d n x num (bitsOf h 3 0) slots
      let s := s.wylSegments n (bitsOf h 3 0) slots
      if h.testBit 18 then s.wylRequest n x (bitsOf h 17 6) else s

/-- A replay that has not arrived is requested again (R591). -/
def State.nakRetry (s : State) (d i x : Nat) : State :=
  let n := linkNo d i
  let v := s.wlane n x
  match v.asked with
  | some k => s.putWlane n x { v with nak := some (v.missing.head?.getD k) }
  | none => s

/-! ### Training (R588) -/

/-- The round trips are complete: the checks of R588 in order. -/
def State.wyileTrainingDone (s : State) (d i : Nat) (trips : List Nat) : State :=
  let n := linkNo d i
  let ready := s.linkEn n && (List.range (s.linkLanes n)).all (fun x =>
    decide (5 ≤ s.field (aLane (s.linkLsel n x) 4) 31 29))
  if !ready ∨ s.linkUp n then s
  else
    let rtt := trips.foldl max 0
    let m := (rtt + 1) / 2
    let p := s.linkP n
    let c := aLink n 0
    let peer := match (s.wlink n).peer with
      | some t => decide (t.pkg = s.field c 11 0 ∧ t.link = s.field c 20 16 ∧ t.lat = s.linkL n ∧ t.bud = s.linkB n)
      | none => false
    let fits := decide (m ≤ 7 * p ∧ m + p + 6 ≤ s.linkL n ∧ 2 * m + 2 * p ≤ s.linkB n)
    let st := aLink n 8
    let s := s.setReg (aLink n 0xC) (BitVec.ofNat 32 (min 65535 rtt * 65536 + min 65535 m))
    let s := (s.setFlag st 30 (!peer)).setFlag st 29 (peer && !fits)
    if peer && fits then
      let s := (s.wylFresh n).setFlag st 31 true
      (List.range (s.linkLanes n)).foldl (fun s x => s.setField (aLane (s.linkLsel n x) 4) 31 29 6) s
    else s

/-- FRAMED of WYL_LINK_STATUS (R610). -/
def State.linkFramed (s : State) (n : Nat) : Nat :=
  (List.range (s.linkLanes n)).foldl (fun v x =>
    v + bitOf (decide (5 ≤ s.field (aLane (s.linkLsel n x) 4) 31 29)) * 2 ^ x) 0

/-- BARRIER release on the links: frames restart on the new count (R604). DEDUCED: log entry 59. -/
def State.wylBarrier (s : State) : State :=
  (List.range 32).foldl (fun s n =>
    let s := s.wylFresh n
    let s := (List.range 8).foldl (fun s x => s.putWlane n x { s.wlane n x with tx := [], plan := [] }) s
    s.putWlink n { s.wlink n with queue := [], parts := [] }) s

/-! ### Time exchange (R603) -/

/-- Send a TIME_REQ whose frame's first header bit leaves at instant 128 k + m. -/
def State.timeReqSend (s : State) (d i k m : Nat) : State :=
  let n := linkNo d i
  let q := (s.wlink n).queue.filter (fun x => decide (x.mtype = 4))
  if s.flag (aLink n 0x1C) 31 && s.linkUp n then
    let s := if q.length < 64 then
        s.putWlink n { s.wlink n with t1 := (List.range 4).map (fun t => (s.tbOf t (128 * k + m)).getD 0) }
      else s
    s.svcSend n ⟨4, s.field (aLink n 0) 11 0, 0, [BitVec.ofNat 8 (s.field (aLink n 0x1C) 30 29)] ++ List.replicate 31 0⟩
  else s

/-- Answer a TIME_REQ with t2 and t3, its instants given in this package's count. -/
def State.timeReqAnswer (s : State) (d i k2 m2 k3 m3 : Nat) : State :=
  let n := linkNo d i
  match s.svcTake n 4 with
  | none => s
  | some (q, s) =>
    let t := fieldLE q.body 0 1 % 4
    match s.tbOf t (128 * k2 + m2), s.tbOf t (128 * k3 + m3) with
    | some a, some b =>
      s.svcSend n ⟨5, s.field (aLink n 0) 11 0, 0, timeBytes (timeOf16 a) ++ timeBytes (timeOf16 b) ++ List.replicate 8 0⟩
    | _, _ => s

/-- A 12-byte time value in units of 2^-16 ns. -/
def time16 (b : List Byte) : Nat :=
  (fieldLE b 0 6 * 1000000000 + fieldLE b 6 4) * 65536 + fieldLE b 10 2

/-- A TIME_RSP completes the offset sample of every servo that names the link. -/
def State.timeRspTake (s : State) (d i k m : Nat) : State :=
  let n := linkNo d i
  match s.svcTake n 5 with
  | none => s
  | some (q, s) =>
    let t1 := (s.wlink n).t1
    let s := s.putWlink n { s.wlink n with t1 := [] }
    if t1 = [] then s
    else
      (List.range 4).foldl (fun s t =>
        if s.srvOn t 4 && decide (s.field (aTb t 0) 27 20 = n) then
          match s.tbOf t (128 * k + m) with
          | some t4 =>
            let t2 := time16 (bytesAt q.body 0 12)
            let t3 := time16 (bytesAt q.body 12 12)
            s.servoSample t (((((t1.getD t 0 : Nat) : Int) - t2) + ((t4 : Int) - t3)) / 2)
          | none => s
        else s) s

/-! ### Register writes with behaviour (R607) -/

/-- A write of WYL_PKG has no effect while a link is enabled. -/
def State.wylPkgWrite (s : State) (v : Word) : State :=
  if (List.range 32).any (fun n => s.linkEn n) then s else s.setReg (aWyl 0 0) (v &&& 0xFFF#32)

/-- A write of WYL_LINK_CFG while EN is 1 changes only EN; clearing EN ends the training. -/
def State.wylCfgWrite (s : State) (n : Nat) (v : Word) : State :=
  let a := aLink n 0
  if s.linkEn n then
    let s := s.setFlag a 31 (v.toNat.testBit 31)
    if v.toNat.testBit 31 then s else s.wylDown n
  else s.setReg a (v &&& 0xFFFF0FFF#32)

/-- A write of WYL_LINK_LAT while EN is 1 has no effect. -/
def State.wylLatWrite (s : State) (n : Nat) (v : Word) : State :=
  if s.linkEn n then s else s.setReg (aLink n 4) v

/-! ### Meanings -/

/-- WYILE_FRAME_SEND (R592). -/
def execWyileFrameSend (d i x : Nat) (s : State) : Host.Outcome State Fault Refusal :=
  .next (s.only (.wyileFrameSend d i x) (s.wyileFrameSend d i x))
/-- WYILE_FRAME_RECEIVE (R591). -/
def execWyileFrameReceive (d i x : Nat) (b : List Byte) (ok : Bool) (s : State) : Host.Outcome State Fault Refusal :=
  .next (s.only (.wyileFrameReceive d i x b ok) (s.wyileFrameReceive d i x b ok))
/-- NAK_RETRY (R591). DESIGN CHOICE: log entry 3. -/
def execNakRetry (d i x : Nat) (s : State) : Host.Outcome State Fault Refusal :=
  .next (s.only (.nakRetry d i x) (s.nakRetry d i x))
/-- TRAIN (R588): the peer's values are held; they are taken only while the link trains. -/
def execTrain (d i : Nat) (m : TrainMsg) (s : State) : Host.Outcome State Fault Refusal :=
  .next (s.only (.train d i m) (if s.linkUp (linkNo d i) then s
    else s.putWlink (linkNo d i) { s.wlink (linkNo d i) with peer := some m }))
/-- WYILE_TRAINING_DONE (R588). -/
def execWyileTrainingDone (d i : Nat) (trips : List Nat) (s : State) : Host.Outcome State Fault Refusal :=
  .next (s.only (.wyileTrainingDone d i trips) (s.wyileTrainingDone d i trips))
/-- TRAINING_RETRY (R588): training starts again from its first message. DESIGN CHOICE: log entry 3. -/
def execTrainingRetry (d i : Nat) (s : State) : Host.Outcome State Fault Refusal :=
  .next (s.only (.trainingRetry d i) (if s.linkEn (linkNo d i) && !s.linkUp (linkNo d i) then
    (s.wylFresh (linkNo d i)).putWlink (linkNo d i) { s.wlink (linkNo d i) with peer := none } else s))
/-- TIME_REQ_SEND (R603). -/
def execTimeReqSend (d i k m : Nat) (s : State) : Host.Outcome State Fault Refusal :=
  .next (s.only (.timeReqSend d i k m) (s.timeReqSend d i k m))
/-- TIME_REQ (R603). -/
def execTimeReq (d i k2 m2 k3 m3 : Nat) (s : State) : Host.Outcome State Fault Refusal :=
  .next (s.only (.timeReq d i k2 m2 k3 m3) (s.timeReqAnswer d i k2 m2 k3 m3))
/-- TIME_RSP (R603). -/
def execTimeRsp (d i k m : Nat) (s : State) : Host.Outcome State Fault Refusal :=
  .next (s.only (.timeRsp d i k m) (s.timeRspTake d i k m))

end Sys2Proof.Machine
end

