-- ==== Sys2Proof/Machine/Ingest.lean ====
section
/-! DEFINITION. The stream map, source frames, event instances and the lattice side of admission
(R100 to R103, R213, R214, R339 to R341, R348 to R350, R410 to R423). -/

namespace Sys2Proof.Machine

/-! ### The stream map (R410 to R416) -/

/-- CAP_SMAP register `k` of stream `st` on die `d`. -/
def aSmap (d st k : Nat) : Nat := aCap d (0x100000 + 0x10 * st + 4 * k)
/-- CAP_FIELD_LO of entry `f`. -/
def aField (d f : Nat) : Nat := aCap d (0x140000 + 8 * (f % 4096))
/-- Stream register `k` at 0x20_0000: SEQ_LO, SEQ_HI, REFUSED, CLOSED. -/
def aStrm (d st k : Nat) : Nat := aCap d (0x200000 + 0x10 * st + 4 * k)

/-- A field of a stream (R411). -/
structure FieldDef where
  offset : Nat
  len    : Nat
  fmt    : Nat
  bswap  : Bool
  qen    : Bool
  qent   : Nat
  deriving DecidableEq, Repr

/-- Fields of stream `st` on die `d`, in field order. -/
def State.fields (s : State) (d st : Nat) : List FieldDef :=
  let b := s.field (aSmap d st 0) 11 0
  (List.range (s.field (aSmap d st 0) 17 14 + 1)).map (fun i =>
    let a := aField d (b + i)
    ⟨s.field a 31 16, s.field a 15 4 + 1, s.field a 3 1, s.flag a 0, s.flag (a + 4) 31, s.field (a + 4) 11 0⟩)

/-- Bytes of one element of a field format. -/
def fieldBytes (fmt : Nat) : Nat := fieldWidth fmt / 8

/-- VALID of a map entry. -/
def State.smapValid (s : State) (d st : Nat) : Bool := s.flag (aSmap d st 0) 31
/-- Raw bytes of an event before padding. -/
def State.rawLen (s : State) (d st : Nat) : Nat := (s.fields d st).foldl (fun n f => n + f.len) 0
/-- TPE: raw tokens per event (R414). -/
def State.tpe (s : State) (d st : Nat) : Nat := ceilDiv (s.rawLen d st) 32
/-- ADM_DEPTH + 1. -/
def State.admDepth (s : State) (d st : Nat) : Nat := s.field (aSmap d st 2) 31 28 + 1

/-- Streams whose map entry is VALID on die `d`; a VALID entry differs from its reset value, so it is listed. -/
def State.validStreams (s : State) (d : Nat) : List Nat :=
  s.regs.filterMap (fun e =>
    let o := e.1 - aCap d 0x100000
    if aCap d 0x100000 ≤ e.1 ∧ o < 0x40000 ∧ o % 16 = 0 ∧ e.2.toNat.testBit 31 then some (o / 16) else none)

/-- Tokens of the die's admission pool that the valid streams claim. -/
def State.poolUsed (s : State) (d : Nat) : Nat :=
  (s.validStreams d).foldl (fun n st => n + s.admDepth d st * s.tpe d st) 0

/-- CAP_SMAP3[BAD] (R414). -/
def State.smapBad (s : State) (d st : Nat) : Bool :=
  s.smapValid d st
    && !((s.fields d st).all (fun f => decide (f.fmt ≤ 6) && decide (f.len % fieldBytes f.fmt = 0))
      && decide (s.tpe d st ≤ 256) && periodOk (s.field (aSmap d st 1) 31 16 + 1)
      && decide (s.poolUsed d ≤ 65536))

/-- The stream is VALID on both dies (R410). -/
def State.dupStream (s : State) (st : Nat) : Bool := s.smapValid 0 st && s.smapValid 1 st

/-- The entry is in force: VALID, not BAD, not doubled. -/
def State.streamOn (s : State) (d st : Nat) : Bool :=
  s.smapValid d st && !s.smapBad d st && !s.dupStream st

/-- Next event sequence number of stream `st` on die `d` (R416). -/
def State.nextSeq (s : State) (d st : Nat) : Nat :=
  s.field (aStrm d st 0) 31 0 + s.field (aStrm d st 1) 15 0 * 2 ^ 32
/-- Set it. -/
def State.setSeq (s : State) (d st v : Nat) : State :=
  (s.setReg (aStrm d st 0) (BitVec.ofNat 32 v)).setReg (aStrm d st 1) (BitVec.ofNat 32 (v / 2 ^ 32 % 65536))

/-- A stream with nothing formed or waiting. -/
def stream0 : Stream := ⟨[], [], false, none⟩
/-- Admission of stream `st` on die `d`. -/
def State.strm (s : State) (d st : Nat) : Stream := mapGetD s.cap.streams (16384 * d + st) stream0
/-- Replace it. -/
def State.putStrm (s : State) (d st : Nat) (x : Stream) : State :=
  { s with cap := { s.cap with streams := mapPut s.cap.streams (16384 * d + st) x stream0 } }

/-- Partitions with an image, in number order. -/
def State.loadedParts (s : State) : List (Nat × Partition × Loaded) :=
  s.parts.filterMap (fun e => e.2.image.map (fun im => (e.1, e.2, im)))

/-- The partition and program whose entry stream is `st`. -/
def State.entryOf (s : State) (st : Nat) : Option (Nat × Partition × Loaded × ImgRec) :=
  s.loadedParts.findSome? (fun e => (e.2.2.progOf st).map (fun r => (e.1, e.2.1, e.2.2, r)))

/-- A partition one of whose programs names `st` as a side stream, with the lowest such program. -/
def State.sideOwner (s : State) (st : Nat) : Option (Nat × Partition × Loaded × ImgRec) :=
  s.loadedParts.findSome? (fun e =>
    ((sortBy prNum (e.2.2.of tyProgram 0)).find? (fun r => decide (st ∈ prSides r))).map (fun r => (e.1, e.2.1, e.2.2, r)))

/-! ### Capture groups as admission sees them (R424) -/

/-- An idle group. -/
def group0 : Group :=
  { blk := [], meas := [], die := 0, e := 0, phi := 0, frameLen := 0, ringFrames := 0, seed := 0, seedNew := none,
    armed := false, streaming := false, stopping := false, nextFrame := 0, recNo := 0, frames := [],
    unassigned := [], forces := [], records := [], sealedAt := [], ready := [], lost := 0, copyNext := 0,
    marks := [], slotBuf := [] }
/-- Group `g`. -/
def State.grp (s : State) (g : Nat) : Group := mapGetD s.cap.groups g group0
/-- Replace group `g`. -/
def State.putGrp (s : State) (g : Nat) (x : Group) : State :=
  { s with cap := { s.cap with groups := mapPut s.cap.groups g x group0 } }

/-- Fields of the group block (R447). -/
def Group.nmemb (g : Group) : Nat := fieldLE g.blk 1 1
def Group.flags (g : Group) : Nat := fieldLE g.blk 2 1
def Group.part (g : Group) : Nat := fieldLE g.blk 4 1
def Group.members (g : Group) : List Nat := (List.range g.nmemb).map (fun m => fieldLE g.blk (8 + 2 * m) 2)
def Group.ringBase (g : Group) : Nat := fieldLE g.blk 0x28 2
def Group.ringSize (g : Group) : Nat := fieldLE g.blk 0x2A 2
def Group.pre (g : Group) : Nat := fieldLE g.blk 0x2C 4
def Group.post (g : Group) : Nat := fieldLE g.blk 0x30 4
def Group.rate (g : Group) : Nat := fieldLE g.blk 0x34 4
def Group.toff (g : Group) : Nat := fieldLE g.blk 0x38 4
def Group.deepStream (g : Group) : Nat := fieldLE g.blk 0x3C 2
def Group.hrVector (g : Group) : Nat := fieldLE g.blk 0x3E 2
def Group.hrBase (g : Group) : Nat := fieldLE g.blk 0x40 8
def Group.hrSlot (g : Group) : Nat := fieldLE g.blk 0x48 4
def Group.hrDepth (g : Group) : Nat := fieldLE g.blk 0x4C 4
def Group.skewTol (g : Group) : Nat := fieldLE g.blk 0x58 4
def Group.fallback (g : Group) : Bool := g.flags.testBit 0
def Group.toHost (g : Group) : Bool := g.flags.testBit 1
def Group.toDeep (g : Group) : Bool := g.flags.testBit 2
def Group.refStream (g : Group) : Nat := g.members.headD 0
/-- Streaming mode (R452). -/
def Group.streams (g : Group) : Bool := g.fallback && decide (g.ringFrames < g.post)

/-- The armed group that stream `st` is a member of. -/
def State.groupOf (s : State) (st : Nat) : Option (Nat × Group) :=
  s.cap.groups.find? (fun e => e.2.armed && decide (st ∈ e.2.members))

/-- Admission of the stream is open by its own role (R417). -/
def State.roleOpen (s : State) (d st : Nat) : Bool :=
  s.streamOn d st &&
    (match s.entryOf st, s.sideOwner st with
     | some e, _ => decide (e.2.1.state = .running) && decide (e.2.1.opensAt = none)
     | none, some e => decide (e.2.1.state = .running) && decide (e.2.1.opensAt = none)
     | none, none => (s.groupOf st).isSome)

/-- Admission is open: with a group, while every member's is (R424). -/
def State.streamOpen (s : State) (d st : Nat) : Bool :=
  match s.groupOf st with
  | some g => g.2.members.all (fun m => s.roleOpen d m)
  | none => s.roleOpen d st

/-- The stream is in use (R415). -/
def State.streamInUse (s : State) (st : Nat) : Bool :=
  (s.entryOf st).isSome || (s.sideOwner st).isSome || (s.groupOf st).isSome
    || s.cap.groups.any (fun e => e.2.armed && e.2.toDeep && decide (e.2.deepStream = st))

/-! ### Refusals and closed arrivals (R420, R422, R423) -/

/-- Occurrence of a stream. -/
def State.occStream (s : State) (st : Nat) : Occ :=
  let p := match s.entryOf st, s.sideOwner st with
    | some e, _ => some e.1
    | none, some e => some e.1
    | none, none => (s.groupOf st).map (fun g => g.2.part)
  ⟨none, p, 0x7FFF, none⟩

/-- Admission refuses an event of stream `st` for cause `k`. -/
def State.refuse (s : State) (d st k : Nat) : State :=
  let s := (s.addReg (aStrm d st 2) 1).addReg (aCap d (0x10 + 4 * k)) 1
  let s := s.putStrm d st { s.strm d st with refused := true }
  s.count d 0x51 1 (s.occStream st)

/-- `n` events of the stream are closed arrivals. -/
def State.closedArrivals (s : State) (d st n : Nat) : State :=
  (s.addReg (aStrm d st 3) n).count d 0x52 n (s.occStream st)

/-- Admission of the stream closes: every waiting event is a closed arrival. -/
def State.closeStream (s : State) (d st : Nat) : State :=
  let x := s.strm d st
  (s.putStrm d st { x with waiting := [] }).closedArrivals d st x.waiting.length

/-- Close the admission of every entry and side stream of a partition (R315, R494). -/
def State.closePart (s : State) (p : Nat) : State :=
  match (s.part p).image with
  | none => s
  | some im =>
    let sts := (im.of tyProgram 0).foldl (fun l r => l ++ prStream r :: prSides r) []
    sts.foldl (fun s st =>
      let ms := match s.groupOf st with | some g => g.2.members | none => [st]
      ms.foldl (fun s m => [0, 1].foldl (fun s d => if s.smapValid d m then s.closeStream d m else s) s) s) s

/-! ### Source frames (R412) -/

/-- Reverse the bytes of each element. -/
def swapElems (n : Nat) (b : List Byte) : List Byte :=
  (chunks n (b.length + 1) b).foldl (fun l e => l ++ e.reverse) []

/-- The raw event that a payload yields for a stream, padded; none when the payload ends before a field. -/
def State.cutEvent (s : State) (d st : Nat) (pay : List Byte) : Option (List Byte) :=
  let fs := s.fields d st
  if fs.any (fun f => decide (pay.length < f.offset + f.len)) then none
  else
    let raw := fs.foldl (fun l f =>
      let b := bytesAt pay f.offset f.len
      l ++ (if f.bswap then swapElems (fieldBytes f.fmt) b else b)) []
    some (raw ++ List.replicate (32 * s.tpe d st - raw.length) 0)

/-- Valid streams mapped to source `src` of die `d`. -/
def State.streamsAt (s : State) (d src : Nat) : List Nat :=
  (s.validStreams d).filter (fun st => decide (s.field (aSmap d st 0) 30 22 = src))

/-- A source frame: each valid stream mapped to the source and class gets an event, or a refusal SHORT. -/
def State.sourceFrame (s : State) (d src cls : Nat) (pay : List Byte) : State :=
  (s.streamsAt d src).foldl (fun s st =>
    if s.field (aSmap d st 0) 21 18 = cls then
      match s.cutEvent d st pay with
      | none => s.refuse d st 4
      | some b =>
        let x := s.strm d st
        s.putStrm d st { x with forming := x.forming ++ [⟨b, s.cycle d, 0⟩] }
    else s) s

/-- A source frame that failed its frame check: one refusal CRC for each stream of the source. -/
def State.badFrame (s : State) (d src : Nat) : State :=
  (s.streamsAt d src).foldl (fun s st => s.refuse d st 3) s

/-! ### Mode sides and seeds (R310, R341) -/

/-- The instance uses the new settings of the pending mode change (R310). -/
def State.newSide (s : State) (x : Inst) : Bool :=
  match (s.part x.part).change with
  | some c => c.armed && (match c.boundary with | some b => decide (b ≤ x.ingest) | none => false)
  | none => false

/-- Active bank of the rescale tables, quantisers, monitors and wide weights for an instance (R133). -/
def State.bankOf (s : State) (x : Inst) : Nat :=
  let g := (s.part x.part).gen
  let n := match (s.part x.part).change with
    | some c => decide (c.kind = 0) && s.newSide x
    | none => false
  (g + bitOf n) % 2

/-- Seed of a program for an instance. -/
def State.seedOf (s : State) (x : Inst) (g : Nat) : BitVec 64 :=
  let p := s.part x.part
  let old := mapGetD p.seeds g 0
  match p.change with
  | some c =>
    if c.kind = 2 ∧ s.newSide x ∧ c.pmask.testBit g then
      BitVec.ofNat 64 (c.seeds.getD ((maskList g c.pmask).length) 0)
    else old
  | none => old

/-! ### Repairs of read-only rows (R475) -/

/-- Queue a repair on a die, once per row. -/
def State.queueRepair (s : State) (d kind key : Nat) (part : Option Nat) : State :=
  let q := mapGetD s.flt.repairs d []
  if q.any (fun r => decide (r.kind = kind ∧ r.key = key)) then s
  else { s with flt := { s.flt with repairs := mapPut s.flt.repairs d (q ++ [⟨kind, key, part⟩]) [] } }

/-! ### Lattice tokens of an event (R101, R413) -/

/-- Bits of one field toward the lattice: element width and elements; with the conditions and taint. -/
structure FieldOut where
  width : Nat
  elems : List Nat
  conds : List Cond
  bad   : Bool
  deriving DecidableEq, Repr

/-- Elements of a field's bytes. -/
def fieldElems (fmt : Nat) (b : List Byte) : List Nat :=
  (chunks (fieldBytes fmt) (b.length + 1) b).map leNat

/-- Convert one field; `k` draws of its entry have been made for the event. -/
def State.convertField (s : State) (d : Nat) (x : Inst) (seed : BitVec 64) (stream seq : Nat) (f : FieldDef)
    (b : List Byte) (k : Nat) : FieldOut :=
  let es := fieldElems f.fmt b
  if !f.qen then ⟨fieldWidth f.fmt, es, [], false⟩
  else
    let key := 8192 * d + 4096 * s.bankOf x + f.qent
    let e := mapGetD s.lat.inq key 0
    let lx := mapGetD s.lat.inqLidx key 0
    let r := es.zipIdx.map (fun v => quantise f.fmt v.1 e (draw seed stream seq 1 lx (k + v.2)))
    ⟨reWidth e, r.map (·.1), r.foldl (fun l v => l ++ v.2) [], mapGetD s.flt.inqBad key false⟩

/-- The fields of an event converted in field order, counting the draws of each quantiser entry. -/
def State.convertFields (s : State) (d : Nat) (x : Inst) (seed : BitVec 64) (stream seq : Nat) :
    List FieldDef → List Byte → AMap Nat → List FieldOut
  | [], _, _ => []
  | f :: fs, raw, ks =>
    let k := mapGetD ks f.qent 0
    let o := s.convertField d x seed stream seq f (raw.take f.len) k
    let ks := if f.qen then mapSet ks f.qent (k + o.elems.length) else ks
    o :: s.convertFields d x seed stream seq fs (raw.drop f.len) ks

/-- Pack outputs into payloads, element after element (R55). -/
def packOuts (os : List FieldOut) : List (BitVec 256) :=
  let (v, n) := os.foldl (fun a o => o.elems.foldl (fun a e => (a.1 + e % 2 ^ o.width * 2 ^ a.2, a.2 + o.width)) a) (0, 0)
  (List.range (ceilDiv n 256)).map (fun i => BitVec.ofNat 256 (v / 2 ^ (256 * i)))

/-! ### Gauntlet layers fed by raw fields (R120) -/

/-- Work of a layer before anything of the instance has come. -/
def work0 (i : Nat) : LayerWork :=
  { inst := i, inCount := 0, accCount := 0, seen := [], finals := 0, taken := 0, inputs := [],
    fetched := [], narrow := 0, window := none, pass := 0, accepted := false, runEnds := none, wide := none, taint := 0, held := [], passed := none }

/-- Apply `f` to the work of instance `i` in a layer, made new when there is none. -/
def mapWork (i : Nat) (f : LayerWork → LayerWork) (l : Layer) : Layer :=
  if l.work.any (fun w => decide (w.inst = i)) then
    { l with work := l.work.map (fun w => if w.inst = i then f w else w) }
  else { l with work := l.work ++ [f (work0 i)] }

/-- Apply `f` to the layers that `p` selects. -/
def State.mapLayers (s : State) (p : Nat × Layer → Bool) (f : Layer → Layer) : State :=
  { s with gau := { s.gau with layers := s.gau.layers.map (fun e => if p e then (e.1, f e.2) else e) } }

/-- Byte address of wide input `j` of instance `x` in the side buffer: the layer's bytes hold as many events as they have room
for, in turn, in the bank of the event's side of a boundary. DESIGN CHOICE: log entry 99. -/
def State.sideAddr (s : State) (k : Nat) (l : Layer) (x : Inst) (j : Nat) : Nat :=
  let n := max 1 (4 * l.v * l.cIn)
  2 ^ 21 * (4 * (k / 64) + l.engine) + 2 ^ 20 * s.bankOf x + l.sbBase + n * (x.id % max 1 (l.sbDepth / n)) + 4 * j

/-- Write one wide input of an instance: its bytes stand in the side buffer with good parity. -/
def State.sideWrite1 (s : State) (k : Nat) (l : Layer) (x : Inst) (e : Nat × BitVec 32) : State :=
  let a := s.sideAddr k l x e.1
  { s with gau := { s.gau with side := memWrite s.gau.side a (leBytes 4 e.2.toNat) }
           flt := { s.flt with sideBad := mapErase s.flt.sideBad (a / 4) } }

/-- Write wide inputs of an instance into the side buffer of layer slot `k` (R120). -/
def State.sideWrite (s : State) (k : Nat) (l : Layer) (x : Inst) (es : List (Nat × BitVec 32)) : State :=
  (es.foldl (fun s e => s.sideWrite1 k l x e) s).mapLayers (fun e => decide (e.1 = k))
    (mapWork x.id (fun w => { w with inputs := es.foldl (fun m e => mapSet m e.1 e.2) w.inputs }))

/-- Elements of the fields of stream `st` on die `d` that pass an input quantiser (R100). -/
def State.quantised (s : State) (d st : Nat) : Nat :=
  (s.fields d st).foldl (fun n f => if f.qen then n + f.len / fieldBytes f.fmt else n) 0

/-- Raw elements of the quantised fields of an event, extended to int32, become the wide inputs of the partition's layers with SRC 1
on the die: those of the entry stream first, then those of each side stream in SIDE order. DESIGN CHOICE: log entry 99. -/
def State.gauIngest (s : State) (d st : Nat) (x : Inst) (sides : List Nat) (es : List Nat) : State :=
  let before := if st = x.stream then [] else x.stream :: sides.takeWhile (fun v => decide (v ≠ st))
  let n := before.foldl (fun n v => n + s.quantised d v) 0
  (s.gau.layers.filter (fun e => decide (e.1 / 64 = d ∧ e.2.part = x.part ∧ e.2.src = 1))).foldl (fun s e =>
    s.sideWrite e.1 e.2 x ((es.zipIdx.filter (fun v => decide (n + v.2 < e.2.v * e.2.cIn))).map (fun v =>
      (n + v.2, BitVec.ofNat 32 v.1)))) s

/-! ### Handing tokens to the capture ports -/

/-- Token `k` of `n` of an event of stream `st` as admission gives it to the lattice (R142, R143). UNVERIFIED: log entry 32. -/
def State.admToken (s : State) (x : Inst) (st seq k n : Nat) (bad : Bool) (pay : BitVec 256) : Token :=
  let kind := match (Config.admKind st k).val with | 0 => 0 | 1 => 2 | _ => 3
  ⟨pay, payloadPar pay, sideOf kind (decide (k + 1 = n)) (if bad then 1 else 0) (Config.admBlk k) (s.part x.part).epoch
    (BitVec.ofNat 12 seq)⟩

/-- Admission holds the token `tok` of an event of stream `st` for the crossing of port `ep`, into which the schedule sends it in
cycle `t` (R37, R232). -/
def State.admHold (s : State) (d ep st t : Nat) (tok : Token) (i : Nat) : State :=
  let key := 512 * d + ep
  let (n, s) := s.nextTok
  { s with lat := { s.lat with
      admQ := mapPut s.lat.admQ key (mapGetD s.lat.admQ key [] ++ [⟨⟨tok, i, false, s.now, n⟩, t + 6, t + 6, st⟩]) [] } }

/-- The tokens of an event of stream `st` on die `d` go to the capture ports of the instance, one per port entry in order of schedule
offset, one a cycle (R413). Tokens beyond the program's capture entries are not passed to the lattice. UNVERIFIED: log entry 32. -/
def State.toLattice (s : State) (d st : Nat) (x : Inst) (lowest : Nat) (seq : Nat) (raw : List Byte) : State :=
  match (s.part x.part).image with
  | none => s
  | some im =>
    let seed := s.seedOf x lowest
    let fs := s.fields d st
    let os := s.convertFields d x seed st seq fs raw []
    let conds := os.foldl (fun l o => l ++ o.conds) []
    let bad := os.any (·.bad)
    let pays := packOuts os
    let ports := (im.capPorts 0 x.prog x.ingest d).drop (if d = 0 then x.tok0 else x.tok1)
    let c := s.cycle d
    let s := (fs.zip os).foldl (fun s fo =>
      if fo.2.bad then s.queueRepair d 2 (8192 * d + 4096 * s.bankOf x + fo.1.qent) (some x.part) else s) s
    let s := conds.foldl (fun s k =>
      let s := if k = .inClamp then s.addReg (aScl d 0x400) 1 else s
      s.count d (condEvent k) 1 (s.occInst x.id)) s
    let s := if condsFlags conds = 0#16 then s else s.raise x.id (condsFlags conds)
    let raws := (fs.foldl (fun a f => (a.1 ++ (if f.qen then (fieldElems f.fmt (a.2.take f.len)).map (fun (v : Nat) =>
      unsignedOf 32 (if f.fmt = 6 then (v : Int) else fieldInt f.fmt v)) else []), a.2.drop f.len)) ([], raw)).1
    let s := s.gauIngest d st x (match im.prog x.prog with | some r => prSides r | none => []) raws
    let s := (pays.zip ports).zipIdx.foldl (fun s pp =>
      s.admHold d pp.1.2.2 st (c + pp.2) (s.admToken x st seq pp.2 pays.length bad pp.1.1) x.id) s
    s.mapInst x.id (fun y => if d = 0 then { y with tok0 := y.tok0 + pays.length } else { y with tok1 := y.tok1 + pays.length })

/-- An accepted event waits for the end of its cycle, when its fields go to the lattice (R310, R311). -/
def State.enter (s : State) (e : Entering) : State := { s with seq := { s.seq with entering := s.seq.entering ++ [e] } }

/-- The events placed in this cycle go to the lattice, each with the settings of its side of a boundary. DEDUCED: log entry 97. -/
def State.enterAll (s : State) : State :=
  let s' : State := { s with seq := { s.seq with entering := [] } }
  s.seq.entering.foldl (fun s e =>
    match s.inst e.inst with
    | some x => s.toLattice e.die e.stream x e.prog e.seq e.raw
    | none => s) s'

/-- Instances of ingest cycles before the pending boundary of their partition are on its old side (R310). -/
def State.markOld (s : State) : State :=
  { s with seq := { s.seq with insts := s.seq.insts.map (fun x =>
      match (s.part x.part).change with
      | some c => match c.boundary with
        | some b => { x with old := decide (x.ingest < b) }
        | none => { x with old := false }
      | none => { x with old := false }) } }

/-- The head token that admission holds for a port moves into its crossing once it is due and the path has room (R220, R232). -/
def State.admMove (s : State) (key : Nat) : State :=
  match mapGetD s.lat.admQ key [] with
  | p :: rest =>
    let out := mapGetD s.lat.xOut key []
    if p.rel ≤ s.cycle (key / 512) + 6 ∧ out.length + (mapGetD s.lat.fabIn key []).length < 16 then
      { s with lat := { s.lat with
          admQ := mapPut s.lat.admQ key rest []
          xOut := mapPut s.lat.xOut key (out ++ [{ p with rel := s.cycle (key / 512) + 6 }]) [] } }
    else s
  | [] => s

/-- Every port takes at most one token in a cycle. -/
def State.admMoves (s : State) : State := s.lat.admQ.foldl (fun s e => s.admMove e.1) s

/-- Accepted events of stream `st` on die `d` that have not passed whole into the fabric crossings (R418). -/
def State.admHeld (s : State) (d st : Nat) : Nat :=
  let ids := s.lat.admQ.foldl (fun l e =>
    if e.1 / 512 = d then e.2.foldl (fun l p => if p.src = st ∧ p.held.inst ∉ l then p.held.inst :: l else l) l else l) []
  (s.seq.entering.foldl (fun l e => if e.die = d ∧ e.stream = st ∧ e.inst ∉ l then e.inst :: l else l) ids).length

/-! ### Event instances (R213, R214, R310, R348) -/

/-- INPUT_CHECK over the raw tokens of the entry event and of the side events placed, in SIDE order (R350). -/
def checkOf (x : Inst) : BitVec 64 :=
  inputCheck x.stream x.seq ((sortBy (·.1) x.raws).foldl (fun l e => l ++ e.2) [])

/-- The instance would push a die above 49,152 operations in flight (R214). -/
def State.noRoom (s : State) (im : Loaded) (g t : Nat) : Bool :=
  decide (49152 < s.seq.ops0 + im.opCount 0 g t 0) || decide (49152 < s.seq.ops1 + im.opCount 0 g t 1)

/-- Insert a due firing in scheduled order. -/
def dueInsert (x : Due) : List Due → List Due := insertBy (·.sched) x

/-- The firings of the instance join the lists of its units (R213). -/
def State.dueFirings (s : State) (im : Loaded) (sec g i t : Nat) : State :=
  (im.of tyFiring sec).foldl (fun s r =>
    let u := im.unitOf r
    let ds := (fireRuns r.body).foldl (fun l x => if x.prog = g then l ++ x.offsets else l) []
    if ds.isEmpty then s
    else
      let x := s.unit u
      s.putUnit u { x with due := ds.foldl (fun l o => dueInsert ⟨t + o, i⟩ l) x.due }) s

/-- The boundary of a kind-1 change reaches the partition's trigger settings (R311, R432). -/
def State.trigBoundary (s : State) (p b : Nat) : State :=
  { s with cap := { s.cap with
      conds := s.cap.conds.map (fun e => (e.1, { e.2 with new := e.2.new.map (fun n => if e.2.part = p then (some b, n.2) else n) }))
      groups := s.cap.groups.map (fun e => (e.1, { e.2 with seedNew := e.2.seedNew.map (fun n => if e.2.part = p then (some b, n.2) else n) }))
      tables := s.cap.tables.map (fun e => (e.1, { e.2 with new := e.2.new.map (fun n => if (s.grp e.2.group).part = p then (some b, n.2) else n) })) } }

/-- The boundary of a pending mode change, met by the first event at or after N (R310, R314). -/
def State.modeBoundary (s : State) (x : Inst) : State :=
  let p := s.part x.part
  match p.change with
  | some c =>
    if c.armed ∧ c.boundary = none ∧ c.stream = x.stream ∧ c.n ≤ x.seq then
      let s := s.putPart x.part { p with change := some { c with boundary := some x.ingest, boundarySeq := x.seq } }
      let s := if c.kind = 1 then s.trigBoundary x.part x.ingest else s
      s.auditCtrl x.part 0x02 c.stream x.seq (c.kind + c.n * 2 ^ 16) c.digest [] []
    else s
  | none => s

/-- Create the instance of an accepted event (R213). -/
def State.createInst (s : State) (p : Nat) (im : Loaded) (r : ImgRec) (d st seq : Nat) (raw : List Byte) : State :=
  let g := prNum r
  let t := s.cycle d
  let fl := bitOf im.relaxed * 2 ^ 6 + bitOf im.anyClass * 2 ^ 10
    + bitOf (s.strm d st).refused * 2 ^ 5
  let n0 := im.opCount 0 g t 0
  let n1 := im.opCount 0 g t 1
  let x : Inst :=
    { id := s.seq.nextId, part := p, prog := g, stream := st, seq := seq, ingest := t, ops0 := n0,
      ops1 := n1, late := false, lateCount := 0, flags := BitVec.ofNat 16 fl, check := 0, sides := prSides r,
      raws := [(0, raw)], tok0 := 0, tok1 := 0, results := im.resultCount 0 g t, released := none, sigs := [],
      outputs := [], old := false, lastDue := max (t + im.decl g) (im.lastResult 0 g t), behind := false, rel0 := false,
      rel1 := false, moved := [] }
  let x := { x with check := checkOf x }
  let s := { s with seq := { s.seq with insts := s.seq.insts ++ [x], nextId := x.id + 1,
                                        ops0 := s.seq.ops0 + n0, ops1 := s.seq.ops1 + n1 } }
  let s := (s.maxField (aSeq 0 0x10) 31 16 s.seq.ops0).maxField (aSeq 1 0x10) 31 16 s.seq.ops1
  let s := s.putStrm d st { s.strm d st with refused := false }
  let s := s.count d 0x40 1 ⟨none, some p, 0x7FFF, some (st, seq)⟩
  let s := s.modeBoundary x
  let s := s.dueFirings im 0 g x.id t
  s.enter ⟨d, st, x.id, g, seq, raw⟩

/-- The instance takes event `b` as its side event `k` of stream `st`; `rs` says that events were refused before it. -/
def Inst.withSide (y : Inst) (st k : Nat) (b : List Byte) (rs : Bool) : Inst :=
  let y := { y with sides := y.sides.filter (fun v => decide (v ≠ st)), raws := mapSet y.raws (1 + k) b }
  let y := { y with check := checkOf y, flags := if rs then y.flags ||| 0x20#16 else y.flags }
  if y.sides.isEmpty then { y with raws := [] } else y

/-- The oldest waiting event of stream `st` leaves the buffer, and the sequence number `seq` is used up. -/
def State.takeWaiting (s : State) (d st seq : Nat) : State :=
  ((s.putStrm d st { s.strm d st with waiting := (s.strm d st).waiting.drop 1, refused := false }).setSeq d st
    ((seq + 1) % 2 ^ 48)).count d 0x50 1 (s.occStream st)

/-- Instance `x` takes event `ev` of side stream `st` (R421). -/
def State.placeSideOn (s : State) (d st : Nat) (x : Inst) (sides : List Nat) (low : ImgRec) (ev : AdmEvent) : State :=
  let seq := s.nextSeq d st
  ((s.takeWaiting d st seq).mapInst x.id (fun y =>
    y.withSide st (sides.findIdx (fun v => decide (v = st))) ev.bytes (s.strm d st).refused)).enter
      ⟨d, st, x.id, prNum low, seq, ev.bytes⟩

/-- Place the oldest waiting event of a side stream on the oldest instance that lacks one (R421). -/
def State.placeSide (s : State) (d st : Nat) : State :=
  match (s.strm d st).waiting, s.sideOwner st with
  | ev :: _, some (p, _, im, low) =>
    match s.seq.insts.find? (fun x => decide (x.part = p ∧ st ∈ x.sides)) with
    | none => s
    | some x => s.placeSideOn d st x (match im.prog x.prog with | some r => prSides r | none => []) low ev
  | _, _ => s

/-- Place the waiting side events of a new instance's side streams. -/
def State.placeSides (s : State) (sts : List Nat) : State :=
  sts.foldl (fun s st => [0, 1].foldl (fun s d => if s.streamOn d st then s.placeSide d st else s) s) s

/-- Accept the oldest waiting event of entry stream `st` of die `d` (R419). -/
def State.acceptEntry (s : State) (d st : Nat) : State :=
  match (s.strm d st).waiting, s.entryOf st with
  | ev :: rest, some (p, _, im, r) =>
    let seq := s.nextSeq d st
    let s := s.putStrm d st { s.strm d st with waiting := rest }
    let s := (s.setSeq d st ((seq + 1) % 2 ^ 48)).count d 0x50 1 (s.occStream st)
    (s.createInst p im r d st seq ev.bytes).placeSides (prSides r)
  | _, _ => s

/-- Accept the oldest waiting event of a capture-only stream. -/
def State.acceptOnly (s : State) (d st : Nat) : State :=
  match (s.strm d st).waiting with
  | _ :: rest =>
    let seq := s.nextSeq d st
    let s := s.putStrm d st { s.strm d st with waiting := rest, refused := false }
    (s.setSeq d st ((seq + 1) % 2 ^ 48)).count d 0x50 1 (s.occStream st)
  | [] => s

/-- Drop the oldest waiting event with a refusal. -/
def State.refuseHead (s : State) (d st k : Nat) : State :=
  match (s.strm d st).waiting with
  | _ :: rest => (s.putStrm d st { s.strm d st with waiting := rest }).refuse d st k
  | [] => s

/-- R214 forbids an instance for the next event of entry stream `st`. -/
def State.capRefuses (s : State) (d st : Nat) : Bool :=
  match s.entryOf st with
  | some (_, _, im, r) => s.noRoom im (prNum r) (s.cycle d)
  | none => false

/-- An event completes assembly (R418, R420): it joins the buffer, is refused, or is a closed arrival. -/
def State.eventAssembly (s : State) (d st : Nat) : State :=
  let x := s.strm d st
  match x.forming with
  | [] => s
  | ev :: rest =>
    let s := s.putStrm d st { x with forming := rest }
    if !s.streamOpen d st then s.closedArrivals d st 1
    else if s.admDepth d st ≤ x.waiting.length + s.admHeld d st then s.refuse d st 1
    else
      let s := s.putStrm d st { s.strm d st with waiting := x.waiting ++ [{ ev with since := s.now + 1 }] }
      if (s.entryOf st).isNone ∧ (s.sideOwner st).isSome then s.placeSide d st else s

/-- EVENT_ASSEMBLY (R418). -/
def execEventAssembly (d st : Nat) (s : State) : Host.Outcome State Fault Refusal :=
  .next (s.only (.eventAssembly d st) (s.eventAssembly d st))

end Sys2Proof.Machine
end

