-- ==== Sys2Proof/Machine/Capture.lean ====
section
/-! DEFINITION. Entry slots, capture groups and rings, trigger conditions, coincidences, trigger points, records,
streaming, measurements, ARM and DISARM (R417 to R466). -/

namespace Sys2Proof.Machine

/-! ### Registers and blocks -/

/-- Register `o` of group `g`. -/
def aGrp (g o : Nat) : Nat := aCap 0 (0x10000 + 0x20 * g + o)
/-- Register `o` of condition `c`. -/
def aCond (c o : Nat) : Nat := aCap 0 (0x20000 + 0x20 * c + o)

/-- Fields of a condition entry (R447). -/
def ceCond (b : List Byte) : Nat := fieldLE b 0 1
def ceSource (b : List Byte) : Nat := fieldLE b 1 1
def ceFlag (b : List Byte) (i : Nat) : Bool := (fieldLE b 2 1).testBit i
def ceArg (b : List Byte) : Nat := fieldLE b 3 1
def cePin (b : List Byte) : Nat := fieldLE b 4 1
def ceWidth (b : List Byte) : Nat := fieldLE b 5 1
def cePrescale (b : List Byte) : Nat := fieldLE b 8 4
def ceThresh (b : List Byte) : Nat := fieldLE b 12 4

/-- Fields of a coincidence table (R433). -/
def ctTable (b : List Byte) : Nat := fieldLE b 0 1
def ctNin (b : List Byte) : Nat := fieldLE b 1 1
def ctReq (b : List Byte) : Nat := fieldLE b 2 1
def ctVeto (b : List Byte) : Nat := fieldLE b 3 1
def ctMin (b : List Byte) : Nat := fieldLE b 4 1
def ctPrimary (b : List Byte) : Nat := fieldLE b 5 1
def ctWindow (b : List Byte) : Nat := fieldLE b 6 2
def ctInput (b : List Byte) (i : Nat) : Nat := fieldLE b (8 + i) 1
def ctDelay (b : List Byte) (i : Nat) : Nat := fieldLE b (0x10 + 2 * i) 2

/-- Sample width in bits of a sample format (R410). -/
def sfmtWidth (f : Nat) : Nat := if f ≤ 1 then 8 else if f ≤ 3 then 16 else 32

/-- Samples per frame of a member (R438). -/
def State.spf (s : State) (d st : Nat) : Nat :=
  8 * s.rawLen d st / (sfmtWidth (s.field (aSmap d st 2) 27 25) * (s.field (aSmap d st 2) 24 20 + 1))

/-- A condition that is armed. -/
def State.cond (s : State) (c : Nat) : Option Condition := mapGet s.cap.conds c
/-- Replace an armed condition. -/
def State.putCond (s : State) (c : Nat) (x : Condition) : State :=
  { s with cap := { s.cap with conds := mapSet s.cap.conds c x } }
/-- Replace an armed coincidence table. -/
def State.putTable (s : State) (t : Nat) (x : Coinc) : State :=
  { s with cap := { s.cap with tables := mapSet s.cap.tables t x } }

/-- The side of a kind-1 boundary on which a time in cycles lies (R432). -/
def newFrom {α : Type} (n : Option (Option Nat × α)) (cyc : Nat) : Option α :=
  match n with
  | some (some b, v) => if b ≤ cyc then some v else none
  | _ => none

/-- PRESCALE and THRESH of a condition for a time in cycles. -/
def Condition.settings (c : Condition) (cyc : Nat) : Nat × Nat :=
  (newFrom c.new cyc).getD (cePrescale c.entry, ceThresh c.entry)
/-- Trigger seed of a group for a time in cycles. -/
def Group.seedAt (g : Group) (cyc : Nat) : BitVec 64 := (newFrom g.seedNew cyc).getD g.seed

/-! ### The ring (R426) -/

/-- Stack and byte of 32-byte unit `k` of a ring. -/
def ringUnit (g : Group) (k : Nat) : Nat × Nat := (k % 4, g.ringBase * 2 ^ 26 + 32 * (k / 4))

/-- Write a frame at its ring position. -/
def State.ringWrite (s : State) (g : Group) (n : Nat) (bs : List Byte) : State :=
  let k0 := n % g.ringFrames * g.frameLen / 32
  (chunks 32 (bs.length + 1) bs).zipIdx.foldl (fun s c =>
    let u := ringUnit g (k0 + c.2)
    s.stackWrite u.1 u.2 c.1) s

/-- Read the frame at a ring position, and whether a unit of it has an error standing (R446, R482). -/
def State.ringRead (s : State) (g : Group) (n : Nat) : List Byte × Bool :=
  let k0 := n % g.ringFrames * g.frameLen / 32
  (List.range (g.frameLen / 32)).foldl (fun a i =>
    let u := ringUnit g (k0 + i)
    let bad := match mapGet s.flt.memBad (2 ^ 31 * u.1 + u.2 / 32) with
      | some .corrected => false | some _ => true | none => false
    (a.1 ++ s.stackRead u.1 u.2 32, a.2 || bad)) ([], false)

/-- The ring position of frame `n` has been rewritten. -/
def Group.rewritten (g : Group) (n : Nat) : Bool := decide (n + g.ringFrames < g.nextFrame)

/-! ### Deep record delivery (R377, R380, R445) -/

/-- The running deep partition whose record stream is `st`. -/
def State.deepOf (s : State) (st : Nat) : Option (Nat × Deep) :=
  s.deep.find? (fun e => decide (e.2.stream = st) && decide ((s.part e.1).state = .running))

/-- Slots of the record queue in use. -/
def Deep.slotsUsed (x : Deep) : List Nat :=
  x.queue.map (·.slot) ++ (match x.pass with | some p => p.insts.map (·.rcd.slot) | none => [])

/-- The next free record slot. -/
def Deep.freeSlot (x : Deep) : Option Nat :=
  ((List.range x.par.rqDepth).map (fun i => (x.nextSlot + i) % x.par.rqDepth)).find? (fun k => decide (k ∉ x.slotsUsed))

/-- Stacks that hold a copy of the record queue: controller 0 of each die with a bound region (R380). -/
def queueStacks (p : Partition) : List Nat := [0, 1].filterMap (fun d => if partOnDie p d then some (2 * d) else none)

/-- Deliver a record of group `g` to its deep stream. -/
def State.deepDeliver (s : State) (g st : Nat) (bs : List Byte) : State :=
  match s.deepOf st with
  | none => s.closedArrivals 0 st 1
  | some (p, x) =>
    let slot := if x.par.rqSlot * 64 < bs.length then none else x.freeSlot
    match slot with
    | none =>
      let s := (s.addReg (aGrp g 0x18) 1).addReg (aStrm 0 st 2) 1
      { s with deep := mapSet s.deep p { x with refused := true } }
    | some k =>
      let seq := s.nextSeq 0 st
      let pt := s.part p
      let a := partBase pt + 64 * (x.par.rqBase + x.par.rqSlot * k)
      let s := (queueStacks pt).foldl (fun s q => s.stackWrite q a bs) s
      let r : DeepRec := ⟨st, seq, k, bs.length, s.cycle 0, inputCheck st seq bs,
        BitVec.ofNat 16 (2 ^ 11 + bitOf x.refused * 2 ^ 5)⟩
      let s := s.setSeq 0 st ((seq + 1) % 2 ^ 48)
      { s with deep := mapSet s.deep p { x with queue := x.queue ++ [r], nextSlot := (k + 1) % x.par.rqDepth, refused := false } }

/-! ### Trigger points and records (R438 to R443) -/

/-- The record limit of a group is exceeded, or a record finds no place: it is lost (R443, R444). -/
def State.recordLost (s : State) (g : Nat) : State :=
  (s.putGrp g { s.grp g with lost := (s.grp g).lost + 1 }).addReg (aGrp g 8) 1

/-- A pass triggers its group at a sample of a frame (R441 to R443). -/
def State.triggerAt (s : State) (g : Nat) (frame sample : Nat) (p : TrigPass) : State :=
  let x := s.grp g
  if sample ∈ x.sealedAt then s.addReg (aGrp g 0xC) 1
  else if x.records.any (fun r => decide (r.sample = sample)) then
    s.putGrp g { x with records := x.records.map (fun r => if r.sample = sample then { r with passes := r.passes ++ [p] } else r) }
  else if 32 ≤ x.records.length then s.recordLost g
  else s.putGrp g { x with records := x.records ++ [⟨sample, frame, [p]⟩] }

/-- Frame, sample and fraction of a time that is mapped to frame `f` (R439). -/
def Group.mapTime (g : Group) (spf tau : Nat) (f : FrameInfo) : Nat × Nat × Nat :=
  let u := (tau + g.toff - f.arrival) * g.rate
  let smp := f.g * spf + u / 2 ^ 31
  ((if spf = 0 then f.g else smp / spf), smp, u / 2 ^ 15 % 2 ^ 16)

/-- The frame to which a time is assigned, once it is decided (R439): the outer option says decided. -/
def State.assignFrame (s : State) (g : Group) (tau : Nat) : Option (Option FrameInfo) :=
  let ready := g.frames.any (fun f => decide (tau + g.toff < f.arrival))
    || decide (tau + g.toff + 256 * g.e ≤ 128 * s.cycle g.die)
  if ready then some ((g.frames.reverse).find? (fun f => decide (f.arrival ≤ tau + g.toff))) else none

/-- A pass with TO_GROUP triggers its group at its trigger point (R431, R438). -/
def State.trigger (s : State) (g : Nat) (pt : TrigPoint) (p : TrigPass) : State :=
  match pt with
  | .at_ f smp fr => s.triggerAt g f smp { p with frac := fr }
  | .time tau => s.putGrp g { s.grp g with unassigned := (s.grp g).unassigned ++ [(tau, p)] }
  | .nowhere => s.addReg (aGrp g 8) 1

/-! ### Passes (R431, R434) -/

/-- Input events of the coincidence tables that name condition `c` (R434). -/
def State.coincInput (s : State) (c tau : Nat) (pt : TrigPoint) : State :=
  s.cap.tables.foldl (fun s e =>
    let t := (newFrom e.2.new (tau / 128)).getD e.2.tbl
    (List.range (ctNin t)).foldl (fun s i =>
      match mapGet s.cap.tables e.1 with
      | some x =>
        if ctInput t i = c then s.putTable e.1 { x with events := x.events ++ [⟨i, tau + 128 * ctDelay t i, pt⟩] } else s
      | none => s) s) s

/-- Send the trigger message of a pass (R600, R613). -/
def State.trigSend (s : State) (c tau : Nat) : State :=
  let a := aWyl 0 (0x10000 + 4 * c)
  if s.flag a 31 then
    s.svcRoute ⟨1, s.field a 11 0, 0, [BitVec.ofNat 8 (s.field a 19 12), BitVec.ofNat 8 c] ++ leBytes 2 s.pkg
      ++ List.replicate 4 0 ++ leBytes 8 tau ++ List.replicate 16 0⟩
  else s.addReg (aWyl 0 8) 1

/-- Condition `c` passes an occurrence at time `tau` (R431). -/
def State.condPass (s : State) (c : Nat) (x : Condition) (tau inst : Nat) (pt : TrigPoint) : State :=
  let s := s.addReg (aCond c 0x10) 1
  let p : TrigPass := ⟨c, tau, 0, s.tbOf 0 tau, inst, [], 0⟩
  let s := if ceFlag x.entry 0 then s.trigger x.group pt p else s
  let s := if ceFlag x.entry 1 then
      { s with cap := { s.cap with pulses := s.cap.pulses ++ [⟨cePin x.entry, s.now + 8, s.now + 8 + ceWidth x.entry⟩] } }
    else s
  let s := if ceFlag x.entry 2 then s.trigSend c tau else s
  s.coincInput c tau pt

/-- An occurrence of condition `c` that is no lattice decision: one draw, and a pass where it is taken
(R342, R430, R432). -/
def State.occurrence (s : State) (c tau : Nat) (pt : TrigPoint) : State :=
  match s.cond c with
  | none => s
  | some x =>
    let s := (s.addReg (aCond c 0xC) 1).putCond c { x with occ := x.occ + 1 }
    let g := s.grp x.group
    let d := draw (g.seedAt (tau / 128)) g.refStream x.occ 2 c 0
    if prescalePasses (x.settings (tau / 128)).1 d then s.condPass c x tau 0 pt else s

/-! ### Lattice decisions (R429, R430, R438) -/

/-- A frame of the group that holds event `seq` of its reference stream. -/
def Group.frameOf (g : Group) (seq : Nat) : Option FrameInfo := g.frames.find? (fun f => decide (f.refSeq = seq))

/-- A trigger token of instance `i` reaches the capture engine in schedule cycle `cyc` of die `d`. A token with
VALID = 0 names no condition. DEDUCED: log entry 89. -/
def State.trigToken (s : State) (d i cyc : Nat) (t : Token) : State :=
  let w := fun k => fieldLE (leBytes 32 t.payload.toNat) (4 * k) 4
  let s := if sideTaint t.side = 0 then s
    else s.raise i (BitVec.ofNat 16 (2 + 4 * bitOf ((sideTaint t.side).toNat.testBit 1)))
  if !(w 0).testBit 31 then s
  else
    let c := w 0 % 256
    let bad := s.setFlag (aCap d 0) 29 true
    match s.cond c, s.inst i with
    | some x, some n =>
      let g := s.grp x.group
      if ceSource x.entry ≠ 0 ∨ x.part ≠ n.part ∨ g.refStream ≠ n.stream then bad
      else
        let (p, th) := x.settings n.ingest
        if signedOf 32 (w 1) < signedOf 32 th then s
        else
          let k := mapGetD x.draws n.seq 0
          let s := (s.addReg (aCond c 0xC) 1).putCond c { x with occ := x.occ + 1, draws := mapSet x.draws n.seq (k + 1) }
          let dr := draw (s.seedOf n n.prog) n.stream n.seq 2 c k
          if prescalePasses p dr then
            let spf := s.spf g.die g.refStream
            let pt := match g.frameOf n.seq with
              | some f =>
                let smp := f.g * spf + w 2
                .at_ (if spf = 0 then f.g else smp / spf) smp (w 3 % 2 ^ 16)
              | none => .nowhere
            s.condPass c x (128 * cyc) i pt
          else s
    | _, _ => bad

/-- LATTICE_OCCURRENCE: the oldest token released into a capture endpoint is taken. DEDUCED: log entry 89. -/
def State.latticeOccurrence (s : State) (d ep : Nat) : State :=
  let key := 512 * d + ep
  match mapGetD s.lat.inbox key [] with
  | p :: rest =>
    if isCapture ep ∧ p.rel ≤ s.cycle d then
      let s := { s with lat := { s.lat with inbox := mapPut s.lat.inbox key rest [] } }
      s.trigToken d p.held.inst p.rel p.held.tok
    else s
  | [] => s

/-! ### Trigger pins (R436, R431) -/

/-- An edge on TRIG_IN[pin] in cycle `k` with tap code `c`. While the input calibrates, the pin is not connected. -/
def State.pinEdge (s : State) (pin : Nat) (rising : Bool) (k c : Nat) : State :=
  let d := pin / 4
  let n := pin % 4
  let cs := s.cap.conds.filter (fun e =>
    decide (ceSource e.2.entry = 1) && decide (ceArg e.2.entry = pin) && ceFlag e.2.entry (if rising then 3 else 4))
  if cs.isEmpty ∨ s.flag (aCap d (0x100 + 0x10 * n)) 30 then s
  else
    let tau := (s.tdcTime (aCap d (0x1000 + 0x100 * n)) (aCap d (0x104 + 0x10 * n)) k c).toNat
    let cnt := aCap d (0x108 + 0x10 * n)
    let counted := match mapGet s.cap.lastEdge pin with | some p => decide (p + 512 ≤ tau) | none => true
    if !counted then s.addField cnt 31 16 1
    else
      let s := s.addField cnt 15 0 1
      let s := { s with cap := { s.cap with lastEdge := mapSet s.cap.lastEdge pin tau } }
      cs.foldl (fun s e => s.occurrence e.1 tau (.time tau)) s

/-- Level of a TRIG_OUT pin from its pulses. -/
def State.trigLevel (s : State) (pin : Nat) : Bool :=
  s.cap.pulses.any (fun p => decide (p.pin = pin ∧ p.start ≤ s.now ∧ s.now < p.stop))

/-- Drive a TRIG_OUT pin. -/
def State.driveTrig (s : State) (pin : Nat) (b : Bool) : State :=
  { s with cap := { s.cap with trigOut := BitVec.ofNat 8 (setBits (BitVec.ofNat 32 s.cap.trigOut.toNat) pin pin (bitOf b)).toNat } }

/-- TRIG_OUT_PULSE: a pulse whose first cycle has come drives its pin high. -/
def State.trigOutPulse (s : State) (pin : Nat) : State := if s.trigLevel pin then s.driveTrig pin true else s

/-- TRIG_OUT_PULSE_END: pulses that have ended leave; the pin carries the OR of the others. -/
def State.trigOutPulseEnd (s : State) (pin : Nat) : State :=
  let b := s.trigLevel pin
  let s := { s with cap := { s.cap with pulses := s.cap.pulses.filter (fun p => decide (p.pin ≠ pin ∨ s.now < p.stop)) } }
  s.driveTrig pin b

/-- Calibration entry `c` from the code counts (R437). -/
def calCode (h : List Nat) (c : Nat) : Nat :=
  min 127 ((256 * (h.take c).sum + 128 * h.getD c 0) / 2 ^ 21)

/-- TDC registers of an input: control and first calibration word; input 8 is PPS_IN (R560). -/
def tdcRegs (n : Nat) : Nat × Nat :=
  if n < 8 then (aCap (n / 4) (0x100 + 0x10 * (n % 4)), aCap (n / 4) (0x1000 + 0x100 * (n % 4)))
  else (aTim 0x20008, aTim 0x20100)

/-- An armed PIN condition uses the input. -/
def State.pinUsed (s : State) (n : Nat) : Bool :=
  s.cap.conds.any (fun e => decide (ceSource e.2.entry = 1) && decide (ceArg e.2.entry = n))

/-- CAL_START of an input (R437). -/
def State.tdcCalStart (s : State) (n : Nat) : State :=
  if n < 8 ∧ s.pinUsed n then s else s.setFlag (tdcRegs n).1 30 true

/-- The calibration under way ends (R437): CAL_VALID set, CAL_BUSY clear. -/
def State.tdcCalDone (s : State) (n : Nat) (h : List Nat) : State :=
  let (ctl, cal) := tdcRegs n
  if !s.flag ctl 30 then s
  else
    let s := (List.range 64).foldl (fun s w =>
      s.setReg (cal + 4 * w) (BitVec.ofNat 32 ((List.range 4).foldl (fun v j => v + calCode h (4 * w + j) * 2 ^ (8 * j)) 0))) s
    (s.setFlag ctl 30 false).setFlag ctl 29 true

/-! ### Coincidences (R434, R435) -/

/-- Start and end of the next window of a table, in the settings of its close (R432). -/
def Coinc.window (x : Coinc) : Option (Nat × Nat × List Byte) :=
  let open_ := fun (t : List Byte) =>
    let l := (x.events.filter (fun e => (ctReq t).testBit e.slot
      && (match x.closed with | some c => decide (c < e.time) | none => true))).map (·.time)
    l.foldl (fun a v => match a with | some m => some (min m v) | none => some v) (none : Option Nat)
  match open_ x.tbl with
  | none => (match x.new with
      | some (some _, t) => (open_ t).map (fun t0 => (t0, t0 + 128 * ctWindow t, t))
      | _ => none)
  | some t0 =>
    let cl := t0 + 128 * ctWindow x.tbl
    match newFrom x.new (cl / 128) with
    | some t => some (t0, t0 + 128 * ctWindow t, t)
    | none => some (t0, cl, x.tbl)

/-- COINC_WINDOW_CLOSE: decide the window of table `n` once its time has come. -/
def State.coincClose (s : State) (n : Nat) : State :=
  match mapGet s.cap.tables n with
  | none => s
  | some x =>
    match x.window with
    | none => s
    | some (t0, cl, t) =>
      if s.cycle 0 ≤ max cl (t0 + 128 * (4095 + 8)) / 128 then s
      else
        let ins := sortBy (fun e => e.time * 8 + e.slot) (x.events.filter (fun e => decide (t0 ≤ e.time ∧ e.time ≤ cl)))
        let s := s.putTable n { x with closed := some cl, events := x.events.filter (fun e => decide (cl < e.time)) }
        let slots := (List.range 8).filter (fun i => (ctReq t).testBit i && ins.any (fun e => decide (e.slot = i)))
        let veto := ins.any (fun e => (ctVeto t).testBit e.slot)
        if ctMin t ≤ slots.length ∧ ctPrimary t ∈ slots ∧ veto = false then
          match ins.find? (fun e => decide (e.slot = ctPrimary t)) with
          | some e =>
            (s.cap.conds.filter (fun c => decide (ceSource c.2.entry = 4 ∧ ceArg c.2.entry = n))).foldl
              (fun s c => s.occurrence c.1 cl e.point) s
          | none => s
        else s

/-! ### Frames (R425) -/

/-- A mark of streaming mode (R459). -/
def markBytes (kind primary g sample frac late lost frame : Nat) (mask tag : List Byte) : List Byte :=
  leBytes 2 2 ++ [BitVec.ofNat 8 kind, BitVec.ofNat 8 primary, BitVec.ofNat 8 g, 0, 0, 0] ++ leBytes 8 sample
    ++ leBytes 2 frac ++ leBytes 2 late ++ leBytes 4 lost ++ leBytes 8 frame ++ bytesAt mask 0 32 ++ bytesAt tag 0 24
    ++ List.replicate 8 0

/-- A frame that waits for its copy in streaming mode is lost: it joins the OVERRUN mark that ends with the frame
before, or makes a new one (R453). -/
def loseFrame (gi : Nat) (g : Group) (f : Nat) : Group :=
  match g.marks.getLast? with
  | some (k, m) =>
    if fieldLE m 2 1 = 1 ∧ k = f ∧ fieldLE m 0x18 8 + fieldLE m 0x14 4 = f then
      { g with copyNext := f + 1
               marks := g.marks.dropLast ++ [(f + 1, markBytes 1 0 gi 0 0 0 (fieldLE m 0x14 4 + 1) (fieldLE m 0x18 8) [] [])] }
    else { g with copyNext := f + 1, marks := g.marks ++ [(f + 1, markBytes 1 0 gi 0 0 0 1 f [] [])] }
  | none => { g with copyNext := f + 1, marks := [(f + 1, markBytes 1 0 gi 0 0 0 1 f [] [])] }

/-- The events accepted on one slot form frame G of group `gi`. `evs` lists, in member order, the event, its
sequence number, and whether REFUSED_SEEN of a capture-only member goes into the stamp. -/
def State.formFrame (s : State) (gi : Nat) (evs : List (AdmEvent × Nat × Bool)) (inst : Nat) : State :=
  let g := s.grp gi
  let d := g.die
  let n := g.nextFrame
  let arr := evs.map (fun e => e.1.arrival)
  let lo := arr.foldl min (arr.headD 0)
  let hi := arr.foldl max 0
  let fl := bitOf (evs.any (fun e => e.2.2)) + 2 * bitOf (decide (g.skewTol < hi - lo))
  let a := 128 * arr.headD 0
  let rs := (evs.head?.map (fun e => e.2.1)).getD 0
  let stamp := leBytes 2 1 ++ leBytes 2 fl ++ leBytes 2 g.refStream ++ [0, 0] ++ leBytes 8 n ++ leBytes 8 rs ++ leBytes 8 a
  let body := evs.foldl (fun l e => l ++ e.1.bytes) stamp
  let s := s.ringWrite g n (bytesAt body 0 g.frameLen)
  let lost := n - g.ringFrames
  let overs := g.streaming && decide (g.ringFrames ≤ n) && decide (g.copyNext = lost)
  let g := if overs then loseFrame gi g lost else g
  let s := if overs then s.addReg (aGrp gi 0x1C) 1 else s
  let s := s.putGrp gi { g with nextFrame := n + 1, frames := g.frames ++ [⟨n, a, rs, inst, fl, s.now⟩], forces := [] }
  let s := s.count d 0x53 1 ⟨none, some g.part, 0x7FFF, none⟩
  let s := (s.count 0 0x63 (g.frameLen / 64) occ0).count 1 0x63 (g.frameLen / 64) occ0
  let spf := s.spf d g.refStream
  g.forces.foldl (fun s c => s.occurrence c (128 * s.cycle d) (.at_ n (n * spf) 0)) s

/-! ### Entry slots (R417 to R419, R424) -/

/-- Entry period and phase of an open stream by its role (R417). -/
def State.entryPeriod (s : State) (d st : Nat) : Nat × Nat :=
  match s.entryOf st with
  | some (_, _, _, r) => (prE r, prPhi r)
  | none => (s.field (aSmap d st 1) 31 16 + 1, s.field (aSmap d st 1) 15 0)

/-- The oldest waiting event that an entry slot may take now. -/
def State.eligible (s : State) (d st : Nat) : Option AdmEvent :=
  (s.strm d st).waiting.head?.bind (fun e => if e.since ≤ s.now then some e else none)

/-- Members whose instance R214 forbids, counting the members before them. -/
def State.capMembers (s : State) (d : Nat) (ms : List Nat) : List Nat :=
  (ms.foldl (fun (a : List Nat × Nat × Nat) st =>
    match s.entryOf st with
    | some (_, _, im, r) =>
      let n0 := a.2.1 + im.opCount 0 (prNum r) (s.cycle d) 0
      let n1 := a.2.2 + im.opCount 0 (prNum r) (s.cycle d) 1
      if 49152 < n0 ∨ 49152 < n1 then (a.1 ++ [st], a.2) else (a.1, n0, n1)
    | none => a) ([], s.seq.ops0, s.seq.ops1)).1

/-- The joint entry slot of an armed group (R424). -/
def State.groupSlot (s : State) (gi : Nat) (g : Group) : State :=
  let d := g.die
  if g.members.any (fun m => (s.eligible d m).isNone) then s
  else
    let full := s.capMembers d g.members
    if !full.isEmpty then
      g.members.foldl (fun s m =>
        if m ∈ full then (s.refuseHead d m 2).addReg (aSeq d 0x20) 1 else s.refuseHead d m 5) s
    else
      let (s, evs, inst) := g.members.foldl (fun (a : State × List (AdmEvent × Nat × Bool) × Nat) m =>
        let s := a.1
        match s.eligible d m with
        | none => a
        | some e =>
          let seq := s.nextSeq d m
          if (s.entryOf m).isSome then
            let id := s.seq.nextId
            (s.acceptEntry d m, a.2.1 ++ [(e, seq, false)], if a.2.1.isEmpty then id else a.2.2)
          else (s.acceptOnly d m, a.2.1 ++ [(e, seq, (s.strm d m).refused)], a.2.2)) (s, [], 0)
      s.formFrame gi evs inst

/-- ENTRY_SLOT. A group's joint slot stands at the row of its reference member. -/
def State.entrySlot (s : State) (d st : Nat) : State :=
  let (e, phi) := s.entryPeriod d st
  let x := s.strm d st
  if !s.streamOpen d st ∨ s.cycle d % e ≠ phi ∨ x.slotAt = some s.now then s
  else if (s.entryOf st).isNone ∧ (s.sideOwner st).isSome then s
  else
    let s := s.putStrm d st { x with slotAt := some s.now }
    match s.groupOf st with
    | some (gi, g) => if st = g.refStream then s.groupSlot gi g else s
    | none =>
      if (s.eligible d st).isNone then s
      else if s.capRefuses d st then (s.refuseHead d st 2).addReg (aSeq d 0x20) 1
      else if (s.entryOf st).isSome then s.acceptEntry d st
      else s

/-! ### Measurements (R454, R458) -/

/-- Samples of channel `ch` of member `m` in a frame's bytes. -/
def State.frameSamples (s : State) (g : Group) (m ch : Nat) (b : List Byte) : List Int :=
  let st := g.members.getD m 0
  let off := (g.members.take m).foldl (fun n q => n + 32 * s.tpe g.die q) 32
  let f := s.field (aSmap g.die st 2) 27 25
  let chs := s.field (aSmap g.die st 2) 24 20 + 1
  let n := sfmtWidth f / 8
  (List.range (s.spf g.die st)).map (fun i =>
    let v := fieldLE b (off + n * (i * chs + ch)) n
    if f = 1 ∨ f = 3 then (v : Int) else signedOf (8 * n) v)

/-- `a / n`, half to even (R454). -/
def rdiv (a : Int) (n : Nat) : Int :=
  let q := a / n
  let r := a % n
  if 2 * r < n then q else if (n : Int) < 2 * r then q + 1 else if q % 2 = 0 then q else q + 1

/-- Saturate a signed result of `w` bits. -/
def satS (w : Nat) (v : Int) : Int × Bool := clampInt (-(2 ^ (w - 1))) (2 ^ (w - 1) - 1) v
/-- Saturate an unsigned result of `w` bits. -/
def satU (w v : Nat) : Nat × Bool := if 2 ^ w ≤ v then (2 ^ w - 1, true) else (v, false)

/-- Rising crossings of level `l`, each in units of 2^-16 sample. -/
def crossings (y : List Int) (l : Int) : List Nat :=
  (y.zip (y.drop 1)).zipIdx.filterMap (fun e =>
    let a := 256 * e.1.1
    let b := 256 * e.1.2
    if a < l ∧ l ≤ b then some (65536 * e.2 + (65536 * (l - a) / (b - a)).toNat) else none)

/-- The 48-byte measurement block of the samples `x`. -/
def measure (x : List Int) (nb : Nat) (level : Int) (neg : Bool) : List Byte :=
  let n := x.length
  let y := if neg then x.map (fun v => -v) else x
  let mn := x.foldl min (x.headD 0)
  let mx := x.foldl max (x.headD 0)
  let (mean, s1) := satS 32 (rdiv (256 * x.sum) n)
  let (rms, s2) := satU 32 (Nat.sqrt (65536 * (x.map (fun v => (v * v).toNat)).sum / n))
  let (base, s3) := if nb = 0 then (0, false) else satS 32 (rdiv (256 * (y.take nb).sum) nb)
  let (ampl, s4) := satS 32 (256 * y.foldl max (y.headD 0) - base)
  let (area, s5) := satS 64 ((y.map (fun v => 256 * v - base)).sum)
  let ts := crossings y level
  let k := ts.length
  let (per, s6) := if 2 ≤ k then satU 32 ((ts.getLastD 0 - ts.headD 0) / (k - 1)) else (0, false)
  let (rise, s7) :=
    if 0 < ampl then
      match (crossings y (base + ampl / 10)).head? with
      | none => (0, false)
      | some a =>
        match (crossings y (base + 9 * ampl / 10)).find? (fun t => decide (a ≤ t)) with
        | some b => satU 32 (b - a)
        | none => (0, false)
    else (0, false)
  let (nc, s8) := satU 16 k
  let sat := s1 || s2 || s3 || s4 || s5 || s6 || s7 || s8
  leBytes 4 (unsignedOf 32 mn) ++ leBytes 4 (unsignedOf 32 mx) ++ leBytes 4 (unsignedOf 32 mean) ++ leBytes 4 rms
    ++ leBytes 4 (unsignedOf 32 ampl) ++ leBytes 4 (unsignedOf 32 base) ++ leBytes 8 (unsignedOf 64 area)
    ++ leBytes 4 per ++ leBytes 4 rise ++ leBytes 2 nc ++ leBytes 2 (bitOf sat) ++ List.replicate 4 0

/-! ### Sealing (R442, R450, R453, R457) -/

/-- Condition numbers of a set of passes as a 32-byte mask. -/
def srcMask (ps : List TrigPass) : List Byte :=
  (List.range 32).map (fun b => BitVec.ofNat 8 ((List.range 8).foldl (fun v j =>
    v + bitOf (ps.any (fun p => decide (p.cond = 8 * b + j))) * 2 ^ j) 0))

/-- The primary pass: the lowest-numbered condition, its earliest pass first (R441). -/
def primaryPass (ps : List TrigPass) : Option TrigPass :=
  ps.foldl (fun a p => match a with | some q => if p.cond < q.cond then some p else a | none => some p) none

/-- Tag and late count of the lowest-numbered lattice condition among the passes, as they stand now (R348, R457). -/
def State.passTag (s : State) (ps : List TrigPass) : List Byte × Nat :=
  match primaryPass (ps.filter (fun p => decide (p.inst ≠ 0))) with
  | none => (List.replicate 24 0, 0)
  | some p => match s.inst p.inst with
    | some x => (s.tagOf x, x.lateCount)
    | none => (p.tag, p.late)

/-- An instance that ends leaves its final tag with the passes that name it. -/
def State.capRetire (s : State) (x : Inst) : State :=
  let t := s.tagOf x
  let f := fun (p : TrigPass) => if p.inst = x.id then { p with tag := t, late := x.lateCount } else p
  { s with cap := { s.cap with groups := s.cap.groups.map (fun e => (e.1, { e.2 with
      records := e.2.records.map (fun r => { r with passes := r.passes.map f })
      unassigned := e.2.unassigned.map (fun u => (u.1, f u.2)) })) } }

/-- Seal a record of group `gi` now (R442); in streaming mode a TRIGGER mark follows the last frame copied (R453). -/
def State.seal (s : State) (gi : Nat) (r : Record) : State :=
  let g := s.grp gi
  let (tag, late) := s.passTag r.passes
  let pp := (primaryPass r.passes).getD ⟨0, 0, 0, none, 0, [], 0⟩
  let mask := srcMask r.passes
  let g' := { g with records := g.records.filter (fun q => decide (q.sample ≠ r.sample)), sealedAt := r.sample :: g.sealedAt }
  if g.streaming then
    s.putGrp gi { g' with marks := g.marks ++ [(g.copyNext, markBytes 0 pp.cond gi r.sample pp.frac late 0 r.frame mask tag)] }
  else
    let first : Int := (r.frame : Int) - g.pre
    let nf := g.pre + g.post
    let fr := (List.range nf).map (fun (i : Nat) => first + (i : Int))
    let pre := fr.any (fun f => decide (f < 0))
    let post := fr.any (fun f => decide ((g.nextFrame : Int) ≤ f))
    let fill := fr.filter (fun f => decide (f < 0 ∨ (g.nextFrame : Int) ≤ f))
    let held := g.frames.filter (fun f => decide (first ≤ f.g ∧ (f.g : Int) < first + nf))
    let fl := bitOf pre + 2 * bitOf post + 16 * bitOf (held.any (fun f => f.flags.testBit 1))
      + 32 * bitOf (held.any (fun f => f.flags.testBit 0)) + 128 * bitOf pp.time.isNone
    let bytes := fr.foldl (fun l f => l ++ (if f < 0 ∨ (g.nextFrame : Int) ≤ f ∨ g.rewritten f.toNat then List.replicate g.frameLen 0
      else (s.ringRead g f.toNat).1)) []
    let frs := chunks g.frameLen nf bytes
    let meas := g.meas.foldl (fun l m =>
      l ++ measure (frs.foldl (fun a b => a ++ s.frameSamples g (fieldLE m 0 1) (fieldLE m 1 1) b) []) (fieldLE m 4 4)
        (signedOf 32 (fieldLE m 8 4)) (decide (fieldLE m 2 1 = 1))) []
    let hd := leBytes 4 0x50434552 ++ leBytes 2 0x100 ++ leBytes 2 512
      ++ [BitVec.ofNat 8 gi, BitVec.ofNat 8 pp.cond, BitVec.ofNat 8 g.nmemb, BitVec.ofNat 8 g.meas.length] ++ leBytes 4 fl
      ++ leBytes 8 g.recNo ++ leBytes 8 (unsignedOf 64 first) ++ leBytes 4 nf ++ leBytes 4 g.frameLen ++ leBytes 4 g.pre
      ++ leBytes 4 fill.length ++ leBytes 8 r.sample ++ leBytes 2 pp.frac ++ leBytes 2 late ++ leBytes 4 0
      ++ leBytes 8 pp.tau ++ timeBytes (timeOf16 (pp.time.getD 0)) ++ leBytes 2 g.refStream ++ [0, 0] ++ leBytes 4 0
      ++ List.replicate 4 0 ++ bytesAt tag 0 24 ++ List.replicate 8 0 ++ mask
      ++ bytesAt (g.members.foldl (fun l m => l ++ leBytes 2 m) []) 0 32 ++ bytesAt meas 0 192 ++ List.replicate 128 0
    let s := s.putGrp gi { g' with recNo := g.recNo + 1, ready := g.ready ++ [⟨hd, first, g.toHost, g.toDeep, fill⟩] }
    (s.addReg (aGrp gi 4) 1).count 0 0x54 1 ⟨none, some g.part, 0x7FFF, none⟩

/-- A record may be sealed (R442). -/
def State.sealable (s : State) (g : Group) (r : Record) : Bool :=
  let last := r.frame + g.post - 1
  let t1 := (r.passes.map (·.tau)).foldl min ((r.passes.map (·.tau)).headD 0)
  g.frames.any (fun f => decide (f.g = last ∧ f.at_ < s.now))
    && decide (t1 / 128 + ceilDiv g.toff 128 + g.e + 1600 ≤ s.cycle g.die)

/-- RECORD_SEAL: the oldest unsealed record whose time has come. -/
def State.recordSeal (s : State) (gi : Nat) : State :=
  let g := s.grp gi
  match g.records.find? (s.sealable g) with
  | some r => s.seal gi r
  | none => s

/-- TRIGGER_POINT_ASSIGN: the oldest pass whose frame is decided (R439). -/
def State.triggerPointAssign (s : State) (gi : Nat) : State :=
  let g := s.grp gi
  match g.unassigned.find? (fun u => (s.assignFrame g u.1).isSome) with
  | none => s
  | some u =>
    let s := s.putGrp gi { g with unassigned := g.unassigned.erase u }
    match s.assignFrame g u.1 with
    | some (some f) =>
      let (fr, smp, frac) := g.mapTime (s.spf g.die g.refStream) u.1 f
      s.triggerAt gi fr smp { u.2 with frac := frac }
    | _ => s.addReg (aGrp gi 8) 1

/-! ### Delivery (R443 to R446, R452) -/

/-- The host ring of a group has a free slot (R444). -/
def State.hostSlotFree (s : State) (gi : Nat) : Bool :=
  decide (((s.reg (aGrp gi 0x10)).toNat + 2 ^ 32 - (s.reg (aGrp gi 0x14)).toNat) % 2 ^ 32 < (s.grp gi).hrDepth)

/-- Fill the next host slot and signal it. -/
def State.hostSlotPut (s : State) (gi : Nat) (bs : List Byte) : State :=
  let g := s.grp gi
  let hwr := (s.reg (aGrp gi 0x10)).toNat
  match (s.part g.part).owner with
  | none => s
  | some p =>
    let x := s.port p
    let s := s.putPort p { x with host := memWrite x.host (g.hrBase + hwr % g.hrDepth * g.hrSlot) bs }
    (s.setReg (aGrp gi 0x10) (BitVec.ofNat 32 (hwr + 1))).msi p g.hrVector

/-- Replace bytes of a string. -/
def patch (b : List Byte) (o : Nat) (v : List Byte) : List Byte := b.take o ++ v ++ b.drop (o + v.length)

/-- RECORD_DELIVERY: the oldest sealed record is copied from the ring and goes where it is directed. -/
def State.recordDelivery (s : State) (gi : Nat) : State :=
  let g := s.grp gi
  match g.ready with
  | [] => s
  | r :: rest =>
    let s := s.putGrp gi { g with ready := rest }
    let frs := (List.range (g.pre + g.post)).map (fun (i : Nat) =>
      let f : Int := r.first + (i : Int)
      if f < 0 ∨ f ∈ r.filled then (List.replicate g.frameLen 0, false, false)
      else if g.rewritten f.toNat then (List.replicate g.frameLen 0, true, false)
      else let x := s.ringRead g f.toNat; (x.1, false, x.2))
    let ovr := (frs.filter (fun f => f.2.1)).length
    let taint := frs.any (fun f => f.2.2)
    let lost := (s.grp gi).lost
    let hd := patch (patch (patch r.header 0xC (leBytes 4 (fieldLE r.header 0xC 4 + 4 * bitOf (decide (0 < ovr)) + 8 * bitOf taint
      + 64 * bitOf (decide (0 < lost))))) 0x3C (leBytes 4 lost)) 0x58 (leBytes 4 ovr)
    let bs := frs.foldl (fun l f => l ++ f.1) hd
    let s := if ovr = 0 then s else s.addReg (aGrp gi 0x1C) ovr
    let s := if r.toHost then
        (if s.hostSlotFree gi then (s.hostSlotPut gi bs).putGrp gi { (s.grp gi) with lost := 0 } else s.recordLost gi)
      else s
    if r.toDeep then
      let s := if r.toHost then s else s.putGrp gi { s.grp gi with lost := 0 }
      s.deepDeliver gi g.deepStream bs
    else s

/-- Deliver every sealed record that waits. -/
def State.deliverAll (s : State) (gi : Nat) : State :=
  ((s.grp gi).ready).foldl (fun s _ => s.recordDelivery gi) s

/-- The next item of a streaming group: its bytes, and the group with the item taken. -/
def State.nextItem (s : State) (g : Group) : Option (List Byte × Group) :=
  match g.marks with
  | (k, m) :: ms =>
    if k ≤ g.copyNext then some (m, { g with marks := ms })
    else if g.copyNext < g.nextFrame then some ((s.ringRead g g.copyNext).1, { g with copyNext := g.copyNext + 1 }) else none
  | [] =>
    if g.copyNext < g.nextFrame then some ((s.ringRead g g.copyNext).1, { g with copyNext := g.copyNext + 1 }) else none

/-- Write out the slot being filled, with zeros behind its items. -/
def State.flushSlot (s : State) (gi : Nat) : State :=
  let g := s.grp gi
  (s.hostSlotPut gi (bytesAt g.slotBuf 0 g.hrSlot)).putGrp gi { g with slotBuf := [] }

/-- STREAM_COPY: the next frame or mark goes into the slot being filled, or into a free one. A full slot, and the one
that holds the STOP mark, is written out. -/
def State.streamCopy (s : State) (gi : Nat) : State :=
  let g := s.grp gi
  if !g.streaming then s
  else
    match s.nextItem g with
    | none => s
    | some (b, _) =>
      let s := if 0 < g.slotBuf.length ∧ g.hrSlot < g.slotBuf.length + b.length then s.flushSlot gi else s
      let g := s.grp gi
      if g.slotBuf.isEmpty ∧ !s.hostSlotFree gi then s
      else
        match s.nextItem g with
        | none => s
        | some (b, g') =>
          let s := s.putGrp gi { g' with slotBuf := g.slotBuf ++ b }
          if b.length = 96 ∧ fieldLE b 0 2 = 2 ∧ fieldLE b 2 1 = 3 then
            let s := s.flushSlot gi
            s.putGrp gi { s.grp gi with streaming := false, stopping := false }
          else s

/-! ### ARM, DISARM, FORCE_TRIGGER (R424, R427, R433, R447 to R451) -/

/-- What a command's own rules answer: the state, a status, DETAIL and RESULT. -/
abbrev CmdRes := State × Nat × Nat × Nat

/-- Refused with no effect. DEDUCED: log entry 8. -/
def refusal (s : State) (st det : Nat) : CmdRes := (s, st, det, 0)

/-- Pieces of an arm block. -/
def abMeas (b : List Byte) : List (List Byte) := (List.range (fieldLE b 3 1)).map (fun i => bytesAt b (128 + 16 * i) 16)
def abConds (b : List Byte) : List (List Byte) :=
  (List.range (fieldLE b 6 2)).map (fun i => bytesAt b (128 + 16 * fieldLE b 3 1 + 16 * i) 16)
def abTables (b : List Byte) : List (List Byte) :=
  (List.range (fieldLE b 5 1)).map (fun i => bytesAt b (128 + 16 * (fieldLE b 3 1 + fieldLE b 6 2) + 32 * i) 32)
/-- Length that the counts of an arm block give it. -/
def abLen (b : List Byte) : Nat := 128 + 16 * fieldLE b 3 1 + 16 * fieldLE b 6 2 + 32 * fieldLE b 5 1

/-- No element occurs twice. -/
def distinct : List Nat → Bool
  | [] => true
  | x :: xs => !(xs.contains x) && distinct xs

/-- Value ranges of a condition entry (R447). DEDUCED: log entry 90. -/
def condOk (b : List Byte) : Bool :=
  decide (ceSource b ≤ 4 ∧ fieldLE b 2 1 < 32 ∧ (ceSource b = 1 → ceArg b < 8) ∧ (ceSource b = 4 → ceArg b < 64)
    ∧ cePin b < 8 ∧ (ceFlag b 1 = true → 1 ≤ ceWidth b) ∧ fieldLE b 6 2 = 0 ∧ 1 ≤ cePrescale b)

/-- Bits set in a byte. -/
def bitCount (v : Nat) : Nat := (maskList 8 v).length

/-- Ranges of a coincidence table by itself (R433). -/
def tableOk (t : List Byte) : Bool :=
  decide (ctTable t < 64 ∧ 1 ≤ ctNin t ∧ ctNin t ≤ 8 ∧ ctReq t &&& ctVeto t = 0 ∧ ctReq t < 2 ^ ctNin t
    ∧ 1 ≤ ctMin t ∧ ctMin t ≤ bitCount (ctReq t) ∧ ctPrimary t < 8 ∧ (ctReq t).testBit (ctPrimary t) = true
    ∧ 1 ≤ ctWindow t ∧ ctWindow t ≤ 4095) && (List.range 8).all (fun i => decide (ctDelay t i ≤ 4095))

/-- R433 for a table of an arm block of partition owner `ow`. -/
def State.tableFits (s : State) (ow : Option Port) (cs : List (List Byte)) (t : List Byte) : Bool :=
  let users := cs.filter (fun c => decide (ceSource c = 4 ∧ ceArg c = ctTable t))
  tableOk t && users.all (fun c => (List.range (ctNin t)).all (fun i => decide (ctInput t i < ceCond c)))
    && (users.isEmpty || cs.any (fun c => decide (ceCond c = ctInput t (ctPrimary t))))
    && (List.range (ctNin t)).all (fun i =>
      cs.any (fun c => decide (ceCond c = ctInput t i)) || (match s.cond (ctInput t i) with
        | some x => decide ((s.part x.part).owner = ow)
        | none => true))

/-- Die, entry period and phase of a stream that may be a member of a group of partition `p` (R424). -/
def State.memberRole (s : State) (p st : Nat) : Option (Nat × Nat × Nat) :=
  let d := if s.streamOn 0 st then some 0 else if s.streamOn 1 st then some 1 else none
  match d with
  | none => none
  | some d =>
    let r := s.entryPeriod d st
    match s.entryOf st with
    | some e => if e.1 = p then some (d, r) else none
    | none => if (s.sideOwner st).isSome then none else some (d, r)

/-- Sum of FRAME_LEN / E over the armed groups, as numerator and denominator. -/
def State.budget (s : State) : Nat × Nat :=
  s.cap.groups.foldl (fun a e => if e.2.armed then (a.1 * e.2.e + e.2.frameLen * a.2, a.2 * e.2.e) else a) (0, 1)

/-- Two ranges of 64 MiB units meet. -/
def unitsMeet (a la b lb : Nat) : Bool := decide (a < b + lb ∧ b < a + la ∧ 0 < la ∧ 0 < lb)

/-- The group that an arm block makes. -/
def State.newGroup (s : State) (p : Nat) (b : List Byte) : Group :=
  let g : Group := { group0 with blk := bytesAt b 0 128, meas := abMeas b, seed := BitVec.ofNat 64 (fieldLE b 0x50 8) }
  let (d, e, phi) := (s.memberRole p g.refStream).getD (0, 1, 0)
  let fl := ceilDiv (g.members.foldl (fun n m => n + 32 * s.tpe d m) 32) 128 * 128
  let g := { g with die := d, e := e, phi := phi, frameLen := fl, ringFrames := 4 * g.ringSize * 2 ^ 26 / fl, armed := true }
  { g with streaming := g.streams, marks := if g.streams then [(0, markBytes 2 0 (fieldLE b 0 1) 0 0 0 0 0 [] [])] else [] }

/-- Checks of ARM in the order of R448 (with R636): the first that fails, with its status. DEDUCED: log entry 8. DEDUCED: log entry 90. -/
def State.armCheck (s : State) (port : Port) (p gi : Nat) (b : List Byte) : Option (Nat × Nat) :=
  let pt := s.part p
  let cs := abConds b
  let ts := abTables b
  let ow := pt.owner
  let cn := cs.map ceCond
  let tn := ts.map ctTable
  let g := s.newGroup p b
  let others := (cn.filterMap s.cond).map (·.group) ++ (tn.filterMap (mapGet s.cap.tables)).map (·.group)
  let roles := g.members.map (s.memberRole p)
  let lat := cs.any (fun c => decide (ceSource c = 0))
  if ow ≠ some port ∨ others.any (fun q => decide ((s.part (s.grp q).part).owner ≠ ow)) then some (stOwner, 1)
  else if (s.grp gi).armed ∨ (s.grp gi).streaming ∨ !others.isEmpty ∨ g.members.any (fun m => (s.groupOf m).isSome) then some (stState, 2)
  else if !(decide (gi < 64 ∧ fieldLE b 0 1 = gi ∧ g.part = p ∧ 1 ≤ g.nmemb ∧ g.nmemb ≤ 16 ∧ g.flags < 8 ∧ g.meas.length ≤ 4
      ∧ ts.length ≤ 64 ∧ cs.length ≤ 256 ∧ b.length = abLen b ∧ 1 ≤ g.ringSize ∧ 1 ≤ g.post ∧ g.hrSlot % 64 = 0
      ∧ 16 ≤ g.hrVector ∧ g.hrVector < 2048) && allZero (bytesAt b 0x5C 36)
      && !((g.toHost || g.fallback) && !portPcie port)
      && g.members.all (fun m => decide (m < 16384)) && distinct g.members && decide (g.deepStream < 16384)
      && g.meas.all (fun m => decide (fieldLE m 2 1 ≤ 1 ∧ fieldLE m 3 1 = 0 ∧ fieldLE m 12 4 = 0))
      && distinct cn && distinct tn && cs.all condOk && ts.all (s.tableFits ow cs)
      && cs.all (fun c => decide (ceSource c ≠ 4) || decide (ceArg c ∈ tn))
      && roles.all (fun r => decide (r = some (g.die, g.e, g.phi)))
      && g.members.all (fun m => decide (s.field (aSmap g.die m 2) 27 25 ≤ 4))) then some (stRange, 3)
  else if (lat && (s.entryOf g.refStream).isNone) || !(g.meas.all (fun m =>
      decide (fieldLE m 0 1 < g.nmemb) && (let st := g.members.getD (fieldLE m 0 1) 0
        decide (fieldLE m 1 1 ≤ s.field (aSmap g.die st 2) 24 20 ∧ fieldLE m 4 4 ≤ g.pre * s.spf g.die st)))) then some (stRange, 4)
  else if 768 < g.ringBase + g.ringSize ∨ s.parts.any (fun e => unitsMeet g.ringBase g.ringSize e.2.allocBase e.2.allocSize)
      ∨ s.cap.groups.any (fun e => e.2.armed && unitsMeet g.ringBase g.ringSize e.2.ringBase e.2.ringSize) then some (stRange, 5)
  else if !(if g.ringFrames < g.post then g.fallback && !g.toDeep && decide (g.frameLen + 96 ≤ g.hrSlot)
      else decide (g.pre + g.post + ceilDiv (ceilDiv g.toff 128 + g.e + 1600) g.e ≤ g.ringFrames)
        && (!g.toHost || decide (512 + (g.pre + g.post) * g.frameLen ≤ g.hrSlot))) then some (stRange, 6)
  else
    let (n, d) := s.budget
    if 2560 * (d * g.e) < n * g.e + g.frameLen * d then some (stRange, 7) else none

/-- ARM of group `gi` on partition `p` with an arm block (R448). DEDUCED: log entry 90. -/
def State.armCmd (s : State) (port : Port) (p gi : Nat) (b : List Byte) : CmdRes :=
  match s.armCheck port p gi b with
  | some (st, n) => refusal s st (0x300 + n)
  | none =>
    let s := s.deliverAll gi
    let s := s.putGrp gi (s.newGroup p b)
    let s := { s with cap := { s.cap with
      conds := (abConds b).foldl (fun m c => mapSet m (ceCond c) ⟨c, gi, p, 0, [], none⟩) s.cap.conds
      tables := (abTables b).foldl (fun m t => mapSet m (ctTable t) ⟨t, none, gi, [], none⟩) s.cap.tables } }
    (s, stOK, 0, 0)

/-- DISARM of a group (R450): members close, records are sealed, conditions and tables end, the budget is free. -/
def State.disarm (s : State) (gi : Nat) : State :=
  let g := s.grp gi
  if !g.armed then s
  else
    let s := g.records.foldl (fun s r => s.seal gi r) s
    let x := s.grp gi
    let marks := if x.streaming then x.marks ++ [(x.nextFrame, markBytes 3 0 gi 0 0 0 0 0 [] [])] else x.marks
    let s := s.putGrp gi { x with armed := false, unassigned := [], forces := [], marks := marks, stopping := x.streaming }
    let s := { s with cap := { s.cap with conds := s.cap.conds.filter (fun e => decide (e.2.group ≠ gi))
                                          tables := s.cap.tables.filter (fun e => decide (e.2.group ≠ gi)) } }
    g.members.foldl (fun s m => if s.roleOpen g.die m then s else s.closeStream g.die m) s

/-- DISARM every group of a partition (R450). -/
def State.disarmPart (s : State) (p : Nat) : State :=
  (s.cap.groups.filter (fun e => e.2.armed && decide (e.2.part = p))).foldl (fun s e => s.disarm e.1) s

/-- The DISARM command. -/
def State.disarmCmd (s : State) (p gi : Nat) : CmdRes :=
  if 64 ≤ gi then refusal s stRange (det618 5)
  else if !(s.grp gi).armed ∨ (s.grp gi).part ≠ p then refusal s stState (det618 4)
  else (s.disarm gi, stOK, 0, 0)

/-- FORCE_TRIGGER (R440, R451). -/
def State.forceCmd (s : State) (port : Port) (c : Nat) : CmdRes :=
  match s.cond c with
  | none => refusal s stState (det618 4)
  | some x =>
    if (s.part x.part).owner ≠ some port then refusal s stOwner (det618 3)
    else if ceSource x.entry ≠ 3 then refusal s stState (det618 4)
    else (s.putGrp x.group { s.grp x.group with forces := (s.grp x.group).forces ++ [c] }, stOK, 0, 0)

/-! ### Trigger settings of a kind-1 mode change (R432) -/

/-- Bytes of a table that a kind-1 change may not change. -/
def tableFixed (t : List Byte) : List Byte :=
  [BitVec.ofNat 8 (ctTable t), BitVec.ofNat 8 (ctNin t), BitVec.ofNat 8 (ctPrimary t)] ++ bytesAt t 8 8

/-- The staged block changes only what R432 lets it change. -/
def State.kind1Ok (s : State) (p : Nat) (b : List Byte) : Bool :=
  let gi := fieldLE b 0 1
  let g := s.grp gi
  let hd := patch (patch (bytesAt b 0 128) 0x50 (List.replicate 8 0)) 5 [0, 0, 0]
  g.armed && decide (g.part = p)
    && decide (hd = patch (patch g.blk 0x50 (List.replicate 8 0)) 5 [0, 0, 0])
    && decide (abMeas b = g.meas)
    && (abConds b).all (fun c => condOk c && (match s.cond (ceCond c) with
        | some x => decide (x.part = p) && decide (c.take 8 = x.entry.take 8)
        | none => false))
    && (abTables b).all (fun t => tableOk t && (match mapGet s.cap.tables (ctTable t) with
        | some x => decide ((s.grp x.group).part = p) && decide (tableFixed t = tableFixed x.tbl)
        | none => false))

/-- Settle settings whose boundary lies behind (R432). -/
def settleCond (c : Condition) : Condition :=
  match c.new with
  | some (some _, v) => { c with entry := c.entry.take 8 ++ leBytes 4 v.1 ++ leBytes 4 v.2, new := none }
  | _ => c
/-- Settle a table. -/
def settleTable (t : Coinc) : Coinc :=
  match t.new with
  | some (some _, v) => { t with tbl := v, new := none }
  | _ => t
/-- Settle a group's seed. -/
def settleGroup (g : Group) : Group :=
  match g.seedNew with
  | some (some _, v) => { g with seed := v, seedNew := none }
  | _ => g

/-- Settle every trigger setting whose boundary lies behind. DEDUCED: log entry 91. -/
def State.settleTriggers (s : State) : State :=
  { s with cap := { s.cap with conds := s.cap.conds.map (fun e => (e.1, settleCond e.2))
                               tables := s.cap.tables.map (fun e => (e.1, settleTable e.2))
                               groups := s.cap.groups.map (fun e => (e.1, settleGroup e.2)) } }

/-- Hold the staged settings beside the armed ones until the boundary (R311). DEDUCED: log entry 91. -/
def State.kind1Stage (s : State) (b : List Byte) : State :=
  let s := s.settleTriggers
  let gi := fieldLE b 0 1
  let s := s.putGrp gi { s.grp gi with seedNew := some (none, BitVec.ofNat 64 (fieldLE b 0x50 8)) }
  { s with cap := { s.cap with
      conds := (abConds b).foldl (fun m c => match mapGet m (ceCond c) with
        | some x => mapSet m (ceCond c) { x with new := some (none, cePrescale c, ceThresh c) } | none => m) s.cap.conds
      tables := (abTables b).foldl (fun m t => match mapGet m (ctTable t) with
        | some x => mapSet m (ctTable t) { x with new := some (none, t) } | none => m) s.cap.tables } }

/-- Discard staged settings of partition `p` whose boundary has not come (R313). -/
def State.kind1Drop (s : State) (p : Nat) : State :=
  { s with cap := { s.cap with
      conds := s.cap.conds.map (fun e => (e.1, match e.2.new with
        | some (none, _) => if e.2.part = p then { e.2 with new := none } else e.2 | _ => e.2))
      groups := s.cap.groups.map (fun e => (e.1, match e.2.seedNew with
        | some (none, _) => if e.2.part = p then { e.2 with seedNew := none } else e.2 | _ => e.2))
      tables := s.cap.tables.map (fun e => (e.1, match e.2.new with
        | some (none, _) => if (s.grp e.2.group).part = p then { e.2 with new := none } else e.2 | _ => e.2)) } }

/-! ### A received trigger message (R600) -/

/-- The oldest TRIGGER message of a link is an occurrence of its condition, or is discarded. -/
def State.triggerMsg (s : State) (d i : Nat) : State :=
  match s.svcTake (linkNo d i) 1 with
  | none => s
  | some (m, s) =>
    let c := fieldLE m.body 0 1
    match s.cond c with
    | some x =>
      if ceSource x.entry = 2 then
        let tau := fieldLE m.body 8 8
        s.occurrence c tau (.time tau)
      else s.badMsg
    | none => s.badMsg

/-! ### The rows -/

/-- ENTRY_SLOT (R419). -/
def execEntrySlot (d st : Nat) (s : State) : Host.Outcome State Fault Refusal :=
  .next (s.only (.entrySlot d st) (s.entrySlot d st))
/-- LATTICE_OCCURRENCE (R429). -/
def execLatticeOccurrence (d ep : Nat) (s : State) : Host.Outcome State Fault Refusal :=
  .next (s.only (.latticeOccurrence d ep) (s.latticeOccurrence d ep))
/-- PIN_EDGE (R436). -/
def execPinEdge (pin : Nat) (rising : Bool) (k tap : Nat) (s : State) : Host.Outcome State Fault Refusal :=
  .next (s.only (.pinEdge pin rising k tap) (s.pinEdge pin rising k tap))
/-- TRIG_OUT_PULSE (R431). -/
def execTrigOutPulse (pin : Nat) (s : State) : Host.Outcome State Fault Refusal :=
  .next (s.only (.trigOutPulse pin) (s.trigOutPulse pin))
/-- TRIG_OUT_PULSE_END (R431). -/
def execTrigOutPulseEnd (pin : Nat) (s : State) : Host.Outcome State Fault Refusal :=
  .next (s.only (.trigOutPulseEnd pin) (s.trigOutPulseEnd pin))
/-- COINC_WINDOW_CLOSE (R435). -/
def execCoincWindowClose (t : Nat) (s : State) : Host.Outcome State Fault Refusal :=
  .next (s.only (.coincWindowClose t) (s.coincClose t))
/-- TRIGGER_POINT_ASSIGN (R439). -/
def execTriggerPointAssign (g : Nat) (s : State) : Host.Outcome State Fault Refusal :=
  .next (s.only (.triggerPointAssign g) (s.triggerPointAssign g))
/-- RECORD_SEAL (R442). -/
def execRecordSeal (g : Nat) (s : State) : Host.Outcome State Fault Refusal :=
  .next (s.only (.recordSeal g) (s.recordSeal g))
/-- RECORD_DELIVERY (R444, R445). -/
def execRecordDelivery (g : Nat) (s : State) : Host.Outcome State Fault Refusal :=
  .next (s.only (.recordDelivery g) (s.recordDelivery g))
/-- STREAM_COPY (R452). -/
def execStreamCopy (g : Nat) (s : State) : Host.Outcome State Fault Refusal :=
  .next (s.only (.streamCopy g) (s.streamCopy g))
/-- TDC_CAL_START (R437). -/
def execTdcCalStart (d pin : Nat) (s : State) : Host.Outcome State Fault Refusal :=
  .next (s.only (.tdcCalStart d pin) (s.tdcCalStart (4 * d + pin)))
/-- PPS_CAL_START (R560). -/
def execPpsCalStart (s : State) : Host.Outcome State Fault Refusal := .next (s.tdcCalStart 8)
/-- TDC_CAL_DONE (R437). -/
def execTdcCalDone (n : Nat) (h : List Nat) (s : State) : Host.Outcome State Fault Refusal :=
  .next (s.only (.tdcCalDone n h) (s.tdcCalDone n h))
/-- TRIGGER (R600). -/
def execTrigger (d i : Nat) (s : State) : Host.Outcome State Fault Refusal :=
  .next (s.only (.trigger d i) (s.triggerMsg d i))

end Sys2Proof.Machine
end

