-- ==== Sys2Proof/Machine/Release.lean ====
section
/-! DEFINITION. Result tokens at the output islands: output frames (R522 to R526), tags and late counts (R229, R348, R354),
comparison records (R366, R367), deep results (R378, R381, R395), the end of an instance, and stopping a partition (R494). -/

namespace Sys2Proof.Machine

/-! ### Output frames (R522 to R526) -/

/-- PSEL of a lane or optical output endpoint. -/
def epPsel (d ep : Nat) : Nat := if ep < 0x1C0 then 16 * d + (ep - 0x1B0) else 32 + 32 * d + (ep - 0x1C0)

/-- Mode of the lane or of the engine of a port (R543). -/
def State.pselMode (s : State) (p : Nat) : Nat :=
  s.field (aLane (if p < 32 then p else 32 + 2 * (p - 32)) 0) 31 29

/-- Register of template `t` of a lane or port. -/
def aTempl (p t o : Nat) : Nat := aPsel p + 0x80 * t + o

/-- Header bytes of a template (R546). -/
def State.templHdr (s : State) (p t : Nat) : List Byte :=
  ((List.range 16).foldl (fun l w => l ++ leBytes 4 (s.reg (aTempl p t (0x240 + 4 * w))).toNat) []).take
    (s.field (aTempl p t 0x204) 21 15)

/-- Fill the IPv4 and UDP fields of a frame (R525). -/
def fillIp (f : List Byte) (o : Nat) : List Byte :=
  let n := f.length - o
  let f := spliceAt f (o + 2) (beBytes 2 n)
  let f := spliceAt f (o + 10) [0, 0]
  let ck := 65535 - onesSum 0 (bytesAt f o 20)
  let f := spliceAt f (o + 10) (beBytes 2 ck)
  let f := spliceAt f (o + 24) (beBytes 2 (n - 20))
  spliceAt f (o + 26) [0, 0]

/-- The bytes of a finished output frame with body `b` (R514, R525). DEDUCED: log entry 60. -/
def State.outFrame (s : State) (p t fseq : Nat) (b : List Byte) : List Byte :=
  if s.pselMode p = 1 then
    let pay := b ++ List.replicate (pad8 b.length - b.length) 0
    let h := beBytes 8 (0xFB * 2 ^ 56 + s.field (aTempl p t 0x204) 7 4 * 2 ^ 52 + b.length % 65536 * 2 ^ 32 + fseq % 2 ^ 32)
    h ++ pay ++ beBytes 8 ((crc32c (2 ^ 32 - 1) (h ++ pay)).toNat * 2 ^ 32)
  else
    let f := s.templHdr p t ++ b
    let f := if s.flag (aTempl p t 0x204) 22 then fillIp f (s.field (aTempl p t 0x204) 14 8) else f
    let f := f ++ List.replicate (60 - f.length) 0
    f ++ ethFcs f

/-- The output lane or port sends: stage FRAMED or above, and laser light on an optical port (R526, R540). -/
def State.outLit (s : State) (p : Nat) : Bool :=
  decide (5 ≤ s.pselStage p) && (decide (p < 32) || s.flag (aOpt ((p - 32) / 32) (0x1000 * ((p - 32) / 4 % 8) + 4)) 31)

/-- Finish the frame that template `t` is building; a dark output discards it whole (R526). DEDUCED: log entry 60. -/
def State.endFrame (s : State) (p t : Nat) (bad : Bool) (f : OutFrame) : State :=
  let n := s.field (aTempl p t 0x204) 31 24 + 1
  let b := f.head ++ f.body ++ List.replicate (32 * (n - f.tokens)) 0
  let x := s.outPort p
  let q := mapGetD x.fseq t 0
  let lit := s.outLit p
  let s := if lit then s.sendFrame p (s.outFrame p t q b) else s
  let x := s.outPort p
  let s := s.putOut p { x with open_ := mapErase x.open_ t, fseq := mapSet x.fseq t (q + 1) }
  let s := s.addReg (aPsel p + (if lit then 0x1C else 0x24)) 1
  if bad then s.addReg (aPsel p + 0x20) 1 else s

/-- The 16-byte result status (R524). -/
def resultStatus (x : Inst) (late : Nat) : List Byte :=
  leBytes 2 x.stream ++ leBytes 2 late ++ leBytes 6 x.seq ++ leBytes 2 x.flags.toNat
    ++ [BitVec.ofNat 8 x.part, BitVec.ofNat 8 x.prog, 0, 0]

/-- A result token goes to the output framer of a lane or port (R522, R523). A frame of another event that stands open
ends there. DEDUCED: log entry 84. -/
def State.frameToken (s : State) (p : Nat) (x : Inst) (tok : Token) : State :=
  let on := decide (s.pselMode p = 1 ∨ s.pselMode p = 3)
  let t := (List.range 8).find? (fun t => on && s.flag (aTempl p t 0x200) 31
    && decide (s.field (aTempl p t 0x200) 7 4 = x.part) && decide (s.field (aTempl p t 0x200) 3 0 = x.prog))
  match t with
  | none => s.addReg (aPsel p + 0x20) 1
  | some t =>
    let s := match mapGet (s.outPort p).open_ t with
      | some f => if f.inst = x.id then s else s.endFrame p t true f
      | none => s
    let tag := if s.flag (aTempl p t 0x204) 23 then s.tagOf x else []
    let f := mapGetD (s.outPort p).open_ t ⟨resultStatus x x.lateCount ++ tag, [], 0, x.id⟩
    let f := { f with body := f.body ++ leBytes 32 tok.payload.toNat, tokens := f.tokens + 1 }
    let full := decide (f.tokens = s.field (aTempl p t 0x204) 31 24 + 1)
    let last := sideLast tok.side
    if full || last then s.endFrame p t (!(full && last)) f
    else s.putOut p { s.outPort p with open_ := mapSet (s.outPort p).open_ t f }

/-! ### Comparison records (R366, R367) -/

/-- The bytes that a token gives a region signature. -/
def sigBytes (t : Token) : List Byte :=
  leBytes 32 t.payload.toNat ++ leBytes 4 (t.side.toNat % 2 ^ 28 / 2 ^ 14 * 2 ^ 14 + t.side.toNat % 2 ^ 12)

/-- The signature of a logical region from the tokens of its ports; `ord` is its ordinal. -/
def regionSig (x : Inst) (l ord : Nat) : BitVec 32 :=
  let port := fun (p : Nat) => mapGetD x.sigs (64 * l + 2 * p) [] ++ mapGetD x.sigs (64 * l + 2 * p + 1) []
  if (List.range 32).all (fun p => (port p).isEmpty) then 0
  else (List.range 32).foldl (fun a p => a ^^^ crc32c (32 * ord + p) (port p)) 0

/-- Ordinal of logical region `l` under a map to physical regions (R263). -/
def ordinalOf (mp : List Nat) (l : Nat) : Nat :=
  ((mp.take l).filter (fun r => decide (r / 8 = mp.getD l 0 / 8))).length

/-- The output check of R366: outputs in increasing endpoint code, die 0 first of two that share one. DEDUCED: log entry 106. -/
def outputCheck (x : Inst) : BitVec 64 :=
  crc64 (2 ^ 64 - 1) ((sortBy (fun e => 2 * (e.1 % 512) + e.1 / 512) x.outputs).foldl (fun l e => l ++ leBytes 32 e.2.payload.toNat) [])

/-- Partition `p` is paired, and both images have equal load digests under equal template indices (R365). -/
def State.mitActive (s : State) (p : Nat) : Bool :=
  match mapGet s.mit.pairs p, mapGet s.mit.peer p, (s.part p).image with
  | some _, some e, some im => decide (e.1 = im.digest ∧ e.2 = im.template)
  | _, _, _ => false

/-- Form the comparison record of a finished event of an active pair (R365, R366). -/
def State.mittenForm (s : State) (x : Inst) : State :=
  if s.mitActive x.part then
    match (s.part x.part).image with
    | some im =>
      let r : MittenRec := ⟨x.part, x.stream, x.seq, s.tagOf x, outputCheck x,
        (List.range 16).map (fun l => if l < im.map.length then regionSig x l (ordinalOf im.map l) else 0), s.now⟩
      { s with mit := { s.mit with toSend := s.mit.toSend ++ [r] } }
    | none => s
  else s

/-! ### Deep results (R378, R381, R395) -/

/-- The stack of the result ring: controller 0 of the die whose regions write to space 3 (R381, R382). -/
def Loaded.resultDie (im : Loaded) : Nat :=
  match im.recs.find? (fun r => decide (r.typ = tyMemslot) && (memEntries r.body).any (fun e => decide (e.addr / 2 ^ 30 = 3))) with
  | some r => im.region r / 8
  | none => 0

/-- Byte of the ring header of a deep partition in its stack. -/
def deepRing (p : Partition) (x : Deep) : Nat := partBase p + 64 * x.par.rrBase
/-- Byte of result slot `i`. -/
def deepSlot (p : Partition) (x : Deep) (i : Nat) : Nat := deepRing p x + 64 * (1 + x.par.rrSlot * i)

/-- Microseconds of a latency in cycles, rounded up and saturating (R378). -/
def latUs (c : Nat) : Nat := min 65535 (ceilDiv c 1250)

/-- Write the slot header of an instance of the pass. -/
def State.deepHeader (s : State) (p : Nat) (x : Deep) (e : DeepInst) (tag : List Byte) (faulted : Bool) : State :=
  match (s.part p).image with
  | none => s
  | some im =>
    let lat := e.latency.getD 0
    let st := bitOf (decide (1250 * x.decl < lat)) + 2 * bitOf faulted
    s.stackWrite (2 * im.resultDie) (deepSlot (s.part p) x e.slot)
      (leBytes 2 e.rcd.stream ++ leBytes 2 (latUs lat) ++ leBytes 4 st ++ bytesAt tag 0 24 ++ List.replicate 32 0)

/-- The first result token of a deep instance has been released: its measured latency (R395). -/
def State.deepFirst (s : State) (i : Nat) : State :=
  match s.inst i with
  | none => s
  | some x =>
    match mapGet s.deep x.part with
    | none => s
    | some dp =>
      match dp.pass with
      | none => s
      | some ps =>
        match ps.insts.find? (fun e => decide (e.inst = i) && e.latency.isNone) with
        | none => s
        | some e =>
          let lat := s.cycle 0 - e.rcd.waitAt
          let ps := { ps with insts := ps.insts.map (fun v => if v.inst = i then { v with latency := some lat } else v) }
          let s := { s with deep := mapSet s.deep x.part { dp with pass := some ps } }
          let s := s.mapInst i (fun y => { y with lateCount := latUs lat })
          let s := s.maxField (aSeq 0 (0x800 + 4 * x.part)) 15 0 (latUs lat)
          if 1250 * dp.decl < lat then
            (s.addReg (aSeq 0 (0x70C + 0x10 * x.part)) 1).firstRecord (aSeq 0 (0x840 + 8 * x.part))
              (ps.step % 16 * 2 ^ 27 + x.seq / 2 ^ 32) (firstOrder 0 x.stream x.seq)
              [(aSeq 0 (0x844 + 8 * x.part), x.seq)]
          else s

/-! ### The end of an instance (R213, R229, R354) -/

/-- Nothing is left for the instance to do. -/
def instDone (x : Inst) : Bool :=
  decide (x.results = 0) && decide (x.ops0 = 0) && decide (x.ops1 = 0) && x.sides.isEmpty

/-- A front-path instance with nothing left to do ends: it leaves its tag with the passes that name it, and the layers
forget its work. A deep instance ends with its pass. -/
def State.instEnd (s : State) (i : Nat) : State :=
  match s.inst i with
  | none => s
  | some x =>
    if instDone x && !s.deepInst x then
      let s := s.capRetire x
      { s with seq := { s.seq with insts := s.seq.insts.filter (fun y => decide (y.id ≠ i)) }
               gau := { s.gau with layers := s.gau.layers.map (fun e =>
                 (e.1, { e.2 with work := e.2.work.filter (fun w => decide (w.inst ≠ i)) })) } }
    else s

/-- An operation of an instance scheduled at `sched` executes now on die `d`. -/
def State.doOp (s : State) (i d sched : Nat) : State := (s.execOp i d sched).instEnd i

/-- An event that has released results on die `d` carries LATE: SEQ_LATE_EVT_CNT and SEQ_LATE_MAX of the die (R252). -/
def State.lateEvent (s : State) (d : Nat) (x : Inst) : State :=
  if x.late && (if d = 0 then x.rel0 else x.rel1) then
    (s.addReg (aSeq d (0x200 + 4 * x.part)) 1).maxField (aSeq d (0x240 + 4 * x.part)) 15 0 x.lateCount
  else s

/-- The event's last result token has been released: its tag entry gets its content, and its record is formed. DEDUCED: log entry 84. -/
def State.lastRelease (s : State) (d : Nat) (x : Inst) : State :=
  let s := s.mapInst x.id (fun y => { y with released := some (s.cycle d) })
  let s := s.auditFill x.part x.id (tagEntry x.stream x.lateCount (s.tagOf x))
  ((s.lateEvent 0 x).lateEvent 1 x).mittenForm x

/-- The first result token of an event is released on die `d`: its tag entry takes its place in the open batch. -/
def State.firstRelease (s : State) (d : Nat) (x : Inst) : State :=
  let o : Occ := ⟨none, some x.part, 0x7FFF, some (x.stream, x.seq)⟩
  let s := s.count d 0x41 1 o
  let s := if x.late then s.count d 0x42 1 o else s
  (s.auditPush x.part ⟨true, x.stream, s.cycle d, x.id, tagEntry x.stream x.lateCount (s.tagOf x)⟩).deepFirst x.id

/-- One result token of instance `x` counts as released at endpoint code `ep` of die `d`, `late` cycles late. -/
def State.countRelease (s : State) (d ep late : Nat) (x : Inst) (tok : Token) : State :=
  let tt := sideTaint tok.side
  let s := if tt = 0 then s else s.raise x.id (BitVec.ofNat 16 (2 + 4 * bitOf (tt.toNat.testBit 1)))
  let s := if 0 < late then s.markLate x.id else s
  let s := s.mapInst x.id (fun y =>
    { y with lateCount := if s.deepInst y then y.lateCount else max y.lateCount (min 65535 late)
             rel0 := y.rel0 || decide (d = 0), rel1 := y.rel1 || decide (d ≠ 0) })
  let s := match s.inst x.id with
    | some y => if x.outputs.isEmpty then s.firstRelease d y else s
    | none => s
  let s := s.mapInst x.id (fun y => { y with outputs := y.outputs ++ [(512 * d + ep, tok)], results := y.results - 1 })
  match s.inst x.id with
  | some y => if y.results = 0 then s.lastRelease d y else s
  | none => s

/-- A token released into an output endpoint of die `d` (R48, R431, R522, R584); it was due at cycle `due`. -/
def State.releaseResult (s : State) (d ep due : Nat) (h : Held) : State :=
  let c := s.cycle d
  let s := match s.inst h.inst with | some x => s.countRelease d ep (c - due) x h.tok | none => s
  let s : State :=
    if 0x1E0 ≤ ep then
      if h.tok.payload.toNat.testBit 0 then
        let pin := 4 * d + (ep - 0x1E0)
        let s : State := { s with cap := { s.cap with pulses := s.cap.pulses ++ [⟨pin, s.now, s.now + 4⟩] } }
        s.trigOutPulse pin
      else s
    else if (s.linkAt d ep).isSome then s.wylHand d ep c h.tok
    else
      match s.inst h.inst with
      | some x => s.frameToken (epPsel d ep) x h.tok
      | none => s.addReg (aPsel (epPsel d ep) + 0x20) 1
  s.instEnd h.inst

/-! ### Stopping a partition (R494) -/

/-- The oldest instance of a partition that has not released its last result token. -/
def State.oldestOf (s : State) (p : Nat) : Option Inst :=
  s.seq.insts.find? (fun x => decide (x.part = p) && x.released.isNone)

/-- The instances of a pass under way on partition `p` get FAULTED slot headers. -/
def State.deepStop (s : State) (p : Nat) : State :=
  match mapGet s.deep p with
  | none => s
  | some x =>
    match x.pass with
    | none => s
    | some ps => ps.insts.foldl (fun s e =>
        match s.inst e.inst with | some y => s.deepHeader p x e (s.tagOf y) true | none => s) s

/-- The fault manager stops partition `p` for cause `k` (R356, R494). -/
def State.stopPartition (s : State) (p k : Nat) : State :=
  let s := s.closePart p
  let s := s.disarmPart p
  let s := ((s.deepStop p).kind1Drop p).abortOps p stFault 0
  let s := s.putPart p { s.part p with state := .stopped, opensAt := none, change := none, filling := false }
  let s := (partRegions (s.part p)).foldl (fun s r => s.setFlag (aLat r 4) 29 true) s
  let s : State := (s.seq.insts.filter (fun x => decide (x.part = p))).foldl (fun (s : State) (x : Inst) =>
    s.auditFill p x.id (tagEntry x.stream x.lateCount (s.tagOf x))) s
  let (st, sq) := match s.oldestOf p with | some x => (x.stream, x.seq) | none => (0, 0)
  (s.auditCtrl p 0x09 st sq k [] [] []).auditClosing p false

/-- The fault manager of die `d` stops partition `p`, unless the die's Crown has stopped (R496). -/
def State.stopOn (s : State) (d p k : Nat) : State := if s.flag (aFlt d 0) 30 then s else s.stopPartition p k

/-! ### What runs -/

/-- The partition fires: it runs or drains. -/
def partLive (p : Partition) : Bool := decide (p.state = .running ∨ p.state = .pausing)
/-- Mode of a region (R202). -/
def State.regionMode (s : State) (r : Nat) : Nat := s.field (aLat r 0) 31 30
/-- The partition of region `r` runs, and the region holds a part of its image (R203, R245). -/
def State.regionOn (s : State) (r : Nat) : Bool :=
  match s.regionPart r with | some p => partLive (s.part p) && decide (s.regionMode r ≠ 0) | none => false
/-- A dead cycle at step `n` and schedule count `c` (R398). -/
def deadCycle (n c : Nat) : Bool := decide (c % 16 * n % 16 < n)
/-- This is a dead cycle of die `d` (R398). -/
def State.dead (s : State) (d : Nat) : Bool := deadCycle (s.field (aSeq d 0x600) 27 24) (s.cycle d)
/-- The units, slots and crossings of region `r` run in this cycle. -/
def State.regionLive (s : State) (r : Nat) : Bool := s.regionOn r && !s.dead (r / 8)
/-- A dead cycle of die `d` delays by one what its gated islands have under way (R398). -/
def State.gated (s : State) (d : Nat) : State :=
  if s.dead d then
    { s with lat := { s.lat with
        units := s.lat.units.map (fun e => if uRegion e.1 / 8 = d then
          (e.1, { e.2 with pipe := e.2.pipe.map (fun f => { f with done := f.done + 1 })
                           fillDone := e.2.fillDone.map (· + 1) }) else e) }
             gau := { s.gau with layers := s.gau.layers.map (fun e => if e.1 / 64 = d then
          (e.1, { e.2 with work := e.2.work.map (fun w => if w.wide.isNone then { w with runEnds := w.runEnds.map (· + 1) } else w) })
          else e) } }
  else s

/-- The instance may release: its partition has not been stopped. -/
def State.instLive (s : State) (i : Nat) : Bool :=
  match s.inst i with | some x => partLive (s.part x.part) | none => true

end Sys2Proof.Machine
end

