-- ==== Sys2Proof/Machine/Units.lean ====
section
/-! DEFINITION. Units as the schedule meets them: configuration words, latencies, cluster SRAM, parity of read-only and
writable state, delivery into queues (R142 to R157, R164, R171 to R199, R475, R481). -/

namespace Sys2Proof.Machine

/-! ### Configuration words (R173 to R177) -/

/-- KIND of unit `u`. -/
def State.uKind (s : State) (u : Nat) : Nat := s.field (aUnit u 0) 31 29
/-- TRIM. -/
def State.uTrim (s : State) (u : Nat) : Nat := s.field (aUnit u 0) 28 26
/-- Number of fold contexts minus 1. -/
def State.uNctx (s : State) (u : Nat) : Nat := s.field (aUnit u 0) 25 24
/-- LOOPEN. -/
def State.uLoop (s : State) (u : Nat) : Bool := s.flag (aUnit u 0) 23
/-- Logical index. -/
def State.uLidx (s : State) (u : Nat) : Nat := s.field (aUnit u 4) 26 0
/-- Element format of queue `q`. -/
def State.uFmt (s : State) (u q : Nat) : ElemFmt := elemFmt (s.field (aUnit u 8) (4 * q + 19) (4 * q + 16))
/-- Epoch of a region (R202). -/
def State.regionEpoch (s : State) (r : Nat) : Nat := s.field (aLat r 0) 29 28
/-- The unit is clock-gated and takes no part in the schedule: it is off (R174), or in lattice mode a utility unit outside the
south cluster row (R30). -/
def State.uGated (s : State) (u : Nat) : Bool :=
  decide (s.uKind u = 7) || (decide (s.regionMode (uRegion u) = 2) && decide (16 ≤ uUnit u) && decide (uCluster u < 56))
/-- Depth of queue `q` (R175); a gated unit takes no token. -/
def State.uDepth (s : State) (u q : Nat) : Nat :=
  if s.uGated u then 0
  else if s.field (aUnit u 8) (4 * q + 19) (4 * q + 16) = 15 then 0 else 4 * (s.field (aUnit u 8) (4 * q + 3) (4 * q) + 1)

/-- Fields of CTXA (R177), of the word's value. -/
def caFires (w : Nat) : Nat := bitsOf w 31 16
def caNext (w : Nat) : Nat := bitsOf w 15 14
def caQread (w : Nat) : Nat := bitsOf w 13 10
def caSeqchk (w : Nat) : Nat := bitsOf w 9 6
def caOuten (w : Nat) : Nat := bitsOf w 5 4
def caOp (w : Nat) : Nat := bitsOf w 3 0

/-- The context words of context `k`. -/
def State.ctxA (s : State) (u k : Nat) : Nat := (s.reg (aCtxA u k)).toNat
def State.ctxB (s : State) (u k : Nat) : Nat := (s.reg (aCtxB u k)).toNat
def State.ctxC (s : State) (u k : Nat) : Nat := (s.reg (aCtxC u k)).toNat

/-- Fields of a MAC unit's CTXB (R179). -/
def cbWfmt (w : Nat) : Nat := bitsOf w 31 28
def cbEsc (w : Nat) : Bool := w.testBit 27
def cbAfmt (w : Nat) : Nat := bitsOf w 26 24
def cbChain (w : Nat) : Bool := w.testBit 23
def cbFinal (w : Nat) : Bool := w.testBit 22
def cbOut1 (w : Nat) : Nat := bitsOf w 21 20
def cbAccTok (w : Nat) : Nat := bitsOf w 11 0

/-- Element format that an AFMT code names. -/
def afmtElem (a : Nat) : ElemFmt := match a with | 0 => .int4 | 1 => .int8 | 2 => .int16 | 3 => .e4m3 | _ => .e5m2

/-- Initiation interval of a MAC format pair (R180); 0 for a pair that no unit accepts. -/
def macII (afmt wfmt : Nat) : Nat :=
  match afmt, wfmt with
  | 1, 0 => 2 | 1, 3 => 2 | 1, 2 => 1 | 0, 2 => 2
  | 2, 0 => 2 | 2, 2 => 2 | 2, 3 => 2
  | 1, 1 => 4 | 2, 1 => 4
  | 3, 4 => 4 | 3, 5 => 4 | 4, 4 => 4 | 4, 5 => 4
  | _, _ => 0

/-- Initiation interval of a context from its kind, Q0 format and CTXB. DEDUCED: log entry 78. -/
def ctxII (kind : Nat) (f0 : ElemFmt) (cb : Nat) : Nat :=
  if kind = 0 then macII (cbAfmt cb) (cbWfmt cb) else if kind = 3 ∧ f0 = .int8 then 2 else 1

/-- Initiation interval of context `k`. -/
def State.uII (s : State) (u k : Nat) : Nat := ctxII (s.uKind u) (s.uFmt u 0) (s.ctxB u k)

/-- Cycles of a standby fill (R168). -/
def prefill (kind : Nat) : Nat := if kind = 0 then 40 else 4

/-- A latency profile as R266 lists it: BASE and STEP by figure ID. -/
abbrev Profile := AMap (Nat × Nat)

/-- The published profiles. -/
def tpCommon : Profile := [(1, (5, 0)), (3, (4, 0)), (4, (4, 0)), (5, (1, 0)), (6, (3, 1)), (8, (3, 0)), (9, (2, 4)),
  (0xA, (6, 0)), (0xB, (4, 0)), (0xC, (8, 0)), (0xD, (12, 1)), (0xE, (3, 0)), (0xF, (1, 0)), (0x10, (40, 0)), (0x11, (4, 0)),
  (0x100, (6, 0)), (0x101, (12, 0)), (0x102, (3, 0)), (0x103, (0, 0)), (0x104, (128, 0)), (0x105, (8, 0)), (0x106, (16, 0)),
  (0x107, (6, 0))]
def tpA1 : Profile := mapSet (mapSet tpCommon 2 (9, 0)) 7 (5, 0)
def tpB0 : Profile := mapSet (mapSet tpCommon 2 (8, 0)) 7 (4, 0)
/-- The profile of the stepping (R238). -/
def State.devProfile (s : State) : Profile := match s.hw.stepping with | .a1 => tpA1 | .b0 => tpB0

/-- A figure of a profile for a value of its variable. -/
def figure (p : Profile) (id x : Nat) : Nat := let e := mapGetD p id (0, 0); e.1 + e.2 * x

/-- Pipeline latency of a context under a profile (R171). -/
def ctxLatency (p : Profile) (kind op cb : Nat) : Nat :=
  match kind with
  | 0 => figure p (if op = 0 then 1 else 2) 0
  | 1 => figure p 5 0
  | 2 => figure p 6 (bitsOf cb 31 26)
  | 3 => figure p 7 0
  | 4 => if op = 4 then figure p 9 (ceilLog2 (bitsOf cb 31 16 + 1)) else if op = 5 then figure p 0xA 0 else figure p 8 0
  | 5 => if op = 0 then figure p 0xD (ceilDiv (bitsOf cb 31 16 + 1) 16) else if op = 1 then figure p 0xC 0 else figure p 0xB 0
  | 6 => figure p 0xE 0
  | _ => 0

/-- Latency of context `k` of unit `u` on this device. -/
def State.uLatency (s : State) (u k : Nat) : Nat :=
  ctxLatency s.devProfile (s.uKind u) (caOp (s.ctxA u k)) (s.ctxB u k) + s.uTrim u

/-! ### Cluster SRAM (R164 to R166, R183) -/

/-- First byte of a unit's banks in its cluster. -/
def bankBase (n : Nat) : Nat := if n < 16 then 0x4000 * n else 0x40000 + 0x10000 * (n - 16)
/-- Bytes of cluster SRAM at cluster key `k`, and whether one has wrong parity. -/
def State.sramRead (s : State) (k a n : Nat) : List Byte × Bool :=
  (memRead s.lat.sram (2 ^ 19 * k + a) n,
   s.lat.sramBad.any (fun e => decide (2 ^ 19 * k + a ≤ e.1 ∧ e.1 < 2 ^ 19 * k + a + n)))
/-- Write bytes with valid parity. -/
def State.sramWrite (s : State) (k a : Nat) (b : List Byte) : State :=
  { s with lat := { s.lat with
      sram := memWrite s.lat.sram (2 ^ 19 * k + a) b
      sramBad := s.lat.sramBad.filter (fun e => decide (e.1 < 2 ^ 19 * k + a ∨ 2 ^ 19 * k + a + b.length ≤ e.1)) } }

/-- Byte address in its cluster of a unit's own offset. -/
def uByte (u o : Nat) : Nat := bankBase (uUnit u) + o
/-- Read a unit's own banks. -/
def State.uRead (s : State) (u o n : Nat) : List Byte × Bool := s.sramRead (uKey u) (uByte u o) n

/-- Operand or table area of context `k`: the half of R390 that is active. -/
def State.area (s : State) (u k : Nat) : Nat :=
  match s.regionPart (uRegion u) with | some p => 2 * (s.part p).half + k | none => k

/-- The operand area of context `k` as it stands in the bank (R183). -/
def State.operand (s : State) (u k : Nat) : List Byte := (s.uRead u (0x480 * s.area u k) 0x480).1

/-! ### Faults of storage (R475, R481) -/

/-- A parity mismatch in a read-only row: logged, and its repair queued (R475). `kind` and `key` name the row as
`RepairReq` does. -/
def State.roFault (s : State) (d code kind key detail u : Nat) (p : Option Nat) (i : Nat) : State :=
  let q := mapGetD s.flt.repairs d []
  if mapGetD s.flt.damaged (8 * key + kind) false then s
  else if q.any (fun r => decide (r.kind = kind ∧ r.key = key)) then s.addField (aFlt d 0x18) 31 16 1
  else
    let full := decide (32 ≤ q.length)
    let (st, sq) := s.instEvent i
    let s := s.fault d ⟨code, .taint, p, u, full, detail, st, sq⟩
    if full then s else { s with flt := { s.flt with repairs := mapPut s.flt.repairs d (q ++ [⟨kind, key, p⟩]) [] } }

/-- A parity mismatch in writable state (R481). -/
def State.rwFault (s : State) (d detail u : Nat) (i : Nat) : State :=
  let (st, sq) := s.instEvent i
  s.fault d ⟨4, .taint, s.regionPart (uRegion u), u, false, detail, st, sq⟩

/-- Offset of a register in its LAT or SEQ block. -/
def cfgOffset (a : Nat) : Nat :=
  let o := addrOff a
  if 0x2000000 ≤ o then (o - 0x2000000) % 0x400000 else o - 0x600000

/-- Configuration words or slot entries were used: on a mismatch log it, and say that what they give is tainted. -/
def State.cfgCheck (s : State) (u i : Nat) (as : List Nat) : State × Bool :=
  as.foldl (fun (a : State × Bool) w =>
    if mapGetD s.flt.cfgBad w false then
      (a.1.roFault (uRegion u / 8) 2 3 w (cfgOffset w) u (s.regionPart (uRegion u)) i, true)
    else a) (s, false)

/-- Read-only bytes of a unit were read: on a mismatch log it, and say that the firing is tainted. -/
def State.roCheck (s : State) (u a : Nat) (bad : Bool) (i : Nat) : State × Bool :=
  if bad then
    (s.roFault (uRegion u / 8) 1 0 (2 ^ 14 * uKey u + a / 32) a u (s.regionPart (uRegion u)) i, true)
  else (s, false)

/-! ### Tokens and queues (R142 to R148, R157) -/

/-- Queue `q` of a unit. -/
def UnitState.queue (x : UnitState) (q : Nat) : List Held :=
  match q with | 0 => x.q0 | 1 => x.q1 | 2 => x.q2 | _ => x.q3
/-- Replace queue `q`. -/
def UnitState.setQueue (x : UnitState) (q : Nat) (l : List Held) : UnitState :=
  match q with
  | 0 => { x with q0 := l } | 1 => { x with q1 := l } | 2 => { x with q2 := l } | _ => { x with q3 := l }

/-- Output buffer of a port. -/
def UnitState.out (x : UnitState) (p : Nat) : List Held := if p = 0 then x.out0 else x.out1
/-- Replace an output buffer. -/
def UnitState.setOut (x : UnitState) (p : Nat) (l : List Held) : UnitState :=
  if p = 0 then { x with out0 := l } else { x with out1 := l }
/-- Burst tokens of a port that are not yet placed. -/
def UnitState.burst (x : UnitState) (p : Nat) : List Held := if p = 0 then x.burst0 else x.burst1
/-- Replace them. -/
def UnitState.setBurst (x : UnitState) (p : Nat) (l : List Held) : UnitState :=
  if p = 0 then { x with burst0 := l } else { x with burst1 := l }

/-- The token's sideband fails its check for a queue of format `f` (R146). -/
def sideFails (f : ElemFmt) (t : Token) : Bool :=
  !sideOk t.side || decide (sideKind t.side = 7) || (decide (f = .ctrl) && decide (sideKind t.side ≠ 3))

/-- Handle a token under R146. -/
def State.sideFault (s : State) (u q : Nat) (h : Held) : State × Held :=
  let (st, sq) := s.instEvent h.inst
  (s.fault (uRegion u / 8) ⟨5, .taint, s.regionPart (uRegion u), u, false, q, st, sq⟩,
   { h with exempt := true, tok := { h.tok with side := sideAddTaint h.tok.side 1 } })

/-- The sideband and epoch checks of a token that reaches queue `q` of unit `u`; none when it is discarded. Unit
number 20 is the cluster's scale queue. -/
def State.arrive (s : State) (u q : Nat) (f : ElemFmt) (h : Held) : State × Option Held :=
  let (s, h) := if !h.exempt && sideFails f h.tok then s.sideFault u q h else (s, h)
  let r := uRegion u
  let e := (sideEpoch h.tok.side).toNat
  if !h.exempt && decide (e ≠ s.regionEpoch r) then
    let info := u * 2 ^ 16 + q * 2 ^ 14 + e * 2 ^ 12 + (sideSeq h.tok.side).toNat
    let (st, sq) := s.instEvent h.inst
    let s := (s.addReg (aLat r 8) 1).firstRecord (aLat r 0xC) info (firstOrder u st sq) []
    let s := s.count (r / 8) 0x21 1 (s.occUnit u h.inst)
    (s.fault (r / 8) ⟨0xE, .report, s.regionPart r, u, false, 2 ^ 31 + info, st, sq⟩, none)
  else (s, some { h with since := max s.now h.since + 1 })

/-- The layer whose merge point is queue `q` of unit `u`, for an instance of its partition (R118). -/
def State.mergeLayer (s : State) (u q i : Nat) : Option (Nat × Layer) :=
  match s.inst i with
  | some x => s.gau.layers.find? (fun e => decide (e.2.merge = u ∧ e.2.mqueue = q ∧ e.2.part = x.part))
  | none => none

/-- Tokens of an event at the merge point carry `ceil(C_OUT / 16)` blocks for each vector. -/
def Layer.blocks (l : Layer) : Nat := ceilDiv l.cOut 16

/-- The merged form of narrow token number `t` (R123): wide elements where the wide result has them. -/
def mergeTok (l : Layer) (w : LayerWork) (bits t : Nat) (h : Held) : Held :=
  match w.wide with
  | none => h
  | some m =>
    let b := max 1 l.blocks
    let narrow := (List.range 16).map (fun j => bitsOf h.tok.payload.toNat (bits * j + bits - 1) (bits * j))
    let es := narrow.zipIdx.map (fun e =>
      match mapGet m (t / b * l.cOut + 16 * (t % b) + e.2) with
      | some v => if 16 * (t % b) + e.2 < l.cOut then v.toNat else e.1
      | none => e.1)
    let pay := payloadOf bits es
    { h with tok := ⟨pay, payloadPar pay, sideAddTaint h.tok.side w.taint⟩ }

/-- Apply `f` to a layer by key. -/
def State.mapLayer (s : State) (k : Nat) (f : Layer → Layer) : State := s.mapLayers (fun e => decide (e.1 = k)) f

/-- Queue order (R148): by the cycle in which a token arrives. -/
def queueInsert (h : Held) : List Held → List Held := insertBy (·.since) h

/-- Put a token that has passed its checks into queue `q` of unit `u`, or hold it at a merge point (R121). -/
def State.enqueue (s : State) (u q : Nat) (h : Held) : State :=
  let put := fun (s : State) (h : Held) =>
    let x := s.unit u
    s.putUnit u (x.setQueue q (queueInsert h (x.queue q)))
  match s.mergeLayer u q h.inst with
  | none => put s h
  | some (k, l) =>
    match l.work.find? (fun w => decide (w.inst = h.inst)) with
    | some w =>
      match w.passed with
      | some t =>
        let s := s.mapLayer k (mapWork h.inst (fun w => { w with passed := some (t + 1) }))
        put s (mergeTok l w (elemBits (s.uFmt u q)) t h)
      | none => s.mapLayer k (mapWork h.inst (fun w => { w with held := w.held ++ [h] }))
    | none => s.mapLayer k (mapWork h.inst (fun w => { w with held := w.held ++ [h] }))

/-- Deliver a token into queue `q` of unit `u`. -/
def State.deliver (s : State) (u q : Nat) (h : Held) : State :=
  match s.arrive u q (s.uFmt u q) h with
  | (s, some h) => s.enqueue u q h
  | (s, none) => s

/-- The token is a scale token of the skewed event (R114). -/
def Skew.names (w : Skew) (h : Held) : Bool := decide (w.seq = sideSeq h.tok.side) && (decide (h.inst = 0) || decide (h.inst = w.inst))

/-- Deliver a scale token into the scale queue of cluster key `k`; one of an event that skewed is discarded (R114). -/
def State.deliverScale (s : State) (k : Nat) (h : Held) : State :=
  match s.arrive (32 * k + 20) 0 .int8 h with
  | (s, some h) =>
    let c := s.cluster k
    if c.skews.any (·.names h) then s else s.putCluster k { c with scaleQ := queueInsert h c.scaleQ }
  | (s, none) => s

/-- Narrow tokens held at merge points of queue `q` of unit `u`. -/
def State.mergeHeld (s : State) (u q : Nat) : List Held :=
  s.gau.layers.foldl (fun l e => if e.2.merge = u ∧ e.2.mqueue = q then e.2.work.foldl (fun l w => l ++ w.held) l else l) []

/-- Queue `q` of unit `u` has a free entry for a token that would arrive in cycle `a`, and no other token arrives then
(R148). -/
def State.queueFree (s : State) (u q a : Nat) : Bool :=
  let l := (s.unit u).queue q ++ s.mergeHeld u q
  decide (l.length < s.uDepth u q) && l.all (fun h => decide (h.since ≠ a))

/-- Check a head token again, before its SEQ enters the sequence check (R146). -/
def State.headCheck (s : State) (u q : Nat) : State :=
  match (s.unit u).queue q with
  | h :: rest =>
    if !h.exempt && !sideOk h.tok.side && decide (h.since ≤ s.now) then
      let (s, h) := s.sideFault u q h
      s.putUnit u ((s.unit u).setQueue q (h :: rest))
    else s
  | [] => s

/-- Check the head of a cluster's scale queue again (R146). -/
def State.scaleHeadCheck (s : State) (k : Nat) : State :=
  match (s.cluster k).scaleQ with
  | h :: rest =>
    if !h.exempt && !sideOk h.tok.side && decide (h.since ≤ s.now) then
      let (s, h) := s.sideFault (32 * k + 20) 0 h
      s.putCluster k { s.cluster k with scaleQ := h :: rest }
    else s
  | [] => s

/-- Tokens made by unit `u` for an event, with LAST on the last one where `last` says so (R144, R145). -/
def State.make (s : State) (u i : Nat) (seq : BitVec 12) (blk : BitVec 8) (taint : BitVec 2) (last : Bool)
    (ps : List (Nat × BitVec 256)) : State × List Held :=
  let e := BitVec.ofNat 2 (s.regionEpoch (uRegion u))
  let s := if taint = 0 then s else s.count (uRegion u / 8) 0x24 ps.length (s.occUnit u i)
  ps.zipIdx.foldl (fun (a : State × List Held) p =>
    let (n, s) := a.1.nextTok
    let side := sideOf p.1.1 (last && decide (p.2 + 1 = ps.length)) taint blk e seq
    (s, a.2 ++ [⟨⟨p.1.2, payloadPar p.1.2, side⟩, i, false, s.now, n⟩])) (s, [])

/-- Take `n` tokens from queue `q`. A firing that reads a partial sum takes its two or four tokens at once (R181), whatever
the one pop a cycle of R148. DESIGN CHOICE: log entry 98. -/
def State.pop (s : State) (u q n : Nat) : State × List Held :=
  let x := s.unit u
  (s.putUnit u (x.setQueue q ((x.queue q).drop n)), (x.queue q).take n)

/-- The taint of consumed tokens: their own, and TAINT_FAULT for a payload byte with wrong parity (R144, R481). -/
def State.consume (s : State) (u : Nat) (ts : List Held) : State × BitVec 2 :=
  ts.foldl (fun (a : State × BitVec 2) h =>
    let t := a.2 ||| sideTaint h.tok.side
    if h.tok.par = payloadPar h.tok.payload then (a.1, t)
    else (a.1.rwFault (uRegion u / 8) Config.noDetail.toNat u h.inst, t ||| 1)) (s, 0)

end Sys2Proof.Machine
end

