-- ==== Sys2Proof/Machine/Firing.lean ====
section
/-! DEFINITION. The firing rule and what each unit kind computes in a firing (R59 to R79, R151 to R156, R179 to R199), fold
contexts (R167 to R170), pipelines, bursts and tree evaluations (R154, R171, R191), lattice mode (R28 to R30, R163). -/

namespace Sys2Proof.Machine

/-! ### Range monitors and re-runnable layers (R115, R116, R124) -/

/-- Fields of a monitor's limits. -/
def limIn (b : List Byte) : Int × Int × Nat := (signedOf 16 (fieldLE b 0 2), signedOf 16 (fieldLE b 2 2), fieldLE b 4 2)
def limAcc (b : List Byte) : Int × Int × Nat := (signedOf 32 (fieldLE b 8 4), signedOf 32 (fieldLE b 12 4), fieldLE b 6 2)

/-- Limits of a layer for an instance's side (R130). -/
def State.limits (s : State) (l : Layer) (x : Inst) : List Byte := if s.bankOf x = 0 then l.lim0 else l.lim1

/-- Keys of the layers on unit `u`'s die that list it, for an instance of their partition. -/
def State.layersOf (s : State) (u : Nat) (x : Inst) : List Nat :=
  (s.gau.layers.filter (fun e => decide (e.1 / 64 = uRegion u / 8 ∧ e.2.part = x.part) && decide (s.uLidx u ∈ e.2.units))).map (·.1)

/-- Input elements of the next token that the monitor counts for an event (R116). Each of the V vectors stands in whole tokens of
its own, as the PASS tokens of R737 do; elements from C_IN on are padding. DEDUCED: log entry 103. -/
def newInputs (l : Layer) (w : LayerWork) (es : List Int) : List Int :=
  let per := max 1 (ceilDiv l.cIn es.length)
  let n := w.seen.length
  if n / per < l.v then es.take (l.cIn - es.length * (n % per)) else []

/-- The monitors count the input elements of a token, once however many units receive it (R116). -/
def State.monitorIn (s : State) (u : Nat) (x : Inst) (h : Held) (es : List Int) : State :=
  (s.layersOf u x).foldl (fun s k =>
    match mapGet s.gau.layers k with
    | some l =>
      let (lo, hi, _) := limIn (s.limits l x)
      s.mapLayer k (mapWork x.id (fun w =>
        if h.id ∈ w.seen then w
        else { w with
          seen := h.id :: w.seen
          inCount := w.inCount + ((newInputs l w es).filter (fun v => decide (v ≤ lo ∨ hi ≤ v))).length }))
    | none => s) s

/-- Raise conditions at a unit. Those of a layer's narrow computation wait at its merge point (R124). -/
def State.raiseUnit (s : State) (u i : Nat) (cs : List Cond) : State :=
  match s.inst i with
  | some x =>
    let ks := (s.layersOf u x).filter (fun k => match mapGet s.gau.layers k with
      | some l => !(l.work.any (fun w => decide (w.inst = i) && w.passed.isSome)) | none => false)
    if ks.isEmpty then s.raiseConds u i cs
    else
      let fl := condsFlags cs
      let s := s.addReg (aScl (uRegion u / 8) (0x300 + 4 * (uRegion u % 8)))
        (cs.filter (fun c => decide (c = .rescaleClamp))).length
      let s := cs.foldl (fun s c => s.count (uRegion u / 8) (condEvent c) 1 (s.occUnit u i)) s
      ks.foldl (fun s k => s.mapLayer k (mapWork i (fun w => { w with narrow := w.narrow ||| fl }))) s
  | none => s.raiseConds u i cs

/-! ### What a firing needs (R151, R154) -/

/-- What the next firing of a unit reads and emits. -/
structure Plan where
  /-- queues read and tokens taken from each -/
  reads : List (Nat × Nat)
  outs0 : Nat
  outs1 : Nat
  deriving DecidableEq, Repr

/-- Bit `q` of a mask. -/
def maskQ (m : Nat) : List Nat := maskList 4 m

/-- Range lengths of the two queues of a reduce unit (R195). -/
def reduceRanges (ca cb cc : Nat) : Nat × Nat :=
  let n := bitsOf cb 31 16 + 1
  let b0 := bitsOf cc 15 0
  let b1 := bitsOf cc 31 16
  if caOp ca = 1 then (n, n)
  else
    match (caQread ca).testBit 0, (caQread ca).testBit 1 with
    | true, true => if b0 ≤ b1 then (b1 - b0, n - b1) else (n - b0, b0 - b1)
    | true, false => (n - b0, 0)
    | false, true => (0, n - b1)
    | false, false => (0, 0)

/-- Tokens that a reduce context emits for an event (R196). -/
def reduceOuts (ca cb : Nat) : Nat := if caOp ca = 1 then ceilDiv (bitsOf cb 31 16 + 1) 8 else 1

/-- Keys per event and tokens emitted of a rank context (R197). -/
def rankKeys (cb : Nat) : Nat := bitsOf cb 31 16 + 1
def rankOuts (op cb : Nat) : Nat :=
  if op = 0 then ceilDiv (rankKeys cb) 5 else if op = 1 then ceilDiv (bitsOf cb 15 10 + 1) 5 else 1

/-- Element format of a rank context's keys. -/
def rankFmt (cb : Nat) : ElemFmt := match bitsOf cb 9 8 with | 0 => .int16 | 1 => .int32 | _ => .fp32

/-- The steering decision of the next firing, whether it is new, and the raw control value (R185, R186). -/
def steerDecision (x : UnitState) (op : Nat) : Option (Nat × Bool × Nat) :=
  match x.decision with
  | some v => some (v, false, v)
  | none =>
    match x.q3 with
    | h :: _ =>
      let v := h.tok.payload.toNat % 256
      let ok := if op = 3 then decide (v = v % 2 + 4 * (v / 4 % 2)) else decide (v < 4)
      some (if ok then v else 0, true, v)
    | [] => none

/-- Data queue of a steering decision, if it takes data. -/
def steerQueue (x : UnitState) (op v : Nat) : Option Nat :=
  match op with
  | 0 | 1 => some 0
  | 2 => if v = 0 then none else if v = 1 then some 0 else if v = 2 then some 1 else some x.phase
  | _ => some (if v.testBit 2 then 1 else 0)

/-- Output ports of a steering firing. -/
def steerPorts (x : UnitState) (op v itMax : Nat) : List Nat :=
  match op with
  | 0 => [0]
  | 1 => if v = 0 then [] else if v = 1 then [0] else if v = 2 then [1] else [0, 1]
  | 2 => if v = 0 then [] else [0]
  | _ => if v.testBit 0 ∧ (if v.testBit 2 then x.loopCount else 0) ≠ itMax then [1] else [0]

/-- Valid root references of context `k` of a tree unit, in root-table order (R189), and whether one has wrong parity. -/
def State.treeRoots (s : State) (u k : Nat) : List Nat × Bool :=
  let (roots, bad) := s.uRead u (0x6000 + 0x40 * s.area u k) 64
  (((List.range 16).map (fun j => fieldLE roots (4 * j) 4)).filter (fun w => w.testBit 31), bad)

/-- The plan of the active context's next firing; none while a steering unit has no control token. -/
def State.plan (s : State) (u : Nat) : Option Plan :=
  let x := s.unit u
  let ca := s.ctxA u x.actx
  let cb := s.ctxB u x.actx
  let cc := s.ctxC u x.actx
  match s.uKind u with
  | 0 =>
    let last := decide (x.accTok = cbAccTok cb)
    let parts := if caOp ca = 0 then 4 else 2
    let reads := (0, 1) :: (if cbChain cb ∧ x.accTok = 0 then [(1, parts)] else [])
    if !last then some ⟨reads, 0, 0⟩
    else if cbFinal cb then some ⟨reads, 1, if cbOut1 cb = 1 then 2 else 0⟩
    else some ⟨reads, parts, 0⟩
  | 1 =>
    let op := caOp ca
    if op = 0 then some ⟨[(0, 1)], 1, 0⟩
    else
      match steerDecision x op with
      | none => none
      | some (v, fresh, _) =>
        let ps := steerPorts x op v (bitsOf cb 15 0)
        let reads := (match steerQueue x op v with | some q => [(q, 1)] | none => []) ++ (if fresh then [(3, 1)] else [])
        some ⟨reads, bitOf (decide (0 ∈ ps)), bitOf (decide (1 ∈ ps))⟩
  | 2 =>
    let last := match x.q0 with | h :: _ => sideLast h.tok.side | [] => false
    some ⟨(maskQ (caQread ca)).map (fun q => (q, 1)), if last then ceilDiv (s.treeRoots u x.actx).1.length 8 else 0, 0⟩
  | 3 => some ⟨(maskQ (caQread ca)).map (fun q => (q, 1)), if s.uFmt u 0 = .int8 then 2 else 1, 0⟩
  | 4 =>
    let (l0, l1) := reduceRanges ca cb cc
    let e0 := x.elems0 + (if (caQread ca).testBit 0 then elemsPerToken (s.uFmt u 0) else 0)
    let e1 := x.elems1 + (if (caQread ca).testBit 1 then elemsPerToken (s.uFmt u 1) else 0)
    some ⟨(maskQ (caQread ca)).map (fun q => (q, 1)), if l0 ≤ e0 ∧ l1 ≤ e1 then reduceOuts ca cb else 0, 0⟩
  | 5 =>
    let n := x.elems0 + elemsPerToken (rankFmt cb)
    some ⟨[(0, 1)], if rankKeys cb ≤ n then rankOuts (caOp ca) cb else 0, 0⟩
  | 6 =>
    let reads := (0, 1) :: (if caOp ca = 1 then [(1, 1)] else [])
    let last := match x.q0 with | h :: _ => sideLast h.tok.side | [] => false
    let read := last && (cb.testBit 15 || decide (x.rdCount + 1 = bitsOf cb 13 0))
    some ⟨reads, if read then ceilDiv (bitsOf cb 26 17 + 3) 8 else 0, 0⟩
  | _ => some ⟨(maskQ (caQread ca)).map (fun q => (q, 1)), 0, 0⟩

/-- Every queue of the read set holds its tokens now. -/
def inputsReady (x : UnitState) (now : Nat) (p : Plan) : Bool :=
  p.reads.all (fun r => decide (r.2 ≤ ((x.queue r.1).filter (fun h => decide (h.since ≤ now))).length))

/-- An output port can take `n` tokens of a firing (R154). -/
def portReady (x : UnitState) (p n : Nat) : Bool :=
  decide (n = 0) || ((x.burst p).isEmpty && decide ((x.out p).length + min 4 n ≤ 4))

/-- The first marked queue whose head disagrees with the reference head: reference queue, queue, and both SEQs (R155). -/
def seqConflict (x : UnitState) (chk : Nat) (p : Plan) : Option (Nat × Nat × BitVec 12 × BitVec 12) :=
  let qs := (maskQ chk).filter (fun q => p.reads.any (fun r => decide (r.1 = q)))
  let hs := qs.filterMap (fun q => match x.queue q with
    | h :: _ => if h.exempt then none else some (q, sideSeq h.tok.side) | [] => none)
  match hs with
  | [] => none
  | (rq, rs) :: rest => (rest.find? (fun e => decide (e.2 ≠ rs))).map (fun e => (rq, e.1, rs, e.2))

/-! ### Unit kinds -/

/-- What a firing gives: tokens by port as KIND and payload, conditions, and whether LAST goes out. -/
structure FireOut where
  out0  : List (Nat × BitVec 256)
  out1  : List (Nat × BitVec 256)
  conds : List Cond
  last  : Bool
  taint : BitVec 2
  deriving DecidableEq, Repr

/-- A firing that emits nothing. -/
def fireNone : FireOut := ⟨[], [], [], false, 0⟩

/-- Activation vectors of 16 elements of a token. -/
def vectors (f : ElemFmt) (p : BitVec 256) : List (List Nat) := chunks 16 5 (payloadElems f p)

/-- Bias of channel `j` in an operand area. -/
def operandBias (area : List Byte) (j : Nat) : Nat := fieldLE area (0x420 + 4 * j) 4
/-- Entry index of channel `j`. -/
def operandEntry (area : List Byte) (j : Nat) : Nat := fieldLE area (0x460 + 2 * j) 2 % 4096

/-- Initial accumulators of an accumulation: biases, or the partial sum on Q1 (R60, R181). -/
def macInit (op : Nat) (cb : Nat) (area : List Byte) (ps : List (BitVec 256)) : List (BitVec 48) :=
  if cbChain cb then
    let f := if op = 0 then ElemFmt.int48 else .fp32
    ((ps.foldl (fun l p => l ++ payloadElems f p) []).take 16).map (BitVec.ofNat 48)
  else (List.range 16).map (fun j =>
    if op = 0 then BitVec.ofInt 48 (signedOf 32 (operandBias area j)) else BitVec.ofNat 48 (operandBias area j))

/-- Column `j` of a decoded tile. -/
def tileColumn (ws : List (Nat × Bool)) (j : Nat) : List (Nat × Bool) := (List.range 16).map (fun i => ws.getD (16 * i + j) (0, false))

/-- Accumulate one token into the 16 channels (R62, R64). DEDUCED: log entry 77. -/
def macToken (op cb : Nat) (area : List Byte) (acc : List (BitVec 48)) (p : BitVec 256) : List (BitVec 48) × List Cond :=
  let f := afmtElem (cbAfmt cb)
  let vs := vectors f p
  let ws := decodeTile (cbWfmt cb) (cbEsc cb) area
  let r := acc.zipIdx.map (fun a =>
    let col := tileColumn ws a.2
    if op = 0 then
      let w := col.map (weightInt (cbWfmt cb) area)
      (BitVec.ofInt 48 (vs.foldl (fun z v => z + dotInt (v.map (elemInt f)) w) a.1.toInt), ([] : List Cond))
    else
      let w := col.map (weightFp (cbWfmt cb))
      let z := vs.foldl (fun (z : BitVec 32 × List Cond) v =>
        let b := fpSumRound (f32 z.1 :: List.zipWith fpMul (v.map (elemFp f)) w)
        (b.1, z.2 ++ b.2)) (a.1.truncate 32, [])
      (z.1.zeroExtend 48, z.2))
  (r.map (·.1), r.foldl (fun l e => l ++ e.2) [])

/-- The partial sum of 16 channels as tokens (R181). -/
def partialTokens (op : Nat) (acc : List (BitVec 48)) : List (Nat × BitVec 256) :=
  let w := if op = 0 then 48 else 32
  (chunks (if op = 0 then 5 else 8) 4 (acc.map (·.toNat))).map (fun c => (1, payloadOf w c))

/-- Clamp the final sums of 16 channels (R62): sums and which were clamped. DEDUCED: log entry 77. -/
def macFinal (op : Nat) (acc : List (BitVec 48)) : List (BitVec 48) × List Bool :=
  if op = 0 then
    let r := acc.map (fun a => clampInt (-(2 ^ 31 : Int)) (2 ^ 31 - 1) a.toInt)
    (r.map (fun e => BitVec.ofInt 48 e.1), r.map (·.2))
  else (acc, acc.map (fun _ => false))

/-- Output ports of a final accumulation. DEDUCED: log entry 77. -/
def finalOuts (ca cb : Nat) : Nat :=
  bitOf ((caOuten ca).testBit 0) + 2 * bitOf (decide (cbOut1 cb = 1) && (caOuten ca).testBit 1)

/-- Put a final accumulation into its cluster's stage order (R110). -/
def stageInsert (f : Final) : List Final → List Final := insertBy (fun e => 32 * e.ready + uUnit e.unit) f

/-- A firing of a MAC unit. -/
def State.fireMac (s : State) (u i : Nat) (ts : List (Nat × List Held)) (taint : BitVec 2) : State × FireOut :=
  let x := s.unit u
  let ca := s.ctxA u x.actx
  let cb := s.ctxB u x.actx
  let op := caOp ca
  let tk := fun (q : Nat) => ((ts.find? (fun e => decide (e.1 = q))).map (·.2)).getD []
  let acc0 := if x.accTok = 0 then macInit op cb x.setA ((tk 1).map (·.tok.payload))
    else (List.range 16).map (fun j => mapGetD x.acc j 0)
  let h := (tk 0).head?
  let pay := (h.map (·.tok.payload)).getD 0
  let (acc, cs) := macToken op cb x.setA acc0 pay
  let s := match h, s.inst i with
    | some h, some n => s.monitorIn u n h ((payloadElems (afmtElem (cbAfmt cb)) pay).map (elemInt (afmtElem (cbAfmt cb))))
    | _, _ => s
  let dbad := x.decodedBad
  let s := if dbad then
      let (st, sq) := s.instEvent i
      s.fault (uRegion u / 8) ⟨3, .taint, s.regionPart (uRegion u), u, false, x.actx, st, sq⟩
    else s
  let taint := (taint ||| (if dbad then 1 else 0)) ||| (if x.accTok = 0 then 0 else x.accTaint)
  let lastTok := match h with | some h => sideLast h.tok.side | none => false
  -- R480: a unit with one context takes a refilled set; with more, the faulty set is discarded at the next fill
  let refill := dbad && decide (s.uNctx u = 0)
  let x := s.unit u
  let x := if refill then { x with decodedBad := false, setA := s.operand u 0 } else x
  let s := if refill then s.bucketAdd (uRegion u / 8) 0 1 else s
  if x.accTok < cbAccTok cb then
    let m := acc.zipIdx.foldl (fun m e => mapSet m e.2 e.1) ([] : AMap (BitVec 48))
    (s.putUnit u { x with acc := m, accTok := x.accTok + 1, accTaint := taint }, { fireNone with conds := cs })
  else
    let s := s.putUnit u { x with acc := [], accTok := 0, accTaint := 0 }
    if cbFinal cb then
      let (v, sat) := macFinal op acc
      let f : Final :=
        { unit := u, ctx := x.actx, inst := i, fp := decide (op = 1), acc := v, side := (h.map (·.tok.side)).getD 0,
          taint := taint, ready := s.now + s.uLatency u x.actx, outs := finalOuts ca cb,
          entries := (List.range 16).map (operandEntry x.setA), sats := sat }
      let c := s.cluster (uKey u)
      (s.putCluster (uKey u) { c with stage := stageInsert f c.stage }, { fireNone with conds := cs })
    else (s, ⟨partialTokens op acc, [], cs, lastTok, taint⟩)

/-- Report a decision whose value `raw` was not the value `v` taken from it. -/
def State.steerCheck (s : State) (u i : Nat) (raw : Option Nat) (v : Nat) : State :=
  match raw with
  | some r =>
    if r ≠ v then
      let ev := s.instEvent i
      s.fault (uRegion u / 8) ⟨0xF, .report, s.regionPart (uRegion u), u, false, r, ev.1, ev.2⟩
    else s
  | none => s

/-- Act on the decision `v` for a head token of queue `q` that ends its item as `last` says: the ports it goes to and the
unit's new sequencing state. -/
def State.steerTake (s : State) (u i : Nat) (x : UnitState) (op v cb q : Nat) (last : Bool) (emit : List Nat → Bool → FireOut) :
    State × FireOut :=
  let grain := cb.testBit 31
  let two := decide (op = 2 ∧ v = 3)
  let step := grain || last
  let loop := if v.testBit 2 then x.loopCount else 0
  let ports := steerPorts x op v (bitsOf cb 15 0)
  let overs := decide (op = 3) && v.testBit 0 && decide (loop = bitsOf cb 15 0)
  let s := if overs then (s.raise i 0x200#16).count (uRegion u / 8) 0x39 1 (s.occUnit u i) else s
  let y := s.unit u
  -- after the data token that ends the decision's share of this queue
  let y := if step then
      (if two && decide (q = 0) then { y with decision := some v, phase := 1 }
       else { y with decision := none, phase := 0 })
    else { y with decision := some v }
  let y := if op = 3 then { y with loopCount := if v.testBit 0 && !overs && step then loop + 1 else loop } else y
  (s.putUnit u y, emit ports (last && !(two && !grain && decide (q = 0))))

/-- A firing of a steering unit (R184 to R187). -/
def State.fireSteer (s : State) (u i : Nat) (ts : List (Nat × List Held)) (taint : BitVec 2) : State × FireOut :=
  let x := s.unit u
  let op := caOp (s.ctxA u x.actx)
  let cb := s.ctxB u x.actx
  let tk := fun (q : Nat) => ((ts.find? (fun e => decide (e.1 = q))).bind (·.2.head?))
  let emit := fun (ports : List Nat) (h : Held) (last : Bool) =>
    let e := [(sideKind h.tok.side, h.tok.payload)]
    (⟨if 0 ∈ ports then e else [], if 1 ∈ ports then e else [], [], last, taint⟩ : FireOut)
  if op = 0 then
    match tk 0 with
    | some h => (s, emit [0] h (sideLast h.tok.side))
    | none => (s, fireNone)
  else
    let v := match x.decision with
      | some v => v
      | none => match tk 3 with
        | some h =>
          let v := h.tok.payload.toNat % 256
          if (if op = 3 then decide (v = v % 2 + 4 * (v / 4 % 2)) else decide (v < 4)) then v else 0
        | none => 0
    let raw := (tk 3).map (fun h => h.tok.payload.toNat % 256)
    let s := s.steerCheck u i raw v
    match steerQueue x op v with
    | none => (s, fireNone)
    | some q =>
      match tk q with
      | none => (s, fireNone)
      | some h => s.steerTake u i x op v cb q (sideLast h.tok.side) (emit · h ·)

/-- Byte offset of a feature buffer. DEDUCED: log entry 85. -/
def featBase (b : Nat) : Nat := if b = 0 then 0x7000 else 0x8000

/-- A firing of a tree unit takes a feature token (R191). -/
def State.fireTree (s : State) (u i : Nat) (h : Held) (taint : BitVec 2) : State × FireOut :=
  let x := s.unit u
  let cb := s.ctxB u x.actx
  let fp := cb.testBit 11
  let n := if fp then 8 else 16
  let bytes := leBytes 32 h.tok.payload.toNat
  let nf := bitsOf cb 21 12 + 1
  let keep := min n (nf - x.featCount)
  let sz := if fp then 4 else 2
  let s := s.sramWrite (uKey u) (uByte u (featBase x.featBuf + sz * x.featCount)) (bytes.take (sz * keep))
  let tnt := taint ||| x.accTaint
  if sideLast h.tok.side then
    let e : TreeEvent := ⟨x.featBuf, x.actx, i, h.tok.side, tnt, s.now + 1⟩
    (s.putUnit u { s.unit u with featBuf := 1 - x.featBuf, featCount := 0, accTaint := 0, waiting := x.waiting ++ [e] }, fireNone)
  else (s.putUnit u { s.unit u with featCount := x.featCount + n, accTaint := tnt }, fireNone)

/-- The feature buffer that a firing would write is still held (R191). -/
def featHeld (x : UnitState) (now : Nat) : Bool :=
  x.waiting.any (fun e => decide (e.buf = x.featBuf))
    || (match x.evalHold with | some (b, t) => decide (b = x.featBuf ∧ now < t) | none => false)

/-- A firing of a table unit (R74, R193). -/
def State.fireTable (s : State) (u i : Nat) (h : Held) (taint : BitVec 2) : State × FireOut :=
  let x := s.unit u
  let ca := s.ctxA u x.actx
  let cb := s.ctxB u x.actx
  let f := s.uFmt u 0
  let n := bitsOf cb 11 0 + 1
  let o := 0x2000 * s.area u x.actx
  let (tb, bad) := s.uRead u o (2 * n)
  let r := (payloadElems f h.tok.payload).map (fun v =>
    tlookup (decide (caOp ca = 1)) (signedOf 16 (bitsOf cb 31 16)) (bitsOf cb 15 12) n tb (elemInt f v))
  let (s, bad) := s.roCheck u (uByte u o) bad i
  (s, ⟨(chunks 16 3 (r.map (fun e => unsignedOf 16 e.1))).map (fun c => (0, payloadOf 16 c)), [],
    r.foldl (fun l e => l ++ e.2) [], sideLast h.tok.side, taint ||| (if bad then 1 else 0)⟩)

/-- The terms of a token as the reduce operation takes them: 48-bit integers, or fp32 bits. -/
def reduceTerm (op : Nat) (f : ElemFmt) (v : Nat) : BitVec 48 :=
  if op ≤ 3 then BitVec.ofInt 48 (elemInt f v)
  else match f with
    | .fp32 => BitVec.ofNat 48 v
    | .bf16 => BitVec.ofNat 48 (v * 2 ^ 16)
    | _ => (cvtIntF32 (elemInt f v)).zeroExtend 48

/-- The result of a reduction over the terms in index order, or in arrival order (R70 to R72). -/
def reduceResult (op : Nat) (out32 : Bool) (f : ElemFmt) (terms : List (BitVec 48)) (arr : List (BitVec 32)) :
    List (Nat × BitVec 256) × List Cond :=
  let ints := terms.map (·.toInt)
  let fps := terms.map (fun t => t.truncate 32)
  let one := fun (k w : Nat) (v : Nat) => [(k, payloadOf w [v])]
  match op with
  | 0 =>
    let w := if out32 then 32 else 48
    let (v, c) := redClamp w (ints.foldl (· + ·) 0)
    (one (if out32 then 0 else 1) w (unsignedOf w v), c)
  | 2 => (one 0 (elemBits f) (unsignedOf (elemBits f) (ints.foldl max (ints.headD 0))), [])
  | 3 => (one 0 (elemBits f) (unsignedOf (elemBits f) (ints.foldl min (ints.headD 0))), [])
  | 4 => let (v, c) := tsum fps.length fps; (one 1 32 v.toNat, c)
  | 5 => let (v, c) := fsumArrival arr; (one 1 32 v.toNat, c)
  | 6 => let (v, c) := fExtreme false fps; (one 0 32 v.toNat, c)
  | 7 => let (v, c) := fExtreme true fps; (one 0 32 v.toNat, c)
  | _ => ([], [])

/-- Results of EADD over the element pairs (R70, R196). -/
def eaddResult (a b : List (BitVec 48)) : List (Nat × BitVec 256) × List Cond :=
  let r := List.zipWith (fun (x y : BitVec 48) => redClamp 32 (x.toInt + y.toInt)) a b
  ((chunks 8 r.length (r.map (fun e => unsignedOf 32 e.1))).map (fun c => (0, payloadOf 32 c)),
   r.foldl (fun l e => l ++ e.2) [])

/-- Format of the terms that a reduce context takes: of the queue it reads, and where it reads two the wider one, which holds
every term exactly. DESIGN CHOICE: log entry 98. -/
def State.termFmt (s : State) (u ca : Nat) : ElemFmt :=
  match (caQread ca).testBit 0, (caQread ca).testBit 1 with
  | false, true => s.uFmt u 1
  | true, true => if elemBits (s.uFmt u 0) < elemBits (s.uFmt u 1) then s.uFmt u 1 else s.uFmt u 0
  | _, _ => s.uFmt u 0

/-- A token that ends its event is among those taken. -/
def takesLast (ts : List (Nat × List Held)) : Bool := ts.any (fun e => e.2.any (fun h => sideLast h.tok.side))

/-- A firing of a reduce unit (R194 to R196). -/
def State.fireReduce (s : State) (u : Nat) (ts : List (Nat × List Held)) (taint : BitVec 2) : State × FireOut :=
  let x := s.unit u
  let ca := s.ctxA u x.actx
  let cb := s.ctxB u x.actx
  let cc := s.ctxC u x.actx
  let op := caOp ca
  let (l0, l1) := reduceRanges ca cb cc
  let key := fun (q k : Nat) => if op = 1 then 65536 * q + k else (if q = 0 then bitsOf cc 15 0 else bitsOf cc 31 16) + k
  let take : Nat → Nat → Nat → List (Nat × BitVec 48) × Nat := fun q done lim =>
    match (ts.find? (fun e => decide (e.1 = q))).bind (·.2.head?) with
    | some h =>
      let es := ((payloadElems (s.uFmt u q) h.tok.payload).take (lim - done)).map (reduceTerm op (s.uFmt u q))
      (es.zipIdx.map (fun e => (key q (done + e.2), e.1)), elemsPerToken (s.uFmt u q))
    | none => ([], 0)
  let (t0, n0) := take 0 x.elems0 l0
  let (t1, n1) := take 1 x.elems1 l1
  let acc : AMap (BitVec 48) := (t0 ++ t1).foldl (fun m e => mapSet m e.1 e.2) x.acc
  let arr := x.arrivals ++ (t0 ++ t1).map (fun e => e.2.truncate 32)
  let tnt := taint ||| x.accTaint
  let e0 := x.elems0 + n0
  let e1 := x.elems1 + n1
  if l0 ≤ e0 ∧ l1 ≤ e1 then
    let (os, cs) :=
      if op = 1 then
        eaddResult ((acc.filter (fun e => decide (e.1 < 65536))).map (·.2)) ((acc.filter (fun e => decide (65536 ≤ e.1))).map (·.2))
      else reduceResult op (cb.testBit 15) (s.termFmt u ca) (acc.map (·.2)) arr
    (s.putUnit u { x with acc := [], arrivals := [], elems0 := 0, elems1 := 0, accTaint := 0 }, ⟨os, [], cs, takesLast ts, tnt⟩)
  else
    (s.putUnit u { x with acc := acc, arrivals := if op = 5 then arr else [], elems0 := e0, elems1 := e1, accTaint := tnt },
      fireNone)

/-- A firing of a rank unit (R77, R78, R197). RTOPK emits its k pairs whatever the keys of the event; the spec does not say
what the pairs beyond them hold. UNVERIFIED: log entry 102. -/
def State.fireRank (s : State) (u : Nat) (h : Held) (taint : BitVec 2) : State × FireOut :=
  let x := s.unit u
  let ca := s.ctxA u x.actx
  let cb := s.ctxB u x.actx
  let f := rankFmt cb
  let n := rankKeys cb
  let es := (payloadElems f h.tok.payload).take (n - x.elems0)
  let acc := es.zipIdx.foldl (fun m e => mapSet m (x.elems0 + e.2) (BitVec.ofInt 48 (elemInt (if f = .int16 then .int16 else .int32) e.1))) x.acc
  let tnt := taint ||| x.accTaint
  let d := x.elems0 + elemsPerToken f
  if n ≤ d then
    let l := rankSort (bitsOf cb 9 8) (acc.map (fun e => (e.2.truncate 32, e.1)))
    let k := if caOp ca = 0 then n else if caOp ca = 1 then bitsOf cb 15 10 + 1 else 1
    let (r, s) := s.nextFree
    let ps := (l.take k).map (fun e => e.1.toNat * 2 ^ 16 + e.2 % 2 ^ 16)
      ++ (List.range (k - l.length)).map (fun j => (Config.rankPair r j).toNat)
    let os := (chunks 5 (k + 1) ps).map (fun c => (5, payloadOf 48 c))
    (s.putUnit u { x with acc := [], elems0 := 0, accTaint := 0 }, ⟨os, [], [], sideLast h.tok.side, tnt⟩)
  else (s.putUnit u { x with acc := acc, elems0 := d, accTaint := tnt }, fireNone)

/-- Byte of bin slot `b` of a histogram context: 0 under, `n + 1` over, else a bin (R166). DEDUCED: log entry 85. -/
def histByte (k n b : Nat) : Nat := if b = 0 then 0x4000 + 8 * k else if b = n + 1 then 0x4004 + 8 * k else 0x1000 * k + 4 * (b - 1)

/-- A firing of a histogram unit (R79, R198, R199). Element `i` of the Q0 token takes weight `i` of the paired weight token;
where Q0 holds 8 elements of int32, weights 8 to 15 are ignored. DESIGN CHOICE: log entry 98. -/
def State.fireHist (s : State) (u i : Nat) (ts : List (Nat × List Held)) (taint : BitVec 2) : State × FireOut :=
  let x := s.unit u
  let ca := s.ctxA u x.actx
  let cb := s.ctxB u x.actx
  let x0 := signedOf 32 (s.ctxC u x.actx)
  let n := bitsOf cb 26 17 + 1
  let k := bitsOf cb 31 27
  let tk := fun (q : Nat) => ((ts.find? (fun e => decide (e.1 = q))).bind (·.2.head?))
  match tk 0 with
  | none => (s, fireNone)
  | some h =>
    let f := s.uFmt u 0
    let ws := if caOp ca = 1 then (tk 1).map (fun w => payloadElems .uint16 w.tok.payload) else none
    let (s, cs, bad) := (payloadElems f h.tok.payload).zipIdx.foldl (fun (a : State × List Cond × Bool) e =>
      let b := histByte x.actx n (histBin x0 k n (elemInt f e.1))
      let (bs, bad) := a.1.uRead u b 4
      let (v, c) := sat32 (leNat bs + (match ws with | some w => w.getD e.2 0 | none => 1))
      (a.1.sramWrite (uKey u) (uByte u b) (leBytes 4 v), a.2.1 ++ c, a.2.2 || bad)) (s, [], false)
    let s := if bad then s.rwFault (uRegion u / 8) (uByte u (0x1000 * x.actx)) u i else s
    let last := sideLast h.tok.side
    let read := last && (cb.testBit 15 || decide (x.rdCount + 1 = bitsOf cb 13 0))
    let tnt := taint ||| (if bad then 1 else 0)
    let x := s.unit u
    if read then
      let vs := (List.range (n + 2)).map (fun b => leNat (s.uRead u (histByte x.actx n b) 4).1)
      let s := if cb.testBit 16 then
          (List.range (n + 2)).foldl (fun s b => s.sramWrite (uKey u) (uByte u (histByte x.actx n b)) (leBytes 4 0)) s
        else s
      (s.putUnit u { s.unit u with rdCount := 0 },
       ⟨(chunks 8 (n + 2) vs).map (fun c => (6, payloadOf 32 c)), [], cs, true, tnt⟩)
    else (s.putUnit u { x with rdCount := if last then x.rdCount + 1 else x.rdCount }, { fireNone with conds := cs })

/-! ### The firing (R151 to R156, R167) -/

/-- SEQ_MISMATCH: the unit does not fire, and the partition stops (R156). -/
def State.seqMismatch (s : State) (u : Nat) (i : Nat) (c : Nat × Nat × BitVec 12 × BitVec 12) : State :=
  let r := uRegion u
  let w := 2 ^ 31 + u * 2 ^ 16 + c.2.1 * 2 ^ 14 + c.2.2.2.toNat
  let s := if s.flag (aLat r 0x10) 31 then s
    else (s.setReg (aLat r 0x10) (BitVec.ofNat 32 w)).setReg (aLat r 0x14) (BitVec.ofNat 32 (c.1 * 2 ^ 12 + c.2.2.1.toNat))
  let (st, sq) := s.instEvent i
  let s := s.fault (r / 8) ⟨9, .stop, s.regionPart r, u, false, w, st, sq⟩
  match s.regionPart r with
  | some p => s.stopOn (uRegion u / 8) p 1
  | none => s

/-- Run the operation of a unit's firing on the tokens taken. -/
def State.fireKind (s : State) (u i : Nat) (ts : List (Nat × List Held)) (taint : BitVec 2) : State × FireOut :=
  let h := (ts.find? (fun e => decide (e.1 = 0))).bind (·.2.head?)
  match s.uKind u with
  | 0 => s.fireMac u i ts taint
  | 1 => s.fireSteer u i ts taint
  | 2 => match h with | some h => s.fireTree u i h taint | none => (s, fireNone)
  | 3 => match h with | some h => s.fireTable u i h taint | none => (s, fireNone)
  | 4 => s.fireReduce u ts taint
  | 5 => match h with | some h => s.fireRank u h taint | none => (s, fireNone)
  | 6 => s.fireHist u i ts taint
  | _ => (s, fireNone)

/-- The unit's last firing was its II ago, so it may fire or switch now (R151, R167). -/
def State.intervalOver (s : State) (u : Nat) (x : UnitState) : Bool :=
  match x.lastFire with | some c => decide (c + s.uII u x.actx ≤ s.now) | none => true

/-- Fire: pop the read set, start the operation, put its output into the pipeline, count the firing. -/
def State.fire (s : State) (u : Nat) (dn : Due) (p : Plan) : State :=
  let i := dn.inst
  let d := uRegion u / 8
  let k := (s.unit u).actx
  let ca := s.ctxA u k
  let (s, ts) := p.reads.foldl (fun (a : State × List (Nat × List Held)) r =>
    let (s, hs) := a.1.pop u r.1 r.2
    (s, a.2 ++ [(r.1, hs)])) (s, [])
  let all := ts.foldl (fun l e => l ++ e.2) []
  let (s, taint) := s.consume u all
  let (s, cb) := s.cfgCheck u i [aUnit u 0, aUnit u 4, aUnit u 8, aCtxA u k, aCtxB u k, aCtxC u k]
  let taint := taint ||| (if cb then 1 else 0)
  let s := (s.putUnit u { s.unit u with lastFire := some s.now, due := (s.unit u).due.drop 1, fdone := (s.unit u).fdone + 1 })
  let s := s.count d 0x10 1 (s.occUnit u i)
  let (s, o) := s.fireKind u i ts taint
  let s := s.raiseUnit u i o.conds
  let data := (ts.find? (fun e => decide (e.1 ≠ 3 ∧ e.2 ≠ []))).bind (·.2.head?)
  let side := match data with | some h => h.tok.side | none => ((all.head?).map (·.tok.side)).getD 0
  let out0 := if (caOuten ca).testBit 0 then o.out0 else []
  let out1 := if (caOuten ca).testBit 1 then o.out1 else []
  let (s, t0) := s.make u i (sideSeq side) (sideBlk side) o.taint o.last out0
  let (s, t1) := s.make u i (sideSeq side) (sideBlk side) o.taint o.last out1
  let x := s.unit u
  let x := if t0.isEmpty && t1.isEmpty then x
    else { x with pipe := insertBy (·.done) ⟨s.now + s.uLatency u k, t0, t1⟩ x.pipe }
  let x := if caFires ca ≠ 0 ∧ caFires ca ≤ x.fdone then { x with switching := true } else x
  let s := if mapGetD s.lat.deficits (4 * u + k) 0 = 0 then s else s.mapInst i (fun y => { y with behind := true })
  (s.putUnit u x).doOp i d dn.sched

/-- The next firing of a unit: the first due one; in lattice mode, whose units carry no FIRING record, that of the event
whose token stands first in a queue of the read set. -/
def State.nextDue (s : State) (u : Nat) : Option Due :=
  match (s.unit u).due with
  | dn :: _ => some dn
  | [] =>
    if s.regionMode (uRegion u) = 2 then
      let x := s.unit u
      let qs : List Nat := match s.plan u with | some p => p.reads.map (fun r => r.1) | none => [0, 1]
      (qs.findSome? (fun q => (x.queue q).head?)).map (fun (h : Held) => ⟨s.cycle (uRegion u / 8), h.inst⟩)
    else none

/-- The standby set is complete, so that a switch may take it (R167); a unit with one context has none to fill. -/
def State.standbyFull (s : State) (u : Nat) (x : UnitState) : Bool :=
  decide (s.uNctx u = 0) || (x.standbyOk && (match x.fillDone with | some t => decide (t < s.now) | none => true))

/-- What decides whether a unit fires in this cycle (R151). -/
inductive Ready where
  /-- nothing is due, or its interval has not elapsed, or it spends its switch cycle -/
  | idle
  /-- an interlock of this cause holds the due firing -/
  | held (d : Due) (cause : Nat)
  | fires (d : Due) (p : Plan)
  deriving DecidableEq, Repr

/-- Decide. A wait for an input of an event that a unit slower than the image's profile has delayed is RELAXED_DEFICIT (R241);
a fold switch that waits for its fill (R393) is INPUT_EMPTY. DEDUCED: log entry 83. -/
def State.fireReady (s : State) (u : Nat) : Ready :=
  let x := s.unit u
  if s.uGated u then .idle
  else
    match s.nextDue u with
    | none => .idle
    | some dn =>
      let empty := if (match s.inst dn.inst with | some y => y.behind | none => false) then 0xB else 1
      if !s.intervalOver u x || decide (s.cycle (uRegion u / 8) < dn.sched) then .idle
      else if x.switching then (if s.standbyFull u x then .idle else .held dn 1)
      else
        match s.plan u with
        | none => .held dn empty
        | some p =>
          if !inputsReady x s.now p then .held dn empty
          else if !portReady x 0 p.outs0 || !portReady x 1 p.outs1 || (decide (s.uKind u = 2) && featHeld x s.now) then
            .held dn 2
          else .fires dn p

/-- A unit in dataflow fires where nothing holds it (R151); a cycle in which an interlock holds it counts as it ends. -/
def State.tryFire (s : State) (u : Nat) : State :=
  match s.fireReady u with
  | .fires dn p =>
    let s := p.reads.foldl (fun s r => s.headCheck u r.1) s
    match seqConflict (s.unit u) (caSeqchk (s.ctxA u (s.unit u).actx)) p with
    | some c => s.seqMismatch u dn.inst c
    | none => s.fire u dn p
  | _ => s

/-! ### Lattice mode (R28 to R30, R163, R179) -/

/-- The MAC unit at unit row `ur` (0 to 31, from the north) of the unit column of `u`. -/
def columnUnit (u ur : Nat) : Nat :=
  unitAddr (uRegion u) (8 * (ur / 4) + uCluster u % 8) (4 * (ur % 4) + uUnit u % 4)

/-- The row of a MAC unit in its region, from the north: the accumulation passes it that many cycles after the first (R163). -/
def unitRow (u : Nat) : Nat := 4 * (uCluster u / 8) + uUnit u / 4

/-- The MAC units of `u`'s column from the north edge down to `u` that take part: those from the last unit before `u`
that starts an accumulation from its bias. DEDUCED: log entry 79. -/
def State.column (s : State) (u : Nat) : List Nat :=
  let us := ((List.range (unitRow u + 1)).map (columnUnit u)).filter (fun v => decide (s.uKind v = 0))
  us.foldl (fun l v => if cbChain (s.ctxB v 0) then l ++ [v] else [v]) []

/-- Tokens of one accumulation at a unit of a column. -/
def State.columnTokens (s : State) (v : Nat) : Nat := cbAccTok (s.ctxB v 0) + 1

/-- A completing unit of lattice mode fires: the accumulation of its column runs from north to south, one unit a cycle, and
its result goes to the rescale stage of the unit's cluster. DEDUCED: log entry 79. -/
def State.latticeFire (s : State) (u : Nat) : State :=
  let vs := s.column u
  let ready := vs.all (fun v =>
    decide (s.columnTokens v ≤ ((s.unit v).q0.filter (fun h => decide (h.since + unitRow u ≤ s.now + unitRow v))).length))
  let due := match (s.unit u).lastFire with | some c => decide (c + s.columnTokens u * s.uII u 0 ≤ s.now) | none => true
  if !cbFinal (s.ctxB u 0) || vs.isEmpty || !ready || !due then s
  else
    let s := vs.foldl (fun s v => s.headCheck v 0) s
    let start := vs.headD u
    let op := caOp (s.ctxA u 0)
    let acc0 := macInit op (s.ctxB start 0 % 2 ^ 23 + s.ctxB start 0 / 2 ^ 24 * 2 ^ 24) (s.unit start).setA []
    let (s, acc, cs, taint, hl) := vs.foldl (fun (a : State × List (BitVec 48) × List Cond × BitVec 2 × Option Held) v =>
      let (s, hs) := a.1.pop v 0 (a.1.columnTokens v)
      let (s, t) := s.consume v hs
      let r := hs.foldl (fun (z : List (BitVec 48) × List Cond) h =>
        let m := macToken op (s.ctxB v 0) (s.unit v).setA z.1 h.tok.payload
        (m.1, z.2 ++ m.2)) (a.2.1, [])
      let s := s.count (uRegion v / 8) 0x10 hs.length (s.occUnit v ((hs.head?.map (·.inst)).getD 0))
      let f := afmtElem (cbAfmt (s.ctxB v 0))
      let s := hs.foldl (fun s h => match s.inst h.inst with
        | some n => s.monitorIn v n h ((payloadElems f h.tok.payload).map (elemInt f)) | none => s) s
      (s, r.1, a.2.2.1 ++ r.2, a.2.2.2.1 ||| t, hs.getLast?)) (s, acc0, [], 0, none)
    let i := (hl.map (·.inst)).getD 0
    let (v, sat) := macFinal op acc
    let f : Final :=
      { unit := u, ctx := 0, inst := i, fp := decide (op = 1), acc := v, side := (hl.map (·.tok.side)).getD 0, taint := taint,
        ready := s.now + s.uLatency u 0, outs := finalOuts (s.ctxA u 0) (s.ctxB u 0),
        entries := (List.range 16).map (operandEntry (s.unit u).setA), sats := sat }
    let c := s.cluster (uKey u)
    let s := s.putUnit u { s.unit u with lastFire := some s.now }
    (s.putCluster (uKey u) { c with stage := stageInsert f c.stage }).raiseUnit u i cs

/-- A token enters the lattice by west edge port `n` of region `r`: port tokens are dealt to the four unit rows of cluster
row `n` in turn, and the MAC units of the unit row meet it from west to east, one a cycle (R163). DEDUCED: log entry 79. -/
def State.latticeIn (s : State) (r n : Nat) (h : Held) : State :=
  let k := 64 * r + 8 * n
  let c := s.cluster k
  let row := c.latCount % 4
  let s := s.putCluster k { c with latCount := c.latCount + 1 }
  (List.range 32).foldl (fun s j =>
    let u := unitAddr r (8 * n + j / 4) (4 * row + j % 4)
    if s.uKind u = 0 then
      match s.arrive u 0 .int8 h with
      | (s, some h) => let x := s.unit u; s.putUnit u { x with q0 := queueInsert { h with since := h.since + j } x.q0 }
      | (s, none) => s
    else s) s

/-- FIRING. -/
def State.firing (s : State) (u : Nat) : State :=
  if !s.regionLive (uRegion u) then s
  else if s.regionMode (uRegion u) = 2 ∧ s.uKind u = 0 then s.latticeFire u
  else s.tryFire u

/-! ### Fold contexts (R167, R168, R170) -/

/-- The successor of a context. -/
def State.nextCtx (s : State) (u k : Nat) : Nat := caNext (s.ctxA u k)

/-- FOLD_SWITCH: the switch cycle of a unit that has fired FIRES times. -/
def State.foldSwitch (s : State) (u : Nat) : State :=
  let x := s.unit u
  if !x.switching || !s.regionLive (uRegion u) || !s.intervalOver u x || !s.standbyFull u x then s
  else
    let k := s.nextCtx u x.actx
    let ii := s.uII u k
    let one := decide (s.uNctx u = 0)
    let s := s.putUnit u { x with
      actx := k, fdone := 0, switching := false, lastFire := if s.now + 1 < ii then none else some (s.now + 1 - ii)
      setA := if one then x.setA else x.setB, setB := [], decodedBad := one && x.decodedBad, standbyOk := false
      fillDone := if one then none else some (s.now + prefill (s.uKind u)) }
    s.count (uRegion u / 8) 0x20 1 (s.occUnit u 0)

/-- Bank rows that a switch writes into the operand area of context `k` (R392). -/
def State.streamSlots (s : State) (u k : Nat) : List Nat :=
  let lo := uByte u (0x480 * s.area u k) / 32
  (List.range 512).filter (fun i =>
    let w := (s.reg (aSwSlot (uKey u) i)).toNat
    let row := 512 * bitsOf w 17 13 + bitsOf w 12 4
    w.testBit 31 && decide (bitsOf w 24 18 = 81) && decide (lo ≤ row ∧ row < lo + 36))

/-- A switch write into a streamed operand area, scheduled before now, has not happened (R393). -/
def State.streamPending (s : State) (u k : Nat) : Bool :=
  (s.streamSlots u k).any (fun i =>
    let w := (mapGetD s.lat.sched (aSwSlot (uKey u) i) 0).toNat
    let done := mapGetD s.lat.memServed (2 ^ 24 + 512 * uKey u + i) 0
    s.seq.insts.any (fun x => decide (s.regionPart (uRegion u) = some x.part ∧ x.prog = swProg w ∧ done < x.id
      ∧ x.ingest + swOff w < s.cycle (uRegion u / 8))))

/-- STANDBY_FILL_DONE: the standby set holds context NEXT. -/
def State.standbyFillDone (s : State) (u : Nat) : State :=
  let x := s.unit u
  match x.fillDone with
  | some t =>
    let k := s.nextCtx u x.actx
    if x.standbyOk || decide (s.now < t) || s.streamPending u k then s
    else s.putUnit u { x with standbyOk := true, fillDone := some s.now, setB := if s.uKind u = 0 then s.operand u k else [] }
  | none => s

/-! ### Pipelines, bursts, evaluations (R154, R171, R191) -/

/-- Q1 of a unit takes `n` tokens of its own output 1, one a cycle from the next one on (R173). -/
def State.loopFree (s : State) (u n : Nat) : Bool :=
  decide (((s.unit u).queue 1).length + n ≤ s.uDepth u 1) && (List.range n).all (fun j => s.queueFree u 1 (s.now + 1 + j))

/-- PIPELINE_COMPLETE: the firing whose pipeline has run first places its tokens. Tokens for which an output buffer has no room
wait in the pipeline, and no stall of this unit counts. DESIGN CHOICE: log entry 98. -/
def State.pipelineComplete (s : State) (u : Nat) : State :=
  let x := s.unit u
  match x.pipe with
  | [] => s
  | f :: rest =>
    let direct := s.uLoop u && !f.out1.isEmpty
    let room1 := if direct then s.loopFree u f.out1.length else portReady x 1 f.out1.length
    if s.now < f.done ∨ s.regionLive (uRegion u) = false ∨ portReady x 0 f.out0.length = false ∨ room1 = false then s
    else
      let mark := fun (l : List Held) => l.map (fun h => { h with since := s.now })
      let x := { x with pipe := rest, out0 := x.out0 ++ mark (f.out0.take 4), burst0 := mark (f.out0.drop 4) }
      let x := if direct then x else { x with out1 := x.out1 ++ mark (f.out1.take 4), burst1 := mark (f.out1.drop 4) }
      let s := s.putUnit u x
      if direct then f.out1.zipIdx.foldl (fun s h => s.deliver u 1 { h.1 with since := s.now + h.2 }) s else s

/-- BURST_TOKEN_PLACE: a further token of a pending burst takes an entry that freed in an earlier cycle, one a cycle. -/
def State.burstPlace (s : State) (u p : Nat) : State :=
  let x := s.unit u
  match x.burst p with
  | h :: rest =>
    let now := bitOf (s.usedNow (useKey 1 (2 * u + p)))
    if (x.out p).length + now < 4 ∧ s.regionLive (uRegion u) = true ∧ s.usedNow (useKey 2 (2 * u + p)) = false then
      (s.use (useKey 2 (2 * u + p))).putUnit u ((x.setOut p (x.out p ++ [{ h with since := s.now }])).setBurst p rest)
    else s
  | [] => s

/-- Descend a tree from a reference for at most `fuel` levels (R75, R189). -/
def treeWalk (fp : Bool) (nodes feats : List Byte) : Nat → Bool → Nat → Option Nat
  | _, true, leaf => some leaf
  | 0, false, _ => none
  | n + 1, false, k =>
    let v := leNat (bytesAt nodes (16 * k) 16)
    let fi := bitsOf v 95 86
    let feat := if fp then fieldLE feats (4 * fi) 4 else fieldLE feats (2 * fi) 2
    let th := if fp then bitsOf v 127 96 else bitsOf v 111 96
    if nodeLeft fp (v.testBit 85) (BitVec.ofNat 32 feat) (BitVec.ofNat 32 th) then
      treeWalk fp nodes feats n (v.testBit 84) (bitsOf v 82 72)
    else treeWalk fp nodes feats n (v.testBit 83) (bitsOf v 71 61)

/-- Leaf values of an event in root-table order. -/
def State.leaves (s : State) (u : Nat) (e : TreeEvent) : List Nat × Bool × Bool :=
  let cb := s.ctxB u e.ctx
  let fp := cb.testBit 11
  let (nodes, b0) := s.uRead u 0 0x4000
  let (lv, b1) := s.uRead u 0x4000 0x2000
  let (rs, b2) := s.treeRoots u e.ctx
  let (feats, b3) := s.uRead u (featBase e.buf) 0x1000
  (rs.map (fun w =>
    match treeWalk fp nodes feats (bitsOf cb 31 26) (w.testBit 30) (bitsOf w 29 19) with
    | some l => fieldLE lv (4 * l) 4
    | none => 0), b0 || b1 || b2, b3)

/-- The oldest filled feature buffer is due and waits for the previous evaluation (R191). -/
def State.treeBusy (s : State) (x : UnitState) : Bool :=
  (match x.waiting with | e :: _ => decide (e.ready ≤ s.now) | [] => false)
    && (match x.evalHold with | some (_, t) => decide (s.now < t) | none => false)

/-- TREE_EVALUATION: the oldest filled feature buffer, once the previous evaluation has run DEPTH cycles. -/
def State.treeEvaluation (s : State) (u : Nat) : State :=
  let x := s.unit u
  match x.waiting with
  | [] => s
  | e :: rest =>
    let depth := bitsOf (s.ctxB u e.ctx) 31 26
    if s.now < e.ready ∨ s.regionLive (uRegion u) = false ∨ s.treeBusy x = true then s
    else
      let (ls, ro, rw) := s.leaves u e
      let (s, ro) := s.roCheck u (uByte u 0) ro e.inst
      let s := if rw then s.rwFault (uRegion u / 8) (uByte u (featBase e.buf)) u e.inst else s
      let t := e.taint ||| (if ro || rw then 1 else 0)
      let os := (chunks 8 3 ls).map (fun c => (4, payloadOf 32 c))
      let (s, hs) := s.make u e.inst (sideSeq e.side) (sideBlk e.side) t true os
      let y := s.unit u
      s.putUnit u { y with
        waiting := rest, evalStart := some s.now, evalHold := some (e.buf, s.now + depth)
        pipe := if hs.isEmpty then y.pipe
          else insertBy (·.done) ⟨s.now - 1 + s.uLatency u e.ctx, hs, []⟩ y.pipe }

/-- FIRING (R151). -/
def execFiring (u : Nat) (s : State) : Host.Outcome State Fault Refusal :=
  .next (s.only (.firing u) (s.firing u))
/-- FOLD_SWITCH (R167). -/
def execFoldSwitch (u : Nat) (s : State) : Host.Outcome State Fault Refusal :=
  .next (s.only (.foldSwitch u) (s.foldSwitch u))
/-- STANDBY_FILL_DONE (R168). -/
def execStandbyFillDone (u : Nat) (s : State) : Host.Outcome State Fault Refusal :=
  .next (s.only (.standbyFillDone u) (s.standbyFillDone u))
/-- PIPELINE_COMPLETE (R171). -/
def execPipelineComplete (u : Nat) (s : State) : Host.Outcome State Fault Refusal :=
  .next (s.only (.pipelineComplete u) (s.pipelineComplete u))
/-- BURST_TOKEN_PLACE (R154). -/
def execBurstTokenPlace (u p : Nat) (s : State) : Host.Outcome State Fault Refusal :=
  .next (s.only (.burstTokenPlace u p) (s.burstPlace u p))
/-- TREE_EVALUATION (R191). -/
def execTreeEvaluation (u : Nat) (s : State) : Host.Outcome State Fault Refusal :=
  .next (s.only (.treeEvaluation u) (s.treeEvaluation u))

end Sys2Proof.Machine
end

