-- ==== Sys2Proof/Machine/Rescale.lean ====
section
/-! DEFINITION. The rescale stage of a cluster (R89 to R98, R110 to R114, R182) and the trip decision of the range monitors
(R115 to R117, R122, R125). -/

namespace Sys2Proof.Machine

/-- Key of a channel's entry in the rescale tables (R89, R133). -/
def State.rescaleKey (s : State) (k i e : Nat) : Nat :=
  8192 * k + 4096 * (match s.inst i with | some x => s.bankOf x | none => 0) + e

/-- Entries of the 16 channels of a final accumulation, with their keys. -/
def State.finalEntries (s : State) (k : Nat) (f : Final) : List (Nat × BitVec 128) :=
  f.entries.map (fun e => let q := s.rescaleKey k f.inst e; (q, mapGetD s.lat.rescale q 0))

/-- An entry takes its exponent from the scale stream (R91). DEDUCED: log entry 85. -/
def isDyn (e : BitVec 128) : Bool := decide (reMode e = 2 ∨ reMode e = 3)
/-- An entry takes a draw. -/
def isStoch (e : BitVec 128) : Bool := decide (reMode e = 1 ∨ reMode e = 3)

/-- Exponent of accumulation `n` from a scale token (R111). -/
def scaleExp (h : Option Held) (n : Nat) : Int :=
  match h with
  | some h => let o := 8 * (n % 32); signedOf 6 (bitsOf h.tok.payload.toNat (o + 5) o)
  | none => 0

/-! ### The trip decision (R116, R117, R122, R125) -/

/-- Units and contexts that complete the layer's channel blocks: the units in the order of the MONITOR record, the final
contexts of each in their order. DESIGN CHOICE: log entry 99. -/
def State.layerFinals (s : State) (l : Layer) : List (Nat × Nat) :=
  match (s.part l.part).image with
  | none => []
  | some im =>
    l.units.foldl (fun acc x =>
      match im.recs.find? (fun r => decide (r.typ = tyUnit) && decide (fieldLE r.body 4 4 % 2 ^ 27 = x)) with
      | none => acc
      | some r =>
        let u := im.unitOf r
        acc ++ ((List.range (s.uNctx u + 1)).filter (fun k => cbFinal (s.ctxB u k))).map (fun k => (u, k))) []

/-- Output channels of the layer that a final accumulation completes: the rest of its 16 are padding. -/
def State.finalChannels (s : State) (l : Layer) (f : Final) : Nat :=
  l.cOut - 16 * (s.layerFinals l).findIdx (fun e => decide (e = (f.unit, f.ctx)))

/-- Final accumulations of the first `n` channels of a token that the monitor counts. -/
def monitorAcc (n : Nat) (lim : List Byte) (f : Final) (es : List (BitVec 128)) : Nat :=
  let (lo, hi, _) := limAcc lim
  (((f.acc.zip (f.sats.zip es)).take n).filter (fun v =>
    let a := signedOf 32 v.1.toNat
    decide (reMode v.2.2 ≠ 4) && (v.2.1 || decide (a < lo ∨ hi < a)))).length

/-- The monitor trips for the event (R116). -/
def trips (lim : List Byte) (w : LayerWork) : Bool :=
  let (_, _, ci) := limIn lim
  let (_, _, ca) := limAcc lim
  decide (0 < ci ∧ ci ≤ w.inCount) || decide (0 < ca ∧ ca ≤ w.accCount)

/-- The event reaches the window start of a layer: pass number and trip decision. The counts of 48 bits wrap. DEDUCED: log
entry 82. DESIGN CHOICE: log entry 98. -/
def State.windowStart (s : State) (k : Nat) (l : Layer) (x : Inst) (c : Nat) : State :=
  match l.work.find? (fun w => decide (w.inst = x.id)) with
  | none => s
  | some w =>
    let trip := trips (s.limits l x) w
    let ok := trip && (match l.nLast with | some n => decide (l.k ≤ (l.n - n).toNat) | none => true)
    let o : Occ := ⟨none, some x.part, 0x7FFF, some (x.stream, x.seq)⟩
    let s := if ok then s.count (k / 64) 0x43 1 o else if trip then s.count (k / 64) 0x44 1 o else s
    let s := if trip && !ok then s.raise x.id 0x8#16 else s
    s.mapLayer k (fun l =>
      let l := mapWork x.id (fun w => { w with window := some c, pass := l.n.toNat, accepted := ok }) l
      { l with n := l.n + 1, nLast := if ok then some l.n else l.nLast
               overs := if trip && !ok then l.overs + 1 else l.overs })

/-- A final accumulation leaves the stage: the layers that list its unit count it. DEDUCED: log entry 82. -/
def State.monitorFinal (s : State) (f : Final) (es : List (BitVec 128)) : State :=
  match s.inst f.inst with
  | none => s
  | some x =>
    (s.layersOf f.unit x).foldl (fun s k =>
      match mapGet s.gau.layers k with
      | none => s
      | some l =>
        let s := s.mapLayer k (mapWork x.id (fun w =>
          { w with accCount := w.accCount + monitorAcc (s.finalChannels l f) (s.limits l x) f es, finals := w.finals + 1 }))
        match mapGet s.gau.layers k with
        | some l =>
          if l.work.any (fun w => decide (w.inst = x.id ∧ w.finals = l.v * l.blocks ∧ w.window = none)) then
            s.windowStart k l x (s.now + 4)
          else s
        | none => s) s

/-! ### One token through the stage -/

/-- Parity of the rescale entries that a token names (R475). -/
def State.rescaleParity (s : State) (f : Final) (qs : List Nat) : State × Bool :=
  qs.foldl (fun (a : State × Bool) q =>
    if mapGetD s.flt.rescaleBad q false then
      (a.1.roFault (uRegion f.unit / 8) 1 1 q (2 ^ 31 + q % 4096) f.unit (a.1.regionPart (uRegion f.unit)) f.inst, true)
    else a) (s, false)

/-- Draws of the 16 channels, in element order, and the number made (R94). -/
def State.finalDraws (s : State) (f : Final) (es : List (BitVec 128)) : List Nat × Nat :=
  let n0 := mapGetD (s.unit f.unit).draws f.inst 0
  match s.inst f.inst with
  | none => (es.map (fun _ => 0), n0)
  | some x =>
    es.foldl (fun (a : List Nat × Nat) e =>
      if isStoch e then (a.1 ++ [draw (s.seedOf x x.prog) x.stream x.seq 0 (s.uLidx f.unit) a.2], a.2 + 1)
      else (a.1 ++ [0], a.2)) ([], n0)

/-- Note that `n` draws have been made for instance `i` at unit `u`; instances that have ended are forgotten. -/
def State.putDraws (s : State) (u i n : Nat) : State :=
  let x := s.unit u
  s.putUnit u { x with draws := mapSet (x.draws.filter (fun e => (s.inst e.1).isSome)) i n }

/-- The stage's output tokens on port 0 as KIND and payload (R182). -/
def rescaleTokens (es : List (BitVec 128)) (vs : List Nat) : List (Nat × BitVec 256) :=
  let w := reWidth (es.headD 0)
  if w = 32 then (chunks 8 2 vs).map (fun c => (1, payloadOf 32 c)) else [(0, payloadOf w vs)]

/-- Rescale the head token of cluster `k` with scale `h` from block position `n0`; `skew` taints it (R114). -/
def State.rescaleToken (s : State) (k : Nat) (f : Final) (h : Option Held) (n0 : Nat) (skew : Bool) : State :=
  let ke := s.finalEntries k f
  let es := ke.map (·.2)
  let (s, bad) := s.rescaleParity f (ke.map (·.1))
  let (ds, dn) := s.finalDraws f es
  let s := s.putDraws f.unit f.inst dn
  let rs := (f.acc.zip (es.zip ds)).zipIdx.map (fun v =>
    let e := v.1.2.1
    rescaleChannel v.1.1 f.fp e (if isDyn e then scaleExp h (n0 + v.2) else 0) v.1.2.2)
  let sats := ((f.sats.zip es).filter (fun v => v.1 && decide (reMode v.2 ≠ 4))).map (fun _ => Cond.accSat)
  let s := s.raiseUnit f.unit f.inst (sats ++ rs.foldl (fun l r => l ++ r.2) [])
  let tnt := f.taint ||| (match h with | some h => sideTaint h.tok.side | none => 0) ||| (if skew then 2 else 0)
    ||| (if bad then 1 else 0)
  let o0 := if f.outs.testBit 0 then rescaleTokens es (rs.map (·.1)) else []
  let o1 := if f.outs.testBit 1 then (chunks 8 2 (f.acc.map (fun a => a.toNat % 2 ^ 32))).map (fun c => (1, payloadOf 32 c)) else []
  let (s, t0) := s.make f.unit f.inst (sideSeq f.side) (sideBlk f.side) tnt (sideLast f.side) o0
  let (s, t1) := s.make f.unit f.inst (sideSeq f.side) (sideBlk f.side) tnt (sideLast f.side) o1
  let s := s.monitorFinal f es
  let u := s.unit f.unit
  if t0.isEmpty && t1.isEmpty then s
  else s.putUnit f.unit { u with pipe := insertBy (·.done) ⟨s.now + figure s.devProfile 3 0, t0, t1⟩ u.pipe }

/-- The word SCL_SKEW_INFO records: CAUSE, the cluster, the block of the final and that of the scale token (R135). -/
def scaleInfo (k : Nat) (f : Final) (cause : Nat) (head : Option Held) : Nat :=
  let bs := match head with | some h => if cause = 1 then (sideBlk h.tok.side).toNat else 0 | none => 0
  cause * 2 ^ 30 + k % 64 * 2 ^ 24 + (sideBlk f.side).toNat * 2 ^ 16 + bs * 2 ^ 8

/-- The DETAIL of the fault entry: that word with bit 31 set. -/
def scaleDetail (info : Nat) : Nat := 2 ^ 31 + info

/-- The event of a final accumulation has skewed at this stage. -/
def ClusterState.skewOf (c : ClusterState) (f : Final) : Option Skew := c.skews.find? (fun w => decide (w.inst = f.inst))

/-- The stage meets the token `f`: the first of a later event clears the latch, and a skewed event whose SEQ is in use again is
forgotten (R114). -/
def ClusterState.meet (c : ClusterState) (f : Final) : ClusterState :=
  let later := fun (w : Skew) => !w.ended && decide (w.inst < f.inst)
  { c with latched := if c.skews.any later then none else c.latched
           skews := (c.skews.filter (fun w => !(decide (w.inst ≠ f.inst) && decide (w.seq = sideSeq f.side)))).map (fun w =>
             if later w then { w with ended := true } else w) }

/-- The head of the scale queue, if it stands there now (R160). -/
def State.scaleHead (s : State) (c : ClusterState) : Option Held :=
  match c.scaleQ with
  | h :: _ => if h.since ≤ s.now then some h else none
  | [] => none

/-- SCALE_SKEW at the head token `f` of cluster `k` (R114): cause 0 timeout, 1 unequal BLK. -/
def State.scaleSkew (s : State) (k : Nat) (f : Final) (cause : Nat) (head : Option Held) : State :=
  let r := k / 64
  let d := r / 8
  let info := scaleInfo k f cause head
  let ev := s.instEvent f.inst
  let s := (s.addReg (aScl d (0x200 + 4 * (r % 8))) 1).firstRecord (aScl d (0x220 + 4 * (r % 8))) info
    (firstOrder f.unit ev.1 ev.2) []
  let s := s.count d 0x38 1 (s.occUnit f.unit f.inst)
  let s := s.fault d ⟨0xD, .taint, s.regionPart r, f.unit, false, scaleDetail info, ev.1, ev.2⟩
  let c := s.cluster k
  let w : Skew := ⟨f.inst, sideSeq f.side, c.latched, false⟩
  s.putCluster k { c with skews := c.skews ++ [w], scaleQ := c.scaleQ.filter (fun h => !w.names h) }

/-- The head leaves the stage order; its block position, and the count moved on (R111). -/
def ClusterState.takeHead (c : ClusterState) (f : Final) : Nat × ClusterState :=
  let b := sideBlk f.side
  let n := if c.curBlk = some b then c.blkCount else 0
  (n, { c with stage := c.stage.drop 1, curBlk := some b, blkCount := n + 16, waitSince := none })

/-- Rescale and emit the head of cluster `k` with the scale `h`. -/
def State.stageEmit (s : State) (k : Nat) (f : Final) (h : Option Held) (skew : Bool) : State :=
  let (n, c') := (s.cluster k).takeHead f
  (s.putCluster k c').rescaleToken k f h n skew

/-- The head token skews and leaves with the scale that the latch holds (R114). -/
def State.stageSkew (s : State) (k : Nat) (f : Final) (cause : Nat) (head : Option Held) : State :=
  let h := (s.cluster k).latched
  (s.scaleSkew k f cause head).stageEmit k f h true

/-- What R112 and R114 make of a head token `f` that is due. -/
inductive StageStep where
  /-- it leaves with this scale; the Bools say that the scale is popped into the latch, and that the event has skewed -/
  | emit (h : Option Held) (pops skew : Bool)
  /-- the scale head has another BLK -/
  | skews (h : Held)
  | waits
  deriving DecidableEq, Repr

/-- Decide it for a stage that has met the token. -/
def State.stageStep (s : State) (k : Nat) (c : ClusterState) (f : Final) : StageStep :=
  let b := sideBlk f.side
  match c.skewOf f with
  | some w => .emit w.scale false true
  | none =>
    if !((s.finalEntries k f).any (fun e => isDyn e.2)) then .emit none false false
    else if (match c.latched with | some h => decide (sideBlk h.tok.side = b) | none => false) then .emit c.latched false false
    else
      match s.scaleHead c with
      | some h => if sideBlk h.tok.side = b then .emit (some h) true false else .skews h
      | none => .waits

/-- The stage offers its head token a scale (R112). The Bool says that the token left. -/
def State.stageHead (s : State) (k : Nat) : State × Bool :=
  match (s.cluster k).stage with
  | [] => (s, false)
  | f :: _ =>
    if s.now < f.ready then (s, false)
    else
      let s := s.scaleHeadCheck k
      let c := (s.cluster k).meet f
      match s.stageStep k c f with
      | .emit h true skew => ((s.putCluster k { c with latched := h, scaleQ := c.scaleQ.drop 1 }).stageEmit k f h skew, true)
      | .emit h false skew => ((s.putCluster k c).stageEmit k f h skew, true)
      | .skews h => ((s.putCluster k c).stageSkew k f 1 (some h), true)
      | .waits => ((s.markLate f.inst).putCluster k { c with waitSince := some (c.waitSince.getD s.now) }, false)

/-- Up to `n` tokens of the stage in one cycle. -/
def State.stageRun (s : State) (k : Nat) : Nat → State
  | 0 => s
  | n + 1 => match s.stageHead k with
    | (s, true) => s.stageRun k n
    | (s, false) => s

/-- RESCALE_STAGE: one cycle of the stage of a cluster (R110), which takes its tokens once a cycle. -/
def State.rescaleStage (s : State) (k : Nat) : State :=
  if s.regionLive (k / 64) = false ∨ s.usedNow (useKey 8 k) = true then s
  else
    let t := s.stageRun k 16
    if (t.cluster k).stage.length = (s.cluster k).stage.length then t else t.use (useKey 8 k)

/-- The tokens of a stage that wait in this cycle for a scale: the head, and every later one that is due behind it (R113). -/
def State.stageWaits (s : State) (k : Nat) : List Final :=
  let c := s.cluster k
  match c.stage with
  | [] => []
  | f :: _ =>
    if s.now < f.ready ∨ s.regionLive (k / 64) = false then []
    else if s.stageStep k (c.meet f) f = .waits then c.stage.filter (fun g => decide (g.ready ≤ s.now)) else []

/-- SCALE_WAIT_TIMEOUT: 64 cycles without a scale token. -/
def State.scaleTimeout (s : State) (k : Nat) : State :=
  let c := s.cluster k
  match c.stage, c.waitSince with
  | f :: _, some t =>
    if (s.scaleHead c).isNone ∧ t + 64 ≤ s.now ∧ s.regionLive (k / 64) = true then s.stageSkew k f 0 none else s
  | _, _ => s

/-- RESCALE_STAGE (R110). -/
def execRescaleStage (region cluster : Nat) (s : State) : Host.Outcome State Fault Refusal :=
  .next (s.only (.rescaleStage region cluster) (s.rescaleStage (64 * region + cluster)))
/-- SCALE_WAIT_TIMEOUT (R112). -/
def execScaleWaitTimeout (region cluster : Nat) (s : State) : Host.Outcome State Fault Refusal :=
  .next (s.only (.scaleWaitTimeout region cluster) (s.scaleTimeout (64 * region + cluster)))

end Sys2Proof.Machine
end

