-- ==== Sys2Proof/Machine/Fabric.lean ====
section
/-! DEFINITION. Transfers: cluster switches (R158 to R165), the die fabric (R215 to R219), crossings (R37, R220), the die
bridge (R35, R221, R486), the memory slot frame (R222 to R226, R382, R483 to R485), side buffers (R120, R737). -/

namespace Sys2Proof.Machine

/-- Tokens that a crossing, a bridge channel or a scale queue holds (R110, R220, R221). -/
def pathDepth : Nat := 16

/-! ### Edge ports (R27, R216, R279, R367) -/

/-- Boundary cluster of port `n` of side `side`: 0 north, 1 east, 2 south, 3 west. -/
def edgeCluster (side n : Nat) : Nat := match side with | 0 => n | 1 => 8 * n + 7 | 2 => 56 + n | _ => 8 * n

/-- Endpoint code of an edge port of physical region `r`. -/
def edgeEp (r side n : Nat) : Nat := 32 * (r % 8) + 8 * side + n

/-- Record that a token crossed edge port `port` of region `r`: direction 0 in, 1 out. -/
def State.recordSig (s : State) (r port dir : Nat) (h : Held) : State :=
  let key := 64 * s.field (aLat r 0) 15 0 + 2 * port + dir
  s.mapInst h.inst (fun x => { x with sigs := mapSet x.sigs key (mapGetD x.sigs key [] ++ sigBytes h.tok) })

/-- Side input of a cluster: 0 north, 1 east, 2 south, 3 west. -/
def ClusterState.side (c : ClusterState) (d : Nat) : List Held :=
  match d with | 0 => c.sideN | 1 => c.sideE | 2 => c.sideS | _ => c.sideW
/-- Replace a side input. -/
def ClusterState.setSide (c : ClusterState) (d : Nat) (h : List Held) : ClusterState :=
  match d with
  | 0 => { c with sideN := h } | 1 => { c with sideE := h } | 2 => { c with sideS := h } | _ => { c with sideW := h }

/-- What lies on side `d` of cluster key `k`: the neighbouring cluster's key, or the number of the edge port. -/
def neighbour (k d : Nat) : Nat ⊕ Nat :=
  let row := k % 64 / 8
  let col := k % 8
  match d with
  | 0 => if row = 0 then .inr col else .inl (k - 8)
  | 1 => if col = 7 then .inr row else .inl (k + 1)
  | 2 => if row = 7 then .inr col else .inl (k + 8)
  | _ => if col = 0 then .inr row else .inl (k - 1)

/-! ### The cluster switch (R158 to R161) -/

/-- Entries of source `src` of cluster key `k` in frame cycle `f`: index and word. -/
def State.switchEntries (s : State) (k f src : Nat) : List (Nat × Nat) :=
  (List.range 8).filterMap (fun l =>
    let i := 8 * f + l
    let w := (s.reg (aSwSlot k i)).toNat
    if w.testBit 31 && decide (bitsOf w 30 25 = src) then some (i, w) else none)

/-! ### Slots that wait (R161, R218) -/

/-- Note that a slot waits. -/
def State.putWait (s : State) (key : Nat) (w : SlotWait) : State := { s with lat := { s.lat with waits := mapSet s.lat.waits key w } }
/-- It waits no longer. -/
def State.dropWait (s : State) (key : Nat) : State := { s with lat := { s.lat with waits := mapErase s.lat.waits key } }
/-- A token that has waited moves only with the destinations for which it waited. -/
def State.waitAllows (s : State) (key : Nat) (dsts : List Nat) : Bool :=
  match mapGet s.lat.waits key with | some w => decide (w.dsts = dsts) | none => true

/-- Destinations of switch entries, in one order; a row of cluster SRAM counts with its bank and row. -/
def switchDsts (es : List (Nat × Nat)) : List Nat :=
  sortBy id (es.map (fun e => if bitsOf e.2 24 18 = 81 then bitsOf e.2 24 4 else bitsOf e.2 24 18 * 2 ^ 14))

/-- Key of the wait of a switch source. -/
def switchKey (k src : Nat) : Nat := 64 * k + src

/-- Side input `d` of cluster key `k` can take a token in frame cycle `f`: it is empty, or its own token moves in this cycle, as
`go` says of each destination of that token (R160). -/
def State.sideTakes (s : State) (go : Nat → Bool) (k d f : Nat) : Bool :=
  match (s.cluster k).side d with
  | [] => true
  | [h] =>
    let es := s.switchEntries k f (41 + d)
    decide (h.since ≤ s.now) && !es.isEmpty && s.waitAllows (switchKey k (41 + d)) (switchDsts es)
      && es.all (fun e => go (bitsOf e.2 24 18))
  | _ => false

/-- Tokens on the way out by the path of an endpoint: in its crossing, and released and not yet moved (R220, R232). -/
def State.outCount (s : State) (key : Nat) : Nat :=
  (mapGetD s.lat.xOut key []).length + (mapGetD s.lat.fabIn key []).length

/-- Destination `dst` of cluster key `k` can take a token that moves in frame cycle `f` of the present cycle (R148, R160); `fuel`
bounds a run of side inputs each of which empties into the next. -/
def State.switchFree (s : State) : Nat → Nat → Nat → Nat → Bool
  | fuel, k, f, dst =>
    if dst < 80 then s.queueFree (32 * k + dst / 4) (dst % 4) (s.now + 1)
    else if dst = 80 then
      decide ((s.cluster k).scaleQ.length < pathDepth) && (s.cluster k).scaleQ.all (fun h => decide (h.since ≠ s.now + 1))
    else if dst = 81 then true
    else
      match neighbour k (dst - 82), fuel with
      | .inr n, _ => decide (s.outCount (512 * (k / 512) + edgeEp (k / 64) (dst - 82) n) < pathDepth)
      | .inl m, 0 => s.sideTakes (fun _ => true) m ((dst - 80) % 4) f
      | .inl m, n + 1 => s.sideTakes (fun t => s.switchFree n m f t) m ((dst - 80) % 4) f

/-- The unit or place that a destination feeds, as a physical address. -/
def feeds (k dst : Nat) : Nat := if dst < 80 then 32 * k + dst / 4 else if dst = 80 then 32 * k + 20 else 32 * k

/-- Schedule cycle of the transfer that entry `i` of cluster key `k` makes for an instance. -/
def State.switchSched (s : State) (k i : Nat) (x : Inst) : Nat := x.ingest + swOff (mapGetD s.lat.sched (aSwSlot k i) 0).toNat

/-- Put a token into the destination of slot entry `e` of cluster key `k`, `n` cycles late; `c` is the cycle. A token that
leaves the region passes its crossing from the later of its scheduled and its actual send cycle (R37). -/
def State.switchPut (s : State) (k : Nat) (e : Nat × Nat) (c n : Nat) (h : Held) : State :=
  let w := e.2
  let dst := bitsOf w 24 18
  let h := { h with since := max s.now h.since + n }
  if dst < 80 then s.deliver (32 * k + dst / 4) (dst % 4) h
  else if dst = 80 then s.deliverScale k h
  else if dst = 81 then
    { s with lat := { s.lat with
        rowWrites := s.lat.rowWrites ++ [⟨k, 512 * bitsOf w 17 13 + bitsOf w 12 4, h.tok, h.since + 1⟩] } }
  else
    let d := dst - 82
    match neighbour k d with
    | .inl m =>
      let x := s.cluster m
      s.putCluster m (x.setSide ((d + 2) % 4) (x.side ((d + 2) % 4) ++ [{ h with since := h.since + 1 }]))
    | .inr p =>
      let r := k / 64
      let key := 512 * (r / 8) + edgeEp r d p
      let s := s.recordSig r (8 * d + p) 1 h
      let t := match s.inst h.inst with | some x => s.switchSched k e.1 x | none => c
      let q := mapGetD s.lat.xOut key [] ++ [⟨h, max t (c + (h.since - s.now)) + 6, t + 6, 0⟩]
      { s with lat := { s.lat with xOut := mapPut s.lat.xOut key q [] } }

/-- A switch write reaches its row (R164): the row holds the token, its sideband and its parity. -/
def State.rowArrive (s : State) (w : RowWrite) : State :=
  let s := s.sramWrite w.cluster (32 * w.row) (leBytes 32 w.tok.payload.toNat)
  let bad := w.tok.par ^^^ payloadPar w.tok.payload
  let s : State := if bad = 0 then s
    else
      let m : AMap Bool := (List.range 32).foldl (fun m b =>
        if bad.toNat.testBit b then mapSet m (2 ^ 19 * w.cluster + 32 * w.row + b) true else m) s.lat.sramBad
      { s with lat := { s.lat with sramBad := m } }
  let key := 2 ^ 14 * w.cluster + w.row
  { s with lat := { s.lat with sideCol := mapSet s.lat.sideCol key w.tok.side, wrRows := mapSet s.lat.wrRows key true } }

/-- The switch writes that stand in their rows from the next cycle on (R160). -/
def State.rowsArrive (s : State) : State :=
  let s' : State := { s with lat := { s.lat with rowWrites := s.lat.rowWrites.filter (fun w => decide (s.now + 1 < w.at_)) } }
  (s.lat.rowWrites.filter (fun w => decide (w.at_ ≤ s.now + 1))).foldl State.rowArrive s'

/-- The head token of a switch source, if it stands there now and its port has sent none in this cycle (R154). -/
def State.switchHead (s : State) (k src : Nat) : Option Held :=
  let here := fun (l : List Held) => match l with | h :: _ => if h.since ≤ s.now then some h else none | [] => none
  if src < 20 then (if s.usedNow (useKey 1 (2 * (32 * k + src))) then none else here (s.unit (32 * k + src)).out0)
  else if src < 40 then
    (if s.usedNow (useKey 1 (2 * (32 * k + src - 20) + 1)) then none else here (s.unit (32 * k + src - 20)).out1)
  else if s.usedNow (useKey 9 (4 * k + (src - 41))) then none
  else here ((s.cluster k).side (src - 41))

/-- Take the head token of a switch source. -/
def State.switchPop (s : State) (k src : Nat) : State :=
  if src < 20 then
    let u := 32 * k + src
    (s.use (useKey 1 (2 * u))).putUnit u { s.unit u with out0 := (s.unit u).out0.drop 1 }
  else if src < 40 then
    let u := 32 * k + src - 20
    (s.use (useKey 1 (2 * u + 1))).putUnit u { s.unit u with out1 := (s.unit u).out1.drop 1 }
  else (s.use (useKey 9 (4 * k + (src - 41)))).putCluster k
    ((s.cluster k).setSide (src - 41) (((s.cluster k).side (src - 41)).drop 1))

/-! ### Bank cycles (R165) -/

/-- The unit that owns bank `b` of cluster key `k` (R164). -/
def bankUnit (k b : Nat) : Nat := 32 * k + (if b < 16 then b else 16 + (b - 16) / 4)

/-- The owning unit addresses its bank in cycle `t`: a MAC unit in the 36 bank reads of a standby fill (R168); a utility unit
that is at work in cycles that the spec does not name. UNVERIFIED: log entry 81. -/
def State.bankOwned (s : State) (k b t : Nat) : Bool :=
  let u := bankUnit k b
  let x := s.unit u
  let fill := match x.fillDone with | some e => !x.standbyOk && decide (t + 4 ≤ e ∧ e ≤ t + 39) | none => false
  if s.uKind u = 0 then fill
  else
    (fill || decide (x.lastFire = some t) || x.pipe.any (fun f => decide (t < f.done))
      || (match x.evalHold with | some (_, e) => decide (t < e) | none => false)) && Config.bankTaken (32 * k + b) t

/-- The first cycle from `t` on in which the owning unit leaves the bank to the switch, among the next `n`. -/
def State.bankFrom (s : State) (k b : Nat) : Nat → Nat → Nat
  | 0, t => t
  | n + 1, t => if s.bankOwned k b t then s.bankFrom k b n (t + 1) else t

/-- Cycles by which the access of slot entry word `w` waits for its bank, which serves one access a cycle. -/
def State.bankWait (s : State) (k w : Nat) : Nat :=
  let b := bitsOf w 17 13
  s.bankFrom k b 256 (max s.now (mapGetD s.lat.banks (32 * k + b) 0)) - s.now

/-- The access of entry word `w`, `n` cycles late, takes its bank cycle; each cycle of the wait is an interlock stall
(R161, R165). -/
def State.bankTake (s : State) (k w i n : Nat) : State :=
  let s : State := { s with lat := { s.lat with banks := mapSet s.lat.banks (32 * k + bitsOf w 17 13) (s.now + n + 1) } }
  if n = 0 then s else ((List.range n).foldl (fun s _ => s.stall (32 * k) i 3) s).markLate i

/-! ### Moves of the switch (R160, R161) -/

/-- Move a token from a source through the entries `es`, all together; a blocked source waits (R161). `key` is that of its wait,
`pop` says that the source gives it up. -/
def State.switchMove (s : State) (k f src key : Nat) (es : List (Nat × Nat)) (h : Held) (pop : Bool) : State × Bool :=
  let c := s.cycle (k / 512)
  let ds := switchDsts es
  if !s.waitAllows key ds then (s, false)
  else
    match es.find? (fun e => !s.switchFree 64 k f (bitsOf e.2 24 18)) with
    | some e => (s.putWait key ⟨3, k / 64, ds, feeds k (bitsOf e.2 24 18), h.inst⟩, false)
    | none =>
      let s := if pop then s.switchPop k src else s
      let s := s.dropWait key
      let u := feeds k (bitsOf ((es.headD (0, 0)).2) 24 18)
      let (s, bad) := s.cfgCheck u h.inst (es.map (fun e => aSwSlot k e.1))
      let h := if bad then { h with tok := { h.tok with side := sideAddTaint h.tok.side 1 } } else h
      let s := s.count (k / 512) 0x22 1 (s.occUnit (32 * k) h.inst)
      let dues := es.filterMap (fun e => (s.inst h.inst).map (s.switchSched k e.1))
      let s := if dues.any (fun t => decide (t < c)) then s.markLate h.inst else s
      let (s, n) := match es.find? (fun e => decide (bitsOf e.2 24 18 = 81)) with
        | some e => (s.bankTake k e.2 h.inst (s.bankWait k e.2), s.bankWait k e.2)
        | none => (s, 0)
      (es.foldl (fun s e => s.switchPut k e c n h) s, true)

/-- The instance that a cluster SRAM read of entry `e` serves now: the oldest of its program, due, and not yet served. -/
def State.sramServes (s : State) (k f : Nat) (e : Nat × Nat) : Option Inst :=
  let w := (mapGetD s.lat.sched (aSwSlot k e.1) 0).toNat
  let done := mapGetD s.lat.memServed (2 ^ 24 + 512 * k + e.1) 0
  s.seq.insts.find? (fun x => decide (s.regionPart (k / 64) = some x.part ∧ x.prog = swProg w ∧ done < x.id
    ∧ x.ingest + swOff w ≤ s.cycle (k / 512)) && slotServes f (swOff w) x.ingest)

/-- The row lies in the term hold of a reduce unit or the key buffer of a rank unit that has fired (R166). -/
def State.rowHeld (s : State) (k row : Nat) : Bool :=
  let u := bankUnit k (row / 512)
  let o := 32 * row - bankBase (uUnit u)
  (s.unit u).lastFire.isSome && (decide (s.uKind u = 4) || (decide (s.uKind u = 5) && decide (o < 0x2000)))

/-- The payload that a read of a cluster SRAM row gives, and whether its parity is wrong. Which bytes of a term hold or key buffer
hold which term the spec does not say. UNVERIFIED: log entry 102. -/
def State.rowPayload (s : State) (k row : Nat) : State × BitVec 256 × Bool :=
  if s.rowHeld k row then
    let (n, s) := s.nextFree
    (s, Config.holdRow n, false)
  else
    let (bs, bad) := s.sramRead k (32 * row) 32
    (s, BitVec.ofNat 256 (leNat bs), bad)

/-- The token that stands in a cluster SRAM row, and its parity checked (R164, R475, R481). -/
def State.sramToken (s : State) (k row i : Nat) : State × Held :=
  let (s, pay, bad) := s.rowPayload k row
  let side := mapGetD s.lat.sideCol (2 ^ 14 * k + row) 0
  let u := bankUnit k (row / 512)
  let wr := mapGetD s.lat.wrRows (2 ^ 14 * k + row) false
  let s := if bad then
      (if wr then s.rwFault (k / 512) (32 * row) u i
       else s.roFault (k / 512) 1 0 (2 ^ 14 * k + row) (32 * row) u (s.regionPart (k / 64)) i)
    else s
  let side := if bad then sideAddTaint side 1 else side
  let (n, s) := s.nextTok
  (s, ⟨⟨pay, payloadPar pay, side⟩, i, false, s.now, n⟩)

/-- Entries of a cluster switch have served an instance. -/
def State.switchNote (s : State) (k i : Nat) (es : List (Nat × Nat)) : State :=
  es.foldl (fun s e =>
    { s with lat := { s.lat with memServed := mapSet s.lat.memServed (2 ^ 24 + 512 * k + e.1) i } }) s

/-- A cluster SRAM read of the entries `g`, which name one row: delivery in the second cycle (R160), later where the bank is
taken (R165). -/
def State.sramRead1 (s : State) (k f : Nat) (g : List (Nat × Nat)) (e : Nat × Nat) : State :=
  match s.sramServes k f e with
  | none => s
  | some x =>
    let (s, h) := s.sramToken k (512 * bitsOf e.2 17 13 + bitsOf e.2 12 4) x.id
    let n := s.bankWait k e.2
    match s.switchMove k f 40 (2 ^ 24 + 512 * k + e.1) g { h with since := s.now + 1 + n } false with
    | (s, true) => (s.bankTake k e.2 x.id n).switchNote k x.id g
    | (s, false) => s

/-- Cluster SRAM reads of frame cycle `f`. Entries of one source form one multicast (R161); those that name different rows read
different tokens, and each row forms its own. DESIGN CHOICE: log entry 98. -/
def State.sramReads (s : State) (k f : Nat) : State :=
  let es := s.switchEntries k f 40
  let rows := es.foldl (fun (l : List Nat) e => let r := bitsOf e.2 17 4; if r ∈ l then l else l ++ [r]) []
  rows.foldl (fun s r =>
    match es.filter (fun e => decide (bitsOf e.2 17 4 = r)) with
    | [] => s
    | e :: g => s.sramRead1 k f (e :: g) e) s

/-- SWITCH_SLOT: the slot entries of source `src` of cluster key `k` in this frame cycle. Writes to rows are noted as served for
their instance (R393). -/
def State.switchSlot (s : State) (k src : Nat) : State :=
  let f := s.cycle (k / 512) % 64
  if !s.regionLive (k / 64) then s
  else if src = 40 then s.sramReads k f
  else
    let es := s.switchEntries k f src
    match es, s.switchHead k src with
    | _ :: _, some h =>
      match s.switchMove k f src (switchKey k src) es h true with
      | (s, true) => s.switchNote k h.inst (es.filter (fun e => decide (bitsOf e.2 24 18 = 81)))
      | (s, false) => s
    | _, _ => s

/-! ### Gauntlet engines (R120, R737) -/

/-- A PASS token reaches an engine of die `d`: the lowest candidate slot takes it. -/
def State.gauTake (s : State) (d e : Nat) (h : Held) : State :=
  match s.inst h.inst with
  | none => s
  | some x =>
    let lim := fun (l : Layer) => l.v * ceilDiv l.cIn 8
    let got := fun (l : Layer) => match l.work.find? (fun w => decide (w.inst = x.id)) with | some w => w.taken | none => 0
    match s.gau.layers.find? (fun p => decide (p.1 / 64 = d ∧ p.2.engine = e ∧ p.2.src = 0 ∧ p.2.part = x.part) && decide (got p.2 < lim p.2)) with
    | none => s
    | some (k, l) =>
      let per := ceilDiv l.cIn 8
      let n := got l
      let es := (payloadElems .int32 h.tok.payload).zipIdx.filterMap (fun v =>
        let j := 8 * (n % per) + v.2
        if j < l.cIn then some (n / per * l.cIn + j, BitVec.ofNat 32 v.1) else none)
      let bad := decide (h.tok.par ≠ payloadPar h.tok.payload)
      let s := if bad then
          s.fault d ⟨4, .taint, some x.part, Config.noUnit.toNat, false, Config.noDetail.toNat, x.stream, x.seq⟩ else s
      let t := sideTaint h.tok.side ||| (if bad then 1 else 0)
      (s.mapLayer k (mapWork x.id (fun w => { w with taken := n + 1, taint := w.taint ||| t }))).sideWrite k l x es

/-! ### The die fabric (R215 to R218) -/

/-- A valid entry of a die fabric slot table. -/
structure DfSlot where
  ch   : Nat
  dst  : Nat
  prog : Nat
  off  : Nat
  deriving DecidableEq, Repr

/-- A transfer that the schedule assigns to an instance: its cycle, the region whose slots make it, its destinations. -/
structure FabMove where
  cycle  : Nat
  region : Nat
  dsts   : List Nat
  deriving DecidableEq, Repr

/-- Valid entries of die `d` that name source `src`, on the bridge plane or on the others: region, frame cycle, entry. -/
def State.dfNamed (s : State) (d src : Nat) (br : Bool) : List (Nat × Nat × DfSlot) :=
  let lo := aDfSlot (8 * d) 0 0
  s.regs.filterMap (fun e =>
    if lo ≤ e.1 ∧ e.1 < lo + 0x10000 then
      let i := (e.1 - lo) % 0x2000 / 4
      let w := e.2.toNat
      let sw := (mapGetD s.lat.sched e.1 0).toNat
      if w.testBit 31 && decide (bitsOf w 30 22 = src) && (decide (16 ≤ i % 20) == br) then
        some (8 * d + (e.1 - lo) / 0x2000, i / 20, ⟨i % 20, bitsOf w 21 13, swProg sw, swOff sw⟩)
      else none
    else none)

/-- Entries of region `r` that name source `src` in frame cycle `f`: one multicast (R217). -/
def State.dfSlots (s : State) (r f src : Nat) (br : Bool) : List DfSlot :=
  (s.dfNamed (r / 8) src br).filterMap (fun e => if e.1 = r ∧ e.2.1 = f then some e.2.2 else none)

/-- Destinations of a multicast, in one order. -/
def dfDsts (es : List DfSlot) : List Nat := sortBy id (es.map (·.dst))

/-- The transfers from a source that the schedule assigns to instance `x`, in schedule order (R218, R277). -/
def State.fabPlan (s : State) (d src : Nat) (br : Bool) (x : Inst) : List FabMove :=
  let es := (s.dfNamed d src br).filter (fun e =>
    decide (e.2.2.prog = x.prog ∧ s.regionPart e.1 = some x.part ∧ s.regionMode e.1 ≠ 0) && slotServes e.2.1 e.2.2.off x.ingest)
  let l := es.foldl (fun (a : List (Nat × Nat × Nat)) e =>
    let k := (x.ingest + e.2.2.off, e.1, e.2.1)
    if a.any (fun b => decide (b.2 = k.2)) then a else a ++ [k]) []
  sortBy (·.cycle) (l.map (fun k =>
    ⟨k.1, k.2.1, dfDsts ((es.filter (fun e => decide (e.1 = k.2.1 ∧ e.2.1 = k.2.2))).map (·.2.2))⟩))

/-- Transit of a channel (R215). -/
def transit (ch : Nat) : Nat := if ch < 12 then 3 else if ch < 16 then 0 else 12

/-- Key of the bridge channel of a bridge entry of region `r`. -/
def bridgeKey (r ch : Nat) : Nat := 32 * (r / 8) + 4 * (r % 8) + (ch - 16)

/-- Key of the tokens that stand at source `src` of die `d`: a bridge port has those for its own die, and those that go on to the
other (`br`). -/
def fabQueue (d src : Nat) (br : Bool) : Nat := (if br then 4096 else 0) + 512 * d + src

/-- Memory port code. -/
def isMemPort (ep : Nat) : Bool := decide (0x130 ≤ ep ∧ ep < 0x170)
/-- Gauntlet port code. -/
def isGauPort (ep : Nat) : Bool := decide (0x100 ≤ ep ∧ ep < 0x110)
/-- Die-bridge port code. -/
def isBridgePort (ep : Nat) : Bool := decide (0x110 ≤ ep ∧ ep < 0x130)

/-- The next transfer of instance `x` from a source. -/
def State.fabNext (s : State) (d src : Nat) (br : Bool) (x : Inst) : Option FabMove :=
  ((s.fabPlan d src br x).drop (mapGetD x.moved (fabQueue d src br) 0)).head?

/-- The instance to which a source's head belongs and the transfer that is due for it: its own instance, or for a token off a
Wyile link the oldest one with its SEQ and such a transfer. DEDUCED: log entry 83. -/
def State.fabDue (s : State) (d src : Nat) (br : Bool) (h : Held) : Option (Inst × FabMove) :=
  let due := fun (x : Inst) => (s.fabNext d src br x).bind (fun m => if m.cycle ≤ s.cycle d then some (x, m) else none)
  if h.inst = 0 then
    s.seq.insts.findSome? (fun x => if x.seq % 4096 = (sideSeq h.tok.side).toNat then due x else none)
  else (s.inst h.inst).bind due

/-- The channel and the destination of an entry of region `r` can take a token in this cycle (R215, R216, R220, R221). A port
receives one token a cycle. UNVERIFIED: log entry 80. -/
def State.fabFree (s : State) (r : Nat) (e : DfSlot) : Bool :=
  let d := r / 8
  let key := 512 * d + e.dst
  let a := s.cycle d + transit e.ch
  let path := fun (l : List Passage) (t : Nat) => decide (l.length < pathDepth) && l.all (fun p => decide (p.rel ≠ t))
  !s.usedNow (useKey 3 (32 * r + e.ch)) &&
    (if 16 ≤ e.ch then decide ((mapGetD s.lat.bridge (bridgeKey r e.ch) []).length < pathDepth)
     else if isBridgePort e.dst then path (mapGetD s.lat.fabIn (fabQueue d e.dst true) []) a
     else if e.dst = 0x1E4 then true
     else path (mapGetD s.lat.xIn key []) (a + 6)
       && decide ((mapGetD s.lat.xIn key []).length + (mapGetD s.lat.inbox key []).length < pathDepth))

/-- A token reaches the sync-cell array of die `d` in cycle `a`: what regions send in one cycle is applied in increasing logical
region index (R46). -/
def State.syncPut (s : State) (d a r : Nat) (t : Token) : State :=
  let o : SyncOp := ⟨a, s.field (aLat r 0) 15 0, t⟩
  { s with lat := { s.lat with
      sync := mapSet s.lat.sync d (insertBy (fun v => 2 ^ 16 * v.cycle + v.lregion) o (mapGetD s.lat.sync d [])) } }

/-- Sync cells of die `d` on this package: 2,048 for each region that the die has (R2, R33). -/
def State.syncCells (s : State) (d : Nat) : Nat :=
  2048 * ((List.range 8).filter (fun r => !s.isFused (8 * d + r))).length

/-- What sync cell `c` of die `d` holds. UNVERIFIED: log entry 80. -/
def State.syncCell (s : State) (d c : Nat) : List Bool :=
  if c < s.syncCells d then
    Config.syncCell d c ((mapGetD s.lat.sync d []).map (fun o => (o.cycle, o.lregion, o.tok.payload)))
  else []

/-- Move a token by an entry of region `r`, in this cycle or scheduled for cycle `t`. UNVERIFIED: log entry 80. -/
def State.fabPut (s : State) (r t : Nat) (e : DfSlot) (h : Held) : State :=
  let d := r / 8
  let a := s.cycle d + transit e.ch
  let s := s.use (useKey 3 (32 * r + e.ch))
  let push := fun (m : AMap (List Passage)) (key : Nat) (p : Passage) => mapPut m key (mapGetD m key [] ++ [p]) []
  if 16 ≤ e.ch then { s with lat := { s.lat with bridge := push s.lat.bridge (bridgeKey r e.ch) ⟨h, a, a, e.dst⟩ } }
  else if isBridgePort e.dst then { s with lat := { s.lat with fabIn := push s.lat.fabIn (fabQueue d e.dst true) ⟨h, a, a, 0⟩ } }
  else if e.dst = 0x1E4 then s.syncPut d a r h.tok
  else { s with lat := { s.lat with xIn := push s.lat.xIn (512 * d + e.dst) ⟨h, a + 6, t + transit e.ch + 6, 0⟩ } }

/-- The unit address by which a fabric slot's stall is reported: the boundary cluster of an edge-port destination. -/
def fabFeeds (r dst : Nat) : Nat :=
  if dst < 0x100 then unitAddr (8 * (r / 8) + dst / 32) (edgeCluster (dst / 8 % 4) (dst % 8)) 0 else unitAddr r 0 0

/-- Key of the wait of a fabric source whose token is absent. -/
def fabWaitKey (r src : Nat) : Nat := 2 ^ 20 + 512 * r + src

/-- A slot of region `r` finds no token of a Wyile link where one is due: a late Wyile delivery, counted once (R250, R584). -/
def State.wylAbsent (s : State) (r src : Nat) (es : List DfSlot) : State :=
  let d := r / 8
  let due := s.seq.insts.findSome? (fun x =>
    (s.fabNext d src false x).bind (fun m => if m.cycle ≤ s.cycle d ∧ m.region = r then some (x, m) else none))
  match s.linkAt d src, due with
  | some _, some (x, m) =>
    if m.dsts ≠ dfDsts es ∨ (mapGet s.lat.waits (fabWaitKey r src)).isSome = true then s
    else ((s.addReg (aSeq d 0x30) 1).markLate x.id).putWait (fabWaitKey r src) ⟨8, r, m.dsts, fabFeeds r (m.dsts.headD 0), x.id⟩
  | _, _ => s

/-- The head of a source, present in this cycle and its port not yet used (R216). -/
def State.fabHead (s : State) (d src : Nat) (br : Bool) : Option (Passage × List Passage) :=
  match mapGetD s.lat.fabIn (fabQueue d src br) [] with
  | p :: rest =>
    if p.rel ≤ s.cycle d ∧ s.usedNow (useKey (if br then 6 else 4) (512 * d + src)) = false then some (p, rest) else none
  | [] => none

/-- The slot moves the head of its source for instance `x` by the transfer `m`. -/
def State.fabMove (s : State) (r src : Nat) (br : Bool) (es : List DfSlot) (x : Inst) (m : FabMove) (p : Passage)
    (rest : List Passage) : State :=
  let d := r / 8
  let f := s.cycle d % 64
  let q := fabQueue d src br
  let s := (s.use (useKey (if br then 6 else 4) (512 * d + src))).dropWait (fabWaitKey r src)
  let s : State := { s with lat := { s.lat with fabIn := mapPut s.lat.fabIn q rest [] } }
  let s := s.mapInst x.id (fun y => { y with moved := mapSet y.moved q (mapGetD y.moved q 0 + 1) })
  let (s, bad) := s.cfgCheck (fabFeeds r (m.dsts.headD 0)) x.id (es.map (fun e => aDfSlot r f e.ch))
  let h := { p.held with inst := x.id }
  let h := if bad then { h with tok := { h.tok with side := sideAddTaint h.tok.side 1 } } else h
  let o := s.occUnit (unitAddr r 0 0) x.id
  es.foldl (fun s e => ((s.count d 0x23 1 o).fabPut r m.cycle e h).doOp x.id d m.cycle) s

/-- The entries of region `r` on one side of a source, in this frame cycle: they move the head that the schedule assigns to these
destinations, all together; a token that has missed its slot takes the next with the same destinations (R218). -/
def State.fabGroup (s : State) (r src : Nat) (br : Bool) : State :=
  let d := r / 8
  let es := s.dfSlots r (s.cycle d % 64) src br
  if es.isEmpty then s
  else
    match s.fabHead d src br with
    | none => s.wylAbsent r src es
    | some (p, rest) =>
      match s.fabDue d src br p.held with
      | none => s
      | some (x, m) =>
        if m.region = r ∧ m.dsts = dfDsts es ∧ es.all (s.fabFree r) = true then s.fabMove r src br es x m p rest else s

/-- FABRIC_SLOT: the entries of region `r` that name source `src` in this frame cycle. DEDUCED: log entry 83. -/
def State.fabricSlot (s : State) (r src : Nat) : State :=
  if s.regionLive r then (s.fabGroup r src false).fabGroup r src true else s

/-- The head of a source waits in this cycle: it is due and no slot of the cycle can move it. The region whose slot it waits for,
the unit fed, the instance (R218, R231, R253). -/
def State.fabHeld (s : State) (d src : Nat) (br : Bool) : Option (Nat × Nat × Nat) :=
  match s.fabHead d src br with
  | none => none
  | some (p, _) =>
    (s.fabDue d src br p.held).bind (fun e =>
      let m := e.2
      let es := s.dfSlots m.region (s.cycle d % 64) src br
      if s.regionLive m.region = false ∨ (!es.isEmpty && decide (m.dsts = dfDsts es) && es.all (s.fabFree m.region)) = true then none
      else some (m.region, fabFeeds m.region (m.dsts.headD 0), e.1.id))

/-! ### Crossings (R37, R220) -/

/-- Hold the next token of a path at least until cycle `c`. -/
def bumpHead (c : Nat) : List Passage → List Passage
  | [] => []
  | p :: l => { p with rel := max p.rel c } :: l

/-- A passage that completes after its release cycle: counted late (R37, R250). -/
def State.latePassage (s : State) (d c : Nat) (p : Passage) : State :=
  if c ≤ p.rel then s else (s.addReg (aSeq d 0x24) 1).markLate p.held.inst

/-- A token is released into the island of endpoint `ep`. -/
def State.crossIn (s : State) (d ep c : Nat) (p : Passage) : State :=
  if ep < 0x100 then
    let r := 8 * d + ep / 32
    let side := ep / 8 % 4
    let n := ep % 8
    let s := s.recordSig r (8 * side + n) 0 p.held
    let h := { p.held with since := s.now }
    if s.regionMode r = 2 ∧ side = 3 then s.latticeIn r n h
    else
      let k := 64 * r + edgeCluster side n
      let l := (s.cluster k).side side
      let h := if l.isEmpty then h else { h with since := s.now + 1 }
      s.putCluster k ((s.cluster k).setSide side (l ++ [h]))
  else if isOutput ep then s.releaseResult d ep p.due p.held
  else if isGauPort ep then s.gauTake d ((ep - 0x100) / 4) p.held
  else
    let key := 512 * d + ep
    { s with lat := { s.lat with inbox := mapPut s.lat.inbox key (mapGetD s.lat.inbox key [] ++ [{ p with rel := c }]) [] } }

/-- The island of an endpoint can take a token now. DEDUCED: log entry 83. -/
def State.islandFree (s : State) (d ep : Nat) : Bool :=
  if ep < 0x100 then
    let r := 8 * d + ep / 32
    let side := ep / 8 % 4
    let k := 64 * r + edgeCluster side (ep % 8)
    let f := s.cycle d % 64
    s.regionLive r && (decide (s.regionMode r = 2 ∧ side = 3) || s.sideTakes (fun t => s.switchFree 64 k f t) k side f)
  else true

/-- A port of lower number of the same gauntlet engine has a token to release in this cycle: it goes first (R737). -/
def State.lowerPort (s : State) (d ep : Nat) : Bool :=
  isGauPort ep && (List.range (ep % 4)).any (fun n =>
    match mapGetD s.lat.xIn (512 * d + ep - ep % 4 + n) [] with
    | p :: _ => decide (p.rel ≤ s.cycle d) && s.instLive p.held.inst
    | [] => false)

/-- Key of the wait of a crossing. -/
def crossWaitKey (key : Nat) : Nat := 2 ^ 25 + key

/-- The head of the path into the island of endpoint `ep` is released, or waits for room there, an interlock of its region.
DEDUCED: log entry 83. -/
def State.crossingIn (s : State) (d ep : Nat) (p : Passage) (rest : List Passage) : State :=
  let key := 512 * d + ep
  let c := s.cycle d
  if s.lowerPort d ep then s
  else if !s.islandFree d ep then
    let s : State := { s with lat := { s.lat with xIn := mapPut s.lat.xIn key (bumpHead (c + 1) (p :: rest)) [] } }
    s.putWait (crossWaitKey key) ⟨5, 8 * d + ep / 32 % 8, [ep], fabFeeds (8 * d) ep, p.held.inst⟩
  else
    let s := (s.latePassage d c p).dropWait (crossWaitKey key)
    let s : State := { s with lat := { s.lat with xIn := mapPut s.lat.xIn key (bumpHead (c + 1) rest) [] } }
    s.crossIn d ep c p

/-- The head of the path out of the island of endpoint `ep` is released onto the fabric. -/
def State.crossingOut (s : State) (d ep : Nat) (p : Passage) (rest : List Passage) : State :=
  let key := 512 * d + ep
  let c := s.cycle d
  let s := s.latePassage d c p
  { s with lat := { s.lat with
      xOut := mapPut s.lat.xOut key (bumpHead (c + 1) rest) []
      fabIn := mapPut s.lat.fabIn key (mapGetD s.lat.fabIn key [] ++ [{ p with rel := c }]) [] } }

/-- CROSSING_RELEASE: the head of the path into or out of the island of endpoint `ep`. -/
def State.crossingRelease (s : State) (d ep : Nat) (inward : Bool) : State :=
  match mapGetD (if inward then s.lat.xIn else s.lat.xOut) (512 * d + ep) [] with
  | [] => s
  | p :: rest =>
    if s.cycle d < p.rel ∨ s.instLive p.held.inst = false ∨ (inward = false ∧ s.dead d = true) then s
    else if inward then s.crossingIn d ep p rest else s.crossingOut d ep p rest

/-! ### The die bridge (R35, R221, R486) -/

/-- BRIDGE_RELEASE: the head of channel `ch` of sending die `d`; `ecc` is 1 for a corrected error, 2 for a detected one. -/
def State.bridgeRelease (s : State) (d ch ecc : Nat) : State :=
  let dst := 1 - d
  let c := s.cycle dst
  let b := 32 * d + ch
  match mapGetD s.lat.bridge b [] with
  | [] => s
  | p :: rest =>
    if c < p.rel ∨ s.instLive p.held.inst = false then s
    else
      let r := 8 * d + ch / 4
      let s := if p.rel < c then (s.addReg (aSeq dst 0x28) 1).markLate p.held.inst else s
      let s := if ecc = 1 then s.bucketAdd dst 4 1 else s
      let (s, h) := if ecc = 2 then
          let (st, sq) := s.instEvent p.held.inst
          (s.fault dst ⟨7, .taint, s.regionPart r, Config.noUnit.toNat, false, ch, st, sq⟩,
           ({ p.held with tok := { p.held.tok with side := sideAddTaint p.held.tok.side 1 } } : Held))
        else (s, p.held)
      let key := 512 * dst + p.src
      { s with lat := { s.lat with
          bridge := mapPut s.lat.bridge b (bumpHead (c + 1) rest) []
          fabIn := mapPut s.lat.fabIn key (mapGetD s.lat.fabIn key [] ++ [⟨h, c, c, 0⟩]) [] } }

/-! ### Memory slots (R224, R226, R280 to R282, R382, R483 to R485) -/

/-- Byte of a slot's address in its stack for an instance; none where its space has no place for it. -/
def State.memAddr (s : State) (x : Inst) (im : Loaded) (a : Nat) : Option Nat :=
  let p := s.part x.part
  if im.kind ≠ 1 then some (partBase p + 32 * a)
  else
    let rec_ : Option (Deep × DeepInst × Nat) := match mapGet s.deep x.part with
      | some dp => match dp.pass with
        | some ps => (ps.insts.zipIdx.find? (fun e => decide (e.1.inst = x.id))).map (fun e => (dp, e.1, e.2))
        | none => none
      | none => none
    match a / 2 ^ 30, rec_ with
    | 0, _ => some (partBase p + 32 * (a % 2 ^ 30))
    | 1, some (_, _, j) =>
      (im.sect (a / 2 ^ 24 % 64)).map (fun r => partBase p + secBase r + j * secLen r + 32 * (a % 2 ^ 24))
    | 2, some (dp, e, _) => some (partBase p + 64 * (dp.par.rqBase + dp.par.rqSlot * e.rcd.slot) + 32 * (a % 2 ^ 24))
    | 3, some (dp, e, _) => some (deepSlot p dp e.slot + 32 * (a % 2 ^ 24))
    | _, _ => none

/-- The word MEM_ERR_INFO records: CAUSE, LANE and FRAME of a memory read error. -/
def memErrInfo (e : MemErr) (lane frame : Nat) : Nat :=
  (match e with | .uncorrectable => 1 | .both => 2 | _ => 0) * 2 ^ 29 + lane * 2 ^ 24 + frame * 2 ^ 12

/-- The key of the 32-byte unit at `byte` of a controller's stack among the damaged units. -/
def memErrKey (d ctrl byte : Nat) : Nat := 2 ^ 31 * (2 * d + ctrl) + byte / 32

/-- Count an uncorrectable memory error and record the first one, with its address (R506); `o` orders those of one cycle. -/
def State.memErrFirst (s : State) (d ctrl info byte o : Nat) : State :=
  (s.addReg (aMem d (0x100 * ctrl + 8)) 1).firstRecord (aMem d (0x100 * ctrl + 0xC)) info o
    [(aMem d (0x100 * ctrl + 0x10), byte), (2 ^ 28 + 2 * d + ctrl, byte)]

/-- Classify a read of one 32-byte unit (R483, R484, R506): tainted or not. DEDUCED: log entry 51. -/
def State.memCheck (s : State) (d ctrl lane frame byte : Nat) (p : Option Nat) (i : Nat) : State × Bool :=
  let key := memErrKey d ctrl byte
  match mapGet s.flt.memBad key with
  | none => (s, false)
  | some .corrected => ((s.bucketAdd d 1 1).addReg (aMem d (0x100 * ctrl + 4)) 1, false)
  | some e =>
    let ev := s.instEvent i
    let s := s.memErrFirst d ctrl (memErrInfo e lane frame) byte (firstOrder 0 ev.1 ev.2)
    let s := s.fault d ⟨6, .taint, p, ctrl, false, byte / 32, ev.1, ev.2⟩
    ({ s with flt := { s.flt with memBad := mapSet s.flt.memBad key (if e = .uncorrectable then .both else e) } }, true)

/-- The slots of a controller's lane on a die that are due for an instance by cycle `t`: region, index in its list, slot, instance,
scheduled cycle. -/
def State.memDues (s : State) (d ctrl lane : Nat) (write : Bool) (t : Nat) : List (Nat × Nat × MemSlot × Inst × Nat) :=
  (List.range 8).foldl (fun l n =>
    let r := 8 * d + n
    l ++ (mapGetD s.lat.memSlots r []).zipIdx.filterMap (fun e =>
      let m := e.1
      if m.ctrl = ctrl ∧ m.lane = lane ∧ m.write = write ∧ s.regionOn r = true then
        let done := mapGetD s.lat.memServed (65536 * r + e.2) 0
        let at_ := fun (x : Inst) => x.ingest + swOff m.sched.toNat
        (s.seq.insts.find? (fun x => decide (s.regionPart r = some x.part ∧ x.prog = swProg m.sched.toNat ∧ done < x.id
          ∧ at_ x ≤ t ∧ at_ x % 4096 = m.cycle))).map (fun x => (r, e.2, m, x, at_ x))
      else none)) []

/-- The oldest of them. -/
def State.memDue (s : State) (d ctrl lane : Nat) (write : Bool) (t : Nat) : Option (Nat × Nat × MemSlot × Inst × Nat) :=
  (sortBy (fun e => e.2.2.2.2) (s.memDues d ctrl lane write t)).head?

/-- Endpoint of a slot lane. -/
def memEp (ctrl lane : Nat) : Nat := 0x130 + 0x20 * ctrl + lane

/-- Note the instance served by a memory slot. -/
def State.memNote (s : State) (r j i : Nat) : State :=
  { s with lat := { s.lat with memServed := mapSet s.lat.memServed (65536 * r + j) i } }

/-- A read of one unit of stacked memory as a token of an instance. Config gives the sideband fields that the spec does not. UNVERIFIED: log entry 28. -/
def State.memToken (s : State) (d ctrl lane r frame byte : Nat) (x : Inst) : State × Held :=
  let (s, bad) := s.memCheck d ctrl lane frame byte (some x.part) x.id
  let pay := BitVec.ofNat 256 (leNat (s.stackRead (2 * d + ctrl) byte 32))
  let (n, s) := s.nextFree
  let v := (Config.memSide n).toNat
  let side := sideOf (bitsOf v 27 25 % 7) (v.testBit 24) (if bad then 1 else 0) (BitVec.ofNat 8 (bitsOf v 21 14))
    (BitVec.ofNat 2 (s.regionEpoch r)) (BitVec.ofNat 12 x.seq)
  let par := payloadPar pay
  let (k, s) := s.nextTok
  (s, ⟨⟨pay, if bad then ~~~par else par, side⟩, x.id, false, s.now, k⟩)

/-- MEMORY_READ_RELEASE: the oldest token that read slots of 128 cycles ago or earlier owe reaches its port; one that comes later
than the 128 cycles is late (R226, R250). DEDUCED: log entry 84. -/
def State.memReadSlot (s : State) (d ctrl lane : Nat) : State :=
  let c := s.cycle d
  let ep := 512 * d + memEp ctrl lane
  if c < 128 ∨ s.usedNow (useKey 10 ep) = true then s
  else
    match s.memDue d ctrl lane false (c - 128) with
    | none => s
    | some (r, j, m, x, t) =>
      match (s.part x.part).image with
      | none => s
      | some im =>
        match s.memAddr x im m.addr with
        | none => s
        | some byte =>
          let (s, h) := (s.use (useKey 10 ep)).memToken d ctrl lane r m.cycle byte x
          let s := if t + 128 < c then (s.addReg (aSeq d 0x2C) 1).markLate x.id else s
          let s : State := { s with lat := { s.lat with
            fabIn := mapPut s.lat.fabIn ep (mapGetD s.lat.fabIn ep [] ++ [⟨h, c, c, 0⟩]) [] } }
          let s := (s.memNote r j x.id).count d 0x60 1 (s.occUnit (unitAddr r 0 0) x.id)
          s.doOp x.id d (t + 128)

/-- The token at the head of a controller's port is the instance's and has been there long enough (R226). -/
def State.memWaits (s : State) (d ctrl lane : Nat) (x : Inst) : Bool :=
  match mapGetD s.lat.inbox (512 * d + memEp ctrl lane) [] with
  | p :: _ => decide (p.rel ≤ s.cycle d ∧ p.held.inst = x.id)
  | [] => false

/-- MEMORY_WRITE_SLOT: a write slot takes the token delivered to its port; one that has missed its slot takes the next of the same
frame cycle. -/
def State.memWriteSlot (s : State) (d ctrl lane : Nat) : State :=
  let c := s.cycle d
  let ep := 512 * d + memEp ctrl lane
  match (s.memDues d ctrl lane true c).find? (fun e => decide (e.2.2.1.cycle = c % 4096) && s.memWaits d ctrl lane e.2.2.2.1) with
  | none => s
  | some (r, j, m, x, t) =>
    match mapGetD s.lat.inbox ep [], (s.part x.part).image with
    | p :: rest, some im =>
      match s.memAddr x im m.addr with
      | none => s
      | some byte =>
        let s : State := { s with lat := { s.lat with inbox := mapPut s.lat.inbox ep rest [] } }
        let s := s.stackWrite (2 * d + ctrl) byte (leBytes 32 p.held.tok.payload.toNat)
        let s : State := if p.held.tok.par = payloadPar p.held.tok.payload then s
          else { s with flt := { s.flt with memBad := mapSet s.flt.memBad (2 ^ 31 * (2 * d + ctrl) + byte / 32) .parity } }
        let s := (s.memNote r j x.id).count d 0x61 1 (s.occUnit (unitAddr r 0 0) x.id)
        let s := if im.kind = 1 ∧ m.addr / 2 ^ 30 = 3 then s.countRelease d (memEp ctrl lane) 0 x p.held.tok else s
        s.doOp x.id d t
    | _, _ => s

/-! ### Rows -/

/-- SWITCH_SLOT (R161). -/
def execSwitchSlot (region cluster src : Nat) (s : State) : Host.Outcome State Fault Refusal :=
  .next (s.only (.switchSlot region cluster src) (s.switchSlot (64 * region + cluster) src))
/-- FABRIC_SLOT (R218). -/
def execFabricSlot (die region src : Nat) (s : State) : Host.Outcome State Fault Refusal :=
  .next (s.only (.fabricSlot die region src) (s.fabricSlot (8 * die + region) src))
/-- CROSSING_RELEASE (R37, R220). -/
def execCrossingRelease (die ep : Nat) (inward : Bool) (s : State) : Host.Outcome State Fault Refusal :=
  .next (s.only (.crossingRelease die ep inward) (s.crossingRelease die ep inward))
/-- BRIDGE_RELEASE (R35). -/
def execBridgeRelease (die ch ecc : Nat) (s : State) : Host.Outcome State Fault Refusal :=
  .next (s.only (.bridgeRelease die ch ecc) (s.bridgeRelease die ch ecc))
/-- MEMORY_READ_RELEASE (R226). -/
def execMemoryReadRelease (die ctrl lane : Nat) (s : State) : Host.Outcome State Fault Refusal :=
  .next (s.only (.memoryReadRelease die ctrl lane) (s.memReadSlot die ctrl lane))
/-- MEMORY_WRITE_SLOT (R226). -/
def execMemoryWriteSlot (die ctrl lane : Nat) (s : State) : Host.Outcome State Fault Refusal :=
  .next (s.only (.memoryWriteSlot die ctrl lane) (s.memWriteSlot die ctrl lane))

end Sys2Proof.Machine
end

