-- ==== Sys2Proof/Machine/Gauntlet.lean ====
section
/-! DEFINITION. Wide runs and merge points of the gauntlet lane (R120 to R128), SCHEDULE_HANG (R234). -/

namespace Sys2Proof.Machine

/-- W_min of a layer (R126). -/
def Layer.wMin (l : Layer) : Nat := 8 + l.v * ceilDiv l.cIn 64 * ceilDiv l.cOut 64 + 16 + 6

/-- The layer has a run under way. -/
def Layer.running (l : Layer) : Bool := l.work.any (fun w => w.runEnds.isSome && w.wide.isNone)

/-- The engine of layer `k` runs a trip (R127). -/
def State.engineBusy (s : State) (k : Nat) (l : Layer) : Bool :=
  s.gau.layers.any (fun e => decide (e.1 / 64 = k / 64 ∧ e.2.engine = l.engine) && e.2.running)

/-- GAU_ENG_STATUS of an engine of die `d`. -/
def aEng (d e : Nat) : Nat := aGau d (4 * e)

/-- The oldest accepted trip of a layer that has reached its window start and not begun its run. -/
def State.tripDue (s : State) (l : Layer) : Option LayerWork :=
  if partLive (s.part l.part) then
    l.work.find? (fun w => w.accepted && w.runEnds.isNone && (match w.window with | some c => decide (c ≤ s.now) | none => false))
  else none

/-- The run of layer slot `k` fetches the wide inputs that writes of its own event have reached; a faulty entry taints it (R120,
R128). -/
def State.sideFetch (s : State) (k : Nat) (l : Layer) (w : LayerWork) : State :=
  match s.inst w.inst with
  | none => s
  | some x =>
    let bad := w.inputs.any (fun e => mapGetD s.flt.sideBad (s.sideAddr k l x e.1 / 4) false)
    let s := if bad then
        s.fault (k / 64) ⟨4, .taint, some l.part, Config.noUnit.toNat, false, Config.noDetail.toNat, x.stream, x.seq⟩ else s
    s.mapLayer k (mapWork w.inst (fun w => { w with fetched := w.inputs, taint := if bad then w.taint ||| 1 else w.taint }))

/-- GAUNTLET_RUN: the oldest accepted trip of a layer slot starts on its engine, or waits for it. -/
def State.gauntletRun (s : State) (k : Nat) : State :=
  match mapGet s.gau.layers k with
  | none => s
  | some l =>
    match s.tripDue l with
    | none => s
    | some w =>
      if s.engineBusy k l then s
      else
        let bank := match s.inst w.inst with | some x => s.bankOf x | none => 0
        let s := s.setReg (aEng (k / 64) l.engine) (BitVec.ofNat 32 (2 ^ 31 + bank * 2 ^ 30 + k % 64 * 2 ^ 16))
        (s.sideFetch k l w).mapLayer k (mapWork w.inst (fun w => { w with runEnds := some (s.now + l.wMin) }))

/-- The rescale entry of output channel `j` of a layer for an instance: the channels follow the final accumulations in the order of
`layerFinals`. DESIGN CHOICE: log entry 99. -/
def State.layerEntry (s : State) (l : Layer) (i j : Nat) : BitVec 128 :=
  match (s.layerFinals l).drop (j / 16) with
  | (u, k) :: _ => mapGetD s.lat.rescale (s.rescaleKey (uKey u) i (operandEntry (s.operand u k) (j % 16))) 0
  | [] => 0

/-- Base of a layer's weights in the wide-weight store for bank `b` of die `d`. -/
def wideBase (d b : Nat) (l : Layer) : Nat := 2 ^ 23 * (4 * d + l.engine) + 2 ^ 22 * b + l.wtBase

/-- Wide results of one channel for all vectors (R123). -/
def State.wideColumn (s : State) (k b : Nat) (l : Layer) (w : LayerWork) (j : Nat) : List (Nat × BitVec 16) × List Cond :=
  let e := s.layerEntry l w.inst j
  if reMode e ≠ 0 ∧ reMode e ≠ 1 then ([], [])
  else
    let a := wideBase (k / 64) b l
    let ws := (List.range l.cIn).map (fun i => leNat (memRead s.gau.wide (a + 2 * (l.cOut * i + j)) 2))
    let bias := BitVec.ofNat 32 (leNat (memRead s.gau.wide (a + 2 * l.cIn * l.cOut + 4 * j) 4))
    let eo := signedOf 6 (if b = 0 then l.eOut0 else l.eOut1).toNat
    (List.range l.v).foldl (fun acc v =>
      let xs := (List.range l.cIn).map (fun i => (mapGetD w.fetched (v * l.cIn + i) 0).toInt)
      let r := wideChannel xs ws bias eo e
      (acc.1 ++ [(v * l.cOut + j, BitVec.ofInt 16 r.1)], acc.2 ++ r.2)) ([], [])

/-- The run of a layer's work ends: the wide result stands (R123, R128). DEDUCED: log entry 82. -/
def State.wideResult (s : State) (k : Nat) (l : Layer) (w : LayerWork) : State :=
  let b := match s.inst w.inst with | some x => s.bankOf x | none => 0
  let r := (List.range l.cOut).foldl (fun (acc : AMap (BitVec 16) × List Cond) j =>
    let c := s.wideColumn k b l w j
    (c.1.foldl (fun m e => mapSet m e.1 e.2) acc.1, acc.2 ++ c.2)) ([], [])
  let lo := wideBase (k / 64) b l / 32
  let hi := (wideBase (k / 64) b l + 2 * l.cIn * l.cOut + 4 * l.cOut + 31) / 32
  let rows := s.flt.wideBad.filter (fun e => decide (lo ≤ e.1 ∧ e.1 < hi))
  let s := rows.foldl (fun s e =>
    s.roFault (k / 64) 1 4 e.1 Config.noDetail.toNat Config.noUnit.toNat (some l.part) w.inst) s
  let s := s.addReg (aScl (uRegion l.merge / 8) (0x300 + 4 * (uRegion l.merge % 8)))
    (r.2.filter (fun c => decide (c = .rescaleClamp))).length
  let s := r.2.foldl (fun s c => s.count (k / 64) (condEvent c) 1 (s.occUnit l.merge w.inst)) s
  s.mapLayer k (mapWork w.inst (fun w => { w with
    wide := some r.1, narrow := condsFlags r.2, taint := if rows.isEmpty then w.taint else w.taint ||| 1 }))

/-- GAUNTLET_RUN_END: the engine's run has taken its W_min cycles. -/
def State.gauntletRunEnd (s : State) (d e : Nat) : State :=
  match s.gau.layers.find? (fun p => decide (p.1 / 64 = d ∧ p.2.engine = e) && p.2.running) with
  | none => s
  | some (k, l) =>
    match l.work.find? (fun w => w.wide.isNone && (match w.runEnds with | some t => decide (t ≤ s.now) | none => false)) with
    | none => s
    | some w => (s.wideResult k l w).setFlag (aEng d e) 31 false

/-- MERGE_RELEASE: W cycles after the window start the held narrow tokens go on, merged, one a cycle (R121, R124, R125, R148). -/
def State.mergeRelease (s : State) (k : Nat) : State :=
  match mapGet s.gau.layers k with
  | none => s
  | some l =>
    match l.work.find? (fun w => w.passed.isNone && (match w.window with | some c => decide (c + l.w ≤ s.now) | none => false)) with
    | none => s
    | some w =>
      if !partLive (s.part l.part) then s
      else if w.accepted ∧ w.wide.isNone then s.markLate w.inst
      else
        let s := s.raise w.inst (w.narrow ||| (if w.accepted then 0x10#16 else 0))
        let bits := elemBits (s.uFmt l.merge l.mqueue)
        let ts := w.held.zipIdx.map (fun h => { mergeTok l w bits h.2 h.1 with since := s.now + h.2 })
        let s := s.mapLayer k (fun l =>
          let l := mapWork w.inst (fun w => { w with held := [], passed := some w.held.length }) l
          { l with trip := if w.accepted then l.trip + 1 else l.trip })
        let x := s.unit l.merge
        s.putUnit l.merge (x.setQueue l.mqueue (ts.foldl (fun q h => queueInsert h q) (x.queue l.mqueue)))

/-- The oldest instance of partition `p` that can hang, and the cycle in which it should have released its last result (R234), or
completed its section (R396). -/
def State.hangDue (s : State) (p : Nat) (im : Loaded) : Option (Inst × Nat) :=
  if im.kind = 1 then
    let sec := match mapGet s.deep p with | some x => x.section_ | none => 0
    (s.seq.insts.find? (fun x => decide (x.part = p ∧ 0 < x.ops0 + x.ops1))).map (fun x => (x, x.ingest + im.span sec x.prog))
  else (s.oldestOf p).map (fun x => (x, x.lastDue))

/-- SCHEDULE_HANG: that instance has passed its cycle by more than the die's limit. -/
def State.scheduleHang (s : State) (d p : Nat) : State :=
  let lim := (s.reg (aSeq d 0x14)).toNat
  let pt := s.part p
  match pt.image.bind (s.hangDue p) with
  | some (x, t) =>
    if lim = 0 ∨ partOnDie pt d = false ∨ partLive pt = false ∨ s.cycle d ≤ t + lim
        ∨ s.flag (aFlt d 0) 30 = true then s
    else
      let s := s.fault d ⟨0xA, .stop, some p, Config.noUnit.toNat, false, p, x.stream, x.seq⟩
      (s.putPart p { pt with hung := true }).stopPartition p 2
  | none => s

/-- GAUNTLET_RUN (R127). -/
def execGauntletRun (die layer : Nat) (s : State) : Host.Outcome State Fault Refusal :=
  .next (s.only (.gauntletRun die layer) (s.gauntletRun (64 * die + layer)))
/-- GAUNTLET_RUN_END (R123, R127). -/
def execGauntletRunEnd (die engine : Nat) (s : State) : Host.Outcome State Fault Refusal :=
  .next (s.only (.gauntletRunEnd die engine) (s.gauntletRunEnd die engine))
/-- MERGE_RELEASE (R121). -/
def execMergeRelease (die layer : Nat) (s : State) : Host.Outcome State Fault Refusal :=
  .next (s.only (.mergeRelease die layer) (s.mergeRelease (64 * die + layer)))
/-- SCHEDULE_HANG (R234). -/
def execScheduleHang (die part : Nat) (s : State) : Host.Outcome State Fault Refusal :=
  .next (s.only (.scheduleHang die part) (s.scheduleHang die part))

end Sys2Proof.Machine
end

