-- ==== Sys2Proof/Machine/ImageChecks.lean ====
section
/-! DEFINITION. The checks of steps 3 to 5 of a LOAD on the records that serve the bound template (R246): unit, queue and
context rules, tables, slot tables, chains, slot timing. -/

namespace Sys2Proof.Machine

/-! ### UNIT records (R173 to R179, R272) -/

/-- Words of a UNIT record. -/
def ruCfg (r : ImgRec) : Nat := fieldLE r.body 0 4
def ruKind (r : ImgRec) : Nat := bitsOf (ruCfg r) 31 29
def ruTrim (r : ImgRec) : Nat := bitsOf (ruCfg r) 28 26
def ruNctx (r : ImgRec) : Nat := bitsOf (ruCfg r) 25 24
def ruLidx (r : ImgRec) : Nat := fieldLE r.body 4 4
def ruQ (r : ImgRec) : Nat := fieldLE r.body 8 4
/-- Format code and depth code of queue `q`. -/
def ruFmtC (r : ImgRec) (q : Nat) : Nat := bitsOf (ruQ r) (4 * q + 19) (4 * q + 16)
def ruFmt (r : ImgRec) (q : Nat) : ElemFmt := elemFmt (ruFmtC r q)
def ruUsed (r : ImgRec) (q : Nat) : Bool := decide (ruFmtC r q ≠ 15)
def ruDepth (r : ImgRec) (q : Nat) : Nat := if ruUsed r q then 4 * (bitsOf (ruQ r) (4 * q + 3) (4 * q) + 1) else 0
/-- Context words. -/
def ruA (r : ImgRec) (k : Nat) : Nat := fieldLE r.body (0x10 + 12 * k) 4
def ruB (r : ImgRec) (k : Nat) : Nat := fieldLE r.body (0x14 + 12 * k) 4
def ruC (r : ImgRec) (k : Nat) : Nat := fieldLE r.body (0x18 + 12 * k) 4
/-- Contexts of the unit. -/
def ruCtxs (r : ImgRec) : List Nat := List.range (ruNctx r + 1)
/-- Initiation interval of context `k`. DEDUCED: log entry 78. -/
def ruII (r : ImgRec) (k : Nat) : Nat := ctxII (ruKind r) (ruFmt r 0) (ruB r k)

/-- Queues and outputs that a kind uses (R150). -/
def kindQueues (k : Nat) : List Nat := match k with | 0 => [0, 1] | 1 => [0, 1, 3] | 4 => [0, 1] | 6 => [0, 1] | 7 => [] | _ => [0]
def kindOuts (k : Nat) : Nat := match k with | 0 => 3 | 1 => 3 | 7 => 0 | _ => 1

/-- Kind, queue and reserved-field rules of a UNIT record (R147, R150, R174 to R176). -/
def unitOk (r : ImgRec) : Bool :=
  decide (if r.unit < 16 then ruKind r = 0 ∨ ruKind r = 7 else ruKind r ≠ 0)
    && decide (bitsOf (ruCfg r) 22 0 = 0 ∧ bitsOf (ruLidx r) 31 27 = 0 ∧ fieldLE r.body 0xC 4 = 0)
    && decide (r.body.length = pad8 (16 + 12 * (ruNctx r + 1))) && allZero (r.body.drop (16 + 12 * (ruNctx r + 1)))
    && (List.range 4).all (fun q =>
      if ruUsed r q then decide (ruFmtC r q ≤ 10 ∧ q ∈ kindQueues (ruKind r)) else decide (bitsOf (ruQ r) (4 * q + 3) (4 * q) = 0))
    && decide ((List.range 4).foldl (fun n q => n + ruDepth r q) 0 ≤ 256)

/-- Formats that the operation of a context accepts on its queues (R178, R180, R191 to R198). -/
def fmtsOk (r : ImgRec) (k : Nat) : Bool :=
  let op := caOp (ruA r k)
  let cb := ruB r k
  let rd := fun q => (caQread (ruA r k)).testBit q
  let ints := fun (f : ElemFmt) => decide (f ∈ [ElemFmt.int8, .int16, .int32, .int48])
  match ruKind r with
  | 0 => decide (ruFmt r 0 = afmtElem (cbAfmt cb)) && decide (if op = 0 then cbAfmt cb ≤ 2 else 3 ≤ cbAfmt cb)
      && (!cbChain cb || decide (ruFmt r 1 = (if op = 0 then ElemFmt.int48 else .fp32)))
  | 1 => !ruUsed r 3 || decide (ruFmt r 3 = .ctrl)
  | 2 => decide (ruFmt r 0 = (if cb.testBit 11 then ElemFmt.fp32 else .int16))
  | 3 => decide (ruFmt r 0 = .int8 ∨ ruFmt r 0 = .int16)
  | 4 => [0, 1].all (fun q => !rd q || (match op with
      | 1 => decide (ruFmt r q = .int32)
      | 0 | 2 | 3 => ints (ruFmt r q)
      | 4 | 5 => decide (ruFmt r q = .fp32 ∨ ruFmt r q = .bf16) || ints (ruFmt r q)
      | _ => decide (ruFmt r q = .fp32)))
  | 5 => decide (ruFmt r 0 = rankFmt cb)
  | 6 => decide (ruFmt r 0 = .int16 ∨ ruFmt r 0 = .int32) && (decide (op = 0) || decide (ruFmt r 1 = .uint16))
  | _ => true

/-- Reserved fields, codes and limits of a context's words (R178 to R198). -/
def ctxFieldsOk (r : ImgRec) (k : Nat) : Bool :=
  let op := caOp (ruA r k)
  let cb := ruB r k
  let cc := ruC r k
  match ruKind r with
  | 0 => decide (op ≤ 1 ∧ cbOut1 cb ≤ 1 ∧ bitsOf cb 19 12 = 0 ∧ cbWfmt cb ≤ 5 ∧ cc = 0 ∧ macII (cbAfmt cb) (cbWfmt cb) ≠ 0)
  | 1 => decide (op ≤ 3 ∧ bitsOf cb 30 16 = 0 ∧ cc = 0)
  | 2 => decide (op = 0 ∧ 1 ≤ bitsOf cb 31 26 ∧ bitsOf cb 31 26 ≤ 32 ∧ bitsOf cb 9 0 = 0 ∧ cc = 0)
  | 3 => decide (op ≤ 1 ∧ 1 ≤ bitsOf cb 11 0 ∧ cc = 0)
  | 4 => decide (op ≤ 7 ∧ bitsOf cb 14 0 = 0)
  | 5 => decide (op ≤ 2 ∧ bitsOf cb 9 8 ≠ 3 ∧ bitsOf cb 7 0 = 0 ∧ (op = 0 → bitsOf cb 31 16 ≤ 1023) ∧ cc = 0)
  | 6 => decide (op ≤ 1 ∧ bitsOf cb 14 14 = 0) && (cb.testBit 15 || decide (1 ≤ bitsOf cb 13 0))
  | _ => true

/-- Output tokens of one accumulation on each port fit its firings (R182). `wide` says that the rescale gives 32 bits. -/
def accTokensOk (r : ImgRec) (k : Nat) (wide : Bool) : Bool :=
  let cb := ruB r k
  let n0 := if cbFinal cb then (if wide then 2 else 1) else if caOp (ruA r k) = 0 then 4 else 2
  let n1 := if cbFinal cb ∧ cbOut1 cb = 1 then 2 else 0
  decide (max n0 n1 ≤ (cbAccTok cb + 1) * ruII r k)

/-- Most tokens that one firing of context `k` gives on a port; a table unit and a steering unit give at most 2. -/
def ctxOuts (r : ImgRec) (k : Nat) : Nat :=
  let op := caOp (ruA r k)
  let cb := ruB r k
  match ruKind r with
  | 0 => 4
  | 2 => 2
  | 4 => reduceOuts (ruA r k) cb
  | 5 => rankOuts op cb
  | 6 => ceilDiv (bitsOf cb 26 17 + 3) 8
  | _ => 2

/-- Rules of context `k` of a unit that is not off (R154, R168, R178). -/
def ctxOk (r : ImgRec) (k : Nat) : Bool :=
  let a := ruA r k
  decide (caNext a ≤ ruNctx r)
    && (List.range 4).all (fun q => !((caQread a).testBit q || (caSeqchk a).testBit q) || ruUsed r q)
    && decide (caOuten a &&& kindOuts (ruKind r) = caOuten a) && ctxFieldsOk r k && fmtsOk r k
    && decide (ctxOuts r k ≤ 256)
    && (decide (ruNctx r = 0 ∨ caFires a = 0) || decide (prefill (ruKind r) ≤ caFires a * ruII r k))

/-! ### FIRING records (R195, R273, R387) -/

/-- Runs follow one another at least II cycles apart, one more at a change of context. -/
def runsApart (r : ImgRec) : List FireRun → Bool
  | [] => true
  | [a] => decide (1 ≤ a.count) && (decide (a.count = 1) || decide (ruII r a.ctx ≤ a.stride))
  | a :: b :: l =>
    decide (1 ≤ a.count) && (decide (a.count = 1) || decide (ruII r a.ctx ≤ a.stride))
      && decide (a.offset + (a.count - 1) * a.stride + ruII r a.ctx + bitOf (decide (a.ctx ≠ b.ctx)) ≤ b.offset)
      && runsApart r (b :: l)

/-- The walk of contexts through FIRES and NEXT: context and firings done in it, or none where a run leaves the walk. -/
def runsWalk (r : ImgRec) : Nat × Nat → List FireRun → Option (Nat × Nat)
  | p, [] => some p
  | (c, n), a :: l =>
    let f := caFires (ruA r c)
    let nx := caNext (ruA r c)
    if a.ctx ≠ c then none
    else if f = 0 then runsWalk r (c, 0) l
    else if n + a.count < f then runsWalk r (c, n + a.count) l
    else if n + a.count = f then runsWalk r (nx, 0) l
    else if nx = c then runsWalk r (c, (n + a.count) % f) l
    else none

/-- Firings of one walk from context 0 through NEXT back to it; none where it does not come back. -/
def walkFires (r : ImgRec) : Nat → Nat → Option Nat
  | 0, _ => none
  | f + 1, c =>
    let n := caFires (ruA r c)
    if n = 0 then none
    else if caNext (ruA r c) = 0 then some n
    else (walkFires r f (caNext (ruA r c))).map (· + n)

/-- Firings of context `k` in a list of runs. -/
def ctxFirings (rs : List FireRun) (k : Nat) : Nat := rs.foldl (fun n a => if a.ctx = k then n + a.count else n) 0

/-- Tokens that a reduce context reads from each queue for an event under R195; none where its bases break R195. -/
def reduceTokens (r : ImgRec) (k : Nat) : Option (Nat × Nat) :=
  let a := ruA r k
  let n := bitsOf (ruB r k) 31 16 + 1
  let b0 := bitsOf (ruC r k) 15 0
  let b1 := bitsOf (ruC r k) 31 16
  let toks := fun (q len : Nat) => ceilDiv len (elemsPerToken (ruFmt r q))
  match (caQread a).testBit 0, (caQread a).testBit 1 with
  | true, true =>
    if caOp a = 1 then (if b0 = 0 ∧ b1 = 0 then some (toks 0 n, toks 1 n) else none)
    else if b0 ≠ b1 ∧ min b0 b1 = 0 ∧ max b0 b1 < n then
      some (toks 0 (if b0 = 0 then b1 else n - b0), toks 1 (if b1 = 0 then b0 else n - b1))
    else none
  | true, false => if b0 = 0 ∧ caOp a ≠ 1 then some (toks 0 n, 0) else none
  | false, true => if b1 = 0 ∧ caOp a ≠ 1 then some (0, toks 1 n) else none
  | false, false => none

/-- The bases of a reduce context obey R195. -/
def reduceBases (r : ImgRec) (k : Nat) : Bool := (reduceTokens r k).isSome

/-- The firings of a reduce context read just the tokens of its index ranges (R195). A context that no instance of the
program reaches reads none. -/
def reduceOk (r : ImgRec) (k : Nat) (rs : List FireRun) : Bool :=
  let f := ctxFirings rs k
  let q := caQread (ruA r k)
  (decide (f = 0) && (rs.isEmpty || decide (0 < ruNctx r)))
    || (match reduceTokens r k with
        | some (n0, n1) => (!q.testBit 0 || decide (f = n0)) && (!q.testBit 1 || decide (f = n1))
        | none => false)

/-- The rules of a FIRING body for its unit. -/
def firingOk (nprog : Nat) (u r : ImgRec) : Bool :=
  let rs := fireRuns r.body
  let multi := decide (0 < ruNctx u)
  decide (fieldLE r.body 4 4 = 0)
    && (List.range (fieldLE r.body 0 4)).all (fun i => decide (fieldLE r.body (10 + 16 * i) 2 = 0))
    && rs.all (fun a => decide (a.prog < nprog ∧ a.ctx ≤ ruNctx u ∧ (a.stride = 0 → a.count = 1)))
    && (List.range nprog).all (fun g =>
      let l := rs.filter (fun a => decide (a.prog = g))
      runsApart u l
        && (match runsWalk u (0, 0) l with
          | some e => !multi || l.isEmpty || decide (e = (0, 0))
          | none => false)
        && (decide (ruKind u ≠ 4) || (ruCtxs u).all (fun k => reduceOk u k l))
        && (!multi || l.isEmpty || (match walkFires u 5 0 with
          | some n => decide (l.foldl (fun m a => m + a.count) 0 % n = 0)
          | none => false)))

/-! ### Operand areas, rescale entries, SRAM (R92, R106, R108, R192, R274 to R276) -/

/-- Bytes that the image's SRAM records give a cluster's SRAM; a byte that none sets is 0 (R275). -/
def Loaded.sramBytes (im : Loaded) (img : List Byte) (sec l c a n : Nat) : List Byte :=
  let rs := (im.of tySram sec).filter (fun r => decide (r.lregion = l ∧ r.cluster = c))
  (List.range n).map (fun i =>
    match rs.find? (fun r => decide (fieldLE r.body 0 4 ≤ a + i ∧ a + i < fieldLE r.body 0 4 + fieldLE r.body 4 4)) with
    | some r => BitVec.ofNat 8 (fieldLE img (fieldLE r.body 8 8 + (a + i - fieldLE r.body 0 4)) 1)
    | none => 0)

/-- The OPERAND record of context `k` of a unit record. -/
def Loaded.operandRec (im : Loaded) (sec k : Nat) (u : ImgRec) : Option ImgRec :=
  (im.of tyOperand sec).find? (fun r => decide (r.lregion = u.lregion ∧ r.cluster = u.cluster ∧ r.unit = u.unit ∧ fieldLE r.body 0 1 = k))
/-- The operand area that it brings. -/
def operandArea (img : List Byte) (r : ImgRec) : List Byte := refBytes img (fieldLE r.body 8 8) 0x480

/-- Rescale entry `e` of a cluster under the image: set by a record, else zero (R276). -/
def Loaded.rescaleEntry (im : Loaded) (sec l c e : Nat) : BitVec 128 :=
  match (im.of tyRescale sec).find? (fun r => decide (r.lregion = l ∧ r.cluster = c ∧ fieldLE r.body 0 2 ≤ e
      ∧ e < fieldLE r.body 0 2 + fieldLE r.body 2 2)) with
  | some r => BitVec.ofNat 128 (fieldLE r.body (8 + 16 * (e - fieldLE r.body 0 2)) 16)
  | none => 0

/-- Codebook and side list of a tile (R106, R108). -/
def tileOk (wfmt : Nat) (esc : Bool) (area : List Byte) : Bool :=
  let n := match wfmt with | 2 => 16 | 3 => 256 | _ => 0
  let e := tileEscapes wfmt esc area
  (List.range n).all (fun i => let v := fieldLE area (0x200 + 2 * i) 2
    decide (v < 4096) && (decide (i + 1 ≠ n) || decide (v = 0)))
    && decide (e ≤ 16) && allZero (bytesAt area (0x400 + 2 * e) (32 - 2 * e))

/-- The operand areas of a MAC unit and the entries that its final contexts name (R92, R274). DEDUCED: log entry 73. -/
def Loaded.macOk (im : Loaded) (img : List Byte) (sec : Nat) (u : ImgRec) : Bool :=
  (ruCtxs u).all (fun k =>
    match im.operandRec sec k u with
    | none => false
    | some r =>
      let area := operandArea img r
      let es := (List.range 16).map (fun j => im.rescaleEntry sec u.lregion u.cluster (operandEntry area j))
      allZero (bytesAt r.body 1 7) && allZero (r.body.drop 20) && tileOk (cbWfmt (ruB u k)) (cbEsc (ruB u k)) area
        && accTokensOk u k (es.any (fun e => decide (reWidth e = 32)))
        && (!cbFinal (ruB u k) || es.all (fun e =>
          reValid e && decide (reAccum e = 0 ∨ reAccum e = caOp (ruA u k) + 1))))

/-- A path through the tree from node `i` reaches leaves within `n` levels, under the limits of R192. -/
def nodeOk (nodes : List Byte) (nfeat : Nat) : Nat → Nat → Bool
  | 0, _ => false
  | n + 1, i =>
    let v := fieldLE nodes (16 * i) 16
    decide (i < 1024) && decide (bitsOf v 95 86 ≤ nfeat)
      && (v.testBit 84 || nodeOk nodes nfeat n (bitsOf v 82 72))
      && (v.testBit 83 || nodeOk nodes nfeat n (bitsOf v 71 61))

/-- The tables of a tree unit (R192). -/
def Loaded.treeOk (im : Loaded) (img : List Byte) (sec : Nat) (u : ImgRec) : Bool :=
  let rd := fun o n => im.sramBytes img sec u.lregion u.cluster (bankBase u.unit + o) n
  let nodes := rd 0 0x4000
  (ruCtxs u).all (fun k =>
    let roots := ((List.range 16).map (fun i => fieldLE (rd (0x6000 + 0x40 * k + 4 * i) 4) 0 4)).filter (fun v => v.testBit 31)
    decide (roots.length ≤ bitsOf (ruB u k) 25 22 + 1)
      && roots.all (fun v => v.testBit 30 || nodeOk nodes (bitsOf (ruB u k) 21 12) (bitsOf (ruB u k) 31 26) (bitsOf v 29 19)))

/-- Some section prefetches its successor (R270, R275). -/
def Loaded.prefetches (im : Loaded) : Bool := (im.of tySection 0).any secPrefetch

/-- Bytes of the operand areas of a MAC unit (R275). -/
def Loaded.macBytes (im : Loaded) (u : ImgRec) : Nat := if im.kind = 1 ∧ im.prefetches then 0x1200 else 0x480 * (ruNctx u + 1)

/-- An SRAM record stays within the cluster SRAM and out of the operand areas (R275). -/
def Loaded.sramOk (im : Loaded) (us : List ImgRec) (r : ImgRec) : Bool :=
  let a := fieldLE r.body 0 4
  let n := fieldLE r.body 4 4
  decide (a + n ≤ 2 ^ 19) && allZero (r.body.drop 20)
    && us.all (fun u => !(decide (u.lregion = r.lregion ∧ u.cluster = r.cluster ∧ ruKind u = 0))
      || !rangesMeet a n (bankBase u.unit) (im.macBytes u))

/-- A RESCALE or INQ record stays within its table; an INQ entry is one that R101 allows. -/
def tablesOk (r : ImgRec) : Bool :=
  let b := r.body
  if r.typ = tyRescale then rescaleBody b
  else if r.typ = tyInq then
    inqBody b && (List.range (fieldLE b 4 2)).all (fun i =>
        let e : BitVec 128 := BitVec.ofNat 128 (fieldLE b (16 + 16 * i) 16)
        reValid e && decide (reMode e ∉ [2, 3, 7, 8]))
  else true

/-! ### Slot tables (R158 to R163, R217 to R219, R277 to R281) -/

/-- A cluster switch entry of an image: physical cluster key, frame cycle, schedule word. -/
structure SwEntry where
  key  : Nat
  f    : Nat
  src  : Nat
  dst  : Nat
  cell : Nat
  low  : Nat
  prog : Nat
  off  : Nat
  deriving DecidableEq, Repr

/-- Valid entries of a SWSLOT record. `cell` is bank and row of an SRAM access. -/
def Loaded.swRec (im : Loaded) (r : ImgRec) : List SwEntry :=
  (List.range 512).filterMap (fun i =>
    let w := fieldLE r.body (4 * i) 4
    let sw := fieldLE r.body (2048 + 4 * i) 4
    if w.testBit 31 then
      some ⟨64 * im.region r + r.cluster, i / 8, bitsOf w 30 25, bitsOf w 24 18, bitsOf w 17 4, bitsOf w 3 0, swProg sw, swOff sw⟩
    else none)
/-- Every valid switch entry of a section. -/
def Loaded.sws (im : Loaded) (sec : Nat) : List SwEntry := (im.of tySwslot sec).foldl (fun l r => l ++ im.swRec r) []

/-- The physical region of ordinal `k` on die `d` (R244). -/
def Loaded.ordRegion (im : Loaded) (d k : Nat) : Option Nat := (im.map.filter (fun r => decide (r / 8 = d)))[k]?

/-- Relocate an endpoint code of die `d` (R279); none where it names no bound region. -/
def Loaded.relocEp (im : Loaded) (d ep : Nat) : Option Nat :=
  if ep < 0x100 then (im.ordRegion d (ep / 32)).map (fun r => 32 * (r % 8) + ep % 32)
  else if 0x110 ≤ ep ∧ ep < 0x130 then (im.ordRegion d ((ep - 0x110) / 4)).map (fun r => 0x110 + 4 * (r % 8) + ep % 4)
  else if ep < 0x1E5 then some ep else none

/-- A relocated die fabric entry with its owner. -/
structure DfReloc where
  owner : Nat
  e     : DfEntry
  deriving DecidableEq, Repr

/-- Relocate an entry of the region `r`. -/
def Loaded.relocDf (im : Loaded) (r : Nat) (e : DfEntry) : Option DfReloc :=
  match im.relocEp (r / 8) e.src, im.relocEp (if 16 ≤ e.ch then 1 - r / 8 else r / 8) e.dst with
  | some a, some b => some ⟨r, { e with src := a, dst := b }⟩
  | _, _ => none
/-- Every relocated die fabric entry of a section. -/
def Loaded.dfs (im : Loaded) (sec : Nat) : List DfReloc :=
  (im.of tyDfslot sec).foldl (fun l r => l ++ (dfEntries r.body).filterMap (im.relocDf (im.region r))) []

/-- A relocated memory slot (R281). -/
def relocMem (l r : Nat) (m : MemSlot) : MemSlot :=
  { m with cycle := m.cycle + (r - l), sched := BitVec.ofNat 32 (swProg m.sched.toNat * 2 ^ 28 + (swOff m.sched.toNat + (r - l)) % 2 ^ 28) }
/-- Relocated memory slots of a section, with their regions. -/
def Loaded.mems (im : Loaded) (sec : Nat) : List (Nat × MemSlot) :=
  (im.of tyMemslot sec).foldl (fun l r =>
    l ++ (memEntries r.body).map (fun m => (im.region r, relocMem (ordinalOf im.map r.lregion) (im.region r % 8) m))) []

/-- The switch rules of R162 for the entries of one cluster. -/
def swTableOk (es : List SwEntry) : Bool :=
  es.all (fun e => decide (e.src ≤ 44 ∧ e.dst ≤ 85 ∧ e.low = 0)
    && decide ((es.filter (fun x => decide (x.f = e.f ∧ x.src = e.src))).length ≤ 4)
    && decide ((es.filter (fun x => decide (x.f = e.f ∧ x.dst = e.dst))).length = 1))

/-- The rules of R219 for one relocated entry among those of its die. `other` are the entries of other partitions: frame
cycle, channel and destination. -/
def dfEntryOk (all : List DfReloc) (other : List (Nat × Nat × Nat)) (x : DfReloc) : Bool :=
  let e := x.e
  let own := fun ep => decide (ep / 32 = x.owner % 8)
  let bridge := fun ep => decide (0x110 ≤ ep ∧ ep < 0x130)
  (if e.ch < 12 then decide (0x100 ≤ e.src) || own e.src
   else if e.ch < 16 then decide (e.src < 0x100) && own e.src && isOutput e.dst
   else bridge e.src && bridge e.dst)
    && decide ((all.filter (fun y => decide (y.owner / 8 = x.owner / 8 ∧ y.e.f = e.f ∧ y.e.dst = e.dst ∧ (16 ≤ y.e.ch ↔ 16 ≤ e.ch)))).length = 1)
    && !other.any (fun o => decide (o.1 = e.f ∧ o.2.2 = e.dst ∧ (16 ≤ o.2.1 ↔ 16 ≤ e.ch)))

/-- Valid entries in the slot tables of the die's regions outside a partition that a loaded image holds. -/
def State.otherSlots (s : State) (d p : Nat) : List (Nat × Nat × Nat) :=
  (((List.range 8).map (fun n => 8 * d + n)).filter (fun r => match s.regionPart r with
    | some q => decide (q ≠ p ∧ s.regionMode r ≠ 0) && (s.part q).image.isSome
    | none => false)).foldl (fun l r =>
    l ++ (List.range 1280).filterMap (fun i =>
      let w := (s.reg (aDfSlot r (i / 20) (i % 20))).toNat
      if w.testBit 31 then some (i / 20, i % 20, bitsOf w 21 13) else none)) []

/-- R586: a transfer to a lane or optical port reaches a data slot of its configured link. -/
def State.wylSlotOk (s : State) (x : DfReloc) : Bool :=
  let d := x.owner / 8
  match s.linkAt d x.e.dst with
  | none => true
  | some n =>
    let c := x.e.f + (if x.e.ch < 12 then 3 else 0) + 6
    let p := s.linkP n
    (s.flag (aLink n 0) 30 || decide (c % p % (p / 4) = 0)) && decide ((s.wylPlace n x.e.dst c).2 < 4 - s.linkSvc n)

/-- The memory rules of R224 and, for a deep image, R382. -/
def Loaded.memOk (im : Loaded) (r : ImgRec) : Bool :=
  let b := r.body
  let k := ordinalOf im.map r.lregion
  decide (fieldLE b 4 4 = 0) && (List.range (fieldLE b 0 4)).all (fun i =>
    decide (fieldLE b (8 + 16 * i + 4) 1 ≤ 1) && allZero (bytesAt b (8 + 16 * i + 5) 3))
    && (memEntries b).all (fun m =>
      decide (512 ≤ m.cycle ∧ m.cycle < 4096 ∧ (m.cycle - 512) % 8 = k ∧ m.ctrl ≤ 1 ∧ 20 ≤ m.lane ∧ m.lane < 30)
        && (decide (im.kind ≠ 1) ||
          (match m.addr / 2 ^ 30 with
           | 0 => true
           | 1 =>
             (match im.sect (bitsOf m.addr 29 24) with
              | some sc => decide (32 * bitsOf m.addr 23 0 < secLen sc)
              | none => false)
           | 2 => !m.write && decide (m.ctrl = 0)
           | _ => m.write && decide (m.ctrl = 0 ∧ 2 ≤ bitsOf m.addr 29 0))))

/-- Streamed contexts (R392): writes of the switch into operand areas. -/
def Loaded.streamOk (im : Loaded) (sec : Nat) (e : SwEntry) : Bool :=
  if e.dst ≠ 81 ∨ 16 ≤ e.cell / 512 then true
  else
    match (im.of tyUnit sec).find? (fun u => decide (64 * im.region u + u.cluster = e.key ∧ u.unit = e.cell / 512 ∧ ruKind u = 0)) with
    | none => true
    | some u =>
      let b := 32 * (e.cell % 512)
      let k := b / 0x480
      if ruNctx u < k then true
      else decide (im.kind = 1 ∧ cbWfmt (ruB u k) ≠ 2 ∧ cbWfmt (ruB u k) ≠ 3 ∧ b % 0x480 < 0x200)
        && !(cbEsc (ruB u k) && decide (4 ≤ cbWfmt (ruB u k)))

/-! ### Flows between places: slot timing and chains (R61, R181, R246 step 5) -/

/-- A transfer from one place to another. A place is an output port of a unit (2 × unit + port), an input queue
(2^17 + 4 × unit + queue), a side input (2^18 + 4 × cluster + side), or an endpoint of a die as source
(2^19 + 1024 × die + endpoint, 512 more for tokens off the bridge). -/
structure Xfer where
  src  : Nat
  dst  : Nat
  off  : Nat
  /-- cycles until the token can be taken at its destination -/
  lat  : Nat
  /-- the slot-timing check covers its passage -/
  crossing : Bool
  deriving DecidableEq, Repr

/-- The place of endpoint `ep` of die `d`. -/
def epPlace (d ep : Nat) (bridged : Bool) : Nat := 2 ^ 19 + 1024 * d + 512 * bitOf bridged + ep

/-- The transfer of a switch entry; a cluster SRAM read takes one cycle more (R160). -/
def swXfer (e : SwEntry) : Xfer :=
  let src := if e.src < 20 then 2 * (32 * e.key + e.src) else if e.src < 40 then 2 * (32 * e.key + e.src - 20) + 1
    else if e.src = 40 then 2 ^ 20 + e.key else 2 ^ 18 + 4 * e.key + (e.src - 41)
  let rd := if e.src = 40 then 1 else 0
  if e.dst < 80 then ⟨src, 2 ^ 17 + 4 * (32 * e.key) + e.dst, e.off, 1 + rd, false⟩
  else if e.dst < 82 then ⟨src, 2 ^ 20 + e.key, e.off, 1 + rd, false⟩
  else
    let d := e.dst - 82
    match neighbour e.key d with
    | .inl m => ⟨src, 2 ^ 18 + 4 * m + (d + 2) % 4, e.off, 1 + rd, false⟩
    | .inr n => ⟨src, epPlace (e.key / 512) (edgeEp (e.key / 64) d n) false, e.off, 6 + rd, true⟩

/-- The transfer of a die fabric entry. -/
def dfXfer (x : DfReloc) : Xfer :=
  let d := x.owner / 8
  let e := x.e
  let br := decide (0x110 ≤ e.src ∧ e.src < 0x130 ∧ e.ch < 16)
  let src := epPlace d e.src br
  if 16 ≤ e.ch then ⟨src, epPlace (1 - d) e.dst true, e.off, 12, true⟩
  else if e.dst < 0x100 then
    let side := e.dst / 8 % 4
    ⟨src, 2 ^ 18 + 4 * (64 * (8 * d + e.dst / 32) + edgeCluster side (e.dst % 8)) + side, e.off, 9, true⟩
  else if isMemPort e.dst then ⟨src, epPlace d e.dst true, e.off, 9, true⟩
  else ⟨src, epPlace d e.dst false, e.off, transit e.ch, false⟩

/-- The transfer of a memory slot: a read feeds its port, a write takes what the fabric brought there. -/
def memXfer (r : Nat) (m : MemSlot) : Xfer :=
  let ep := memEp m.ctrl m.lane
  if m.write then ⟨epPlace (r / 8) ep true, 0, swOff m.sched.toNat, 0, false⟩
  else ⟨0, epPlace (r / 8) ep false, swOff m.sched.toNat, 128, true⟩

/-- Transfers that serve an instance of program `g` with ingest cycle `t`, by offset. -/
def Loaded.flows (im : Loaded) (sec g t : Nat) : List Xfer :=
  sortBy (·.off)
    ((((im.sws sec).filter (fun e => decide (e.prog = g) && slotServes e.f e.off t)).map swXfer)
      ++ (((im.dfs sec).filter (fun x => decide (x.e.prog = g) && slotServes x.e.f x.e.off t)).map dfXfer)
      ++ (((im.mems sec).filter (fun e => decide (swProg e.2.sched.toNat = g ∧ (t + swOff e.2.sched.toNat) % 4096 = e.2.cycle))).map
          (fun e => memXfer e.1 e.2)))

/-- A schedule word serves instances of a program of the image: some entry slot lies `off` cycles before cycle `f` of a
frame of `n` cycles (R277). -/
def Loaded.schedOk (im : Loaded) (n f g off : Nat) : Bool :=
  match im.prog g with
  | some r => decide ((f + n * prE r * (off + 1) - off - prPhi r) % Nat.gcd (prE r) n = 0)
  | none => false

/-- The schedule words of a slot record, at byte `o` after its `n` entries: 0 for an entry that is not valid. -/
def idleWords (b : List Byte) (n o : Nat) : Bool :=
  (List.range n).all (fun i => (fieldLE b (4 * i) 4).testBit 31 || decide (fieldLE b (o + 4 * i) 4 = 0))

/-- The schedule words of a section (R277). -/
def Loaded.schedsOk (im : Loaded) (sec : Nat) : Bool :=
  (im.of tySwslot sec).all (fun r => idleWords r.body 512 2048) && (im.of tyDfslot sec).all (fun r => idleWords r.body 1280 5120)
    && (im.sws sec).all (fun e => im.schedOk 64 e.f e.prog e.off)
    && (im.of tyDfslot sec).all (fun r => (dfEntries r.body).all (fun e => im.schedOk 64 e.f e.prog e.off))
    && (im.of tyMemslot sec).all (fun r => (memEntries r.body).all (fun m =>
      im.schedOk 4096 m.cycle (swProg m.sched.toNat) (swOff m.sched.toNat)))

/-- Keep the first of equal neighbours. -/
def dedup : List Nat → List Nat
  | [] => []
  | [a] => [a]
  | a :: b :: l => if a = b then dedup (b :: l) else a :: dedup (b :: l)

/-- Offsets at which a place is read, rising: a multicast reads once. -/
def readers (xs : List Xfer) (p : Nat) : List Nat := dedup ((xs.filter (fun x => decide (x.src = p))).map (·.off))
/-- Transfers into a place, by offset. -/
def feeders (xs : List Xfer) (p : Nat) : List Xfer := xs.filter (fun x => decide (x.dst = p))

/-- Ingest cycles, modulo the memory frame, that instances of a program can have. -/
def ingestClasses (e phi : Nat) : List Nat :=
  let g := Nat.gcd e 4096
  (List.range 4096).filter (fun t => decide (t % g = phi % g))

/-- No token is taken before its crossing, bridge or memory budget has passed (R246, step 5): the tokens of a place are
read in the order in which they reach it. The raw tokens of a capture port cross into the fabric at 6 + k. -/
def flowsOk (xs : List Xfer) : Bool :=
  xs.all (fun x => !x.crossing ||
    (let fs := feeders xs x.dst
     let i := (fs.findIdx? (fun y => decide (y = x))).getD 0
     match (readers xs x.dst)[i]? with
     | some o => decide (x.off + x.lat ≤ o)
     | none => true))

/-- Raw tokens of an instance leave the capture ports no earlier than they are released onto the fabric (R38, R413). -/
def Loaded.captureOk (im : Loaded) (sec g t : Nat) : Bool :=
  [0, 1].all (fun d => (im.capPorts sec g t d).zipIdx.all (fun e => decide (6 + e.2 ≤ e.1.1)))

/-- Contexts of the accumulations of one instance on a MAC unit, in order. -/
def accCtxs (u : ImgRec) : Nat → List FireRun → List Nat
  | _, [] => []
  | n, a :: l =>
    let m := cbAccTok (ruB u a.ctx) + 1
    List.replicate ((n + a.count) / m) a.ctx ++ accCtxs u ((n + a.count) % m) l

/-- Output-0 tokens of an accumulation in context `k`; partial-sum tokens that it reads. -/
def accOuts (u : ImgRec) (k : Nat) : Nat := if cbFinal (ruB u k) then 1 else if caOp (ruA u k) = 0 then 4 else 2
def accReads (u : ImgRec) (k : Nat) : Nat := if cbChain (ruB u k) then (if caOp (ruA u k) = 0 then 4 else 2) else 0

/-- The accumulation that emits the `j`-th token, under a count of tokens for each context. -/
def accAt (f : Nat → Nat) : List Nat → Nat → Nat → Option Nat
  | [], _, _ => none
  | k :: l, j, i => if j < f k then some i else accAt f l (j - f k) (i + 1)

/-- The unit output and the number of its token that reach place `p` as its `j`-th token. -/
def origin (xs : List Xfer) : Nat → Nat → Nat → Option (Nat × Nat)
  | 0, _, _ => none
  | n + 1, p, j =>
    if p < 2 ^ 17 then some (p, j)
    else
      match (feeders xs p)[j]? with
      | none => none
      | some x => origin xs n x.src (((readers xs x.src).findIdx? (fun o => decide (o = x.off))).getD 0)

/-- The unit records and firing runs of a section, by physical address. -/
def Loaded.unitAt (im : Loaded) (sec a : Nat) : Option ImgRec := (im.of tyUnit sec).find? (fun u => decide (im.unitOf u = a))
def Loaded.runsAt (im : Loaded) (sec g a : Nat) : List FireRun :=
  match (im.of tyFiring sec).find? (fun r => decide (im.unitOf r = a)) with
  | some r => (fireRuns r.body).filter (fun x => decide (x.prog = g))
  | none => []

/-- What `rec` gives for token `j` of queue `q` of the unit at `a`; 0 where the queue is fed from no producer, or from more
than one, and cannot be traced (R181). -/
def behind (rec : Nat → Nat → Nat) (xs : List Xfer) (a q j : Nat) : Nat :=
  let p := 2 ^ 17 + 4 * a + q
  let os := (List.range (feeders xs p).length).map (fun j => (origin xs 512 p j).map (·.1))
  if os.any (fun o => decide (o ≠ os.headD none)) then 0
  else match origin xs 512 p j with | some e => rec e.1 e.2 | none => 0

/-- Products of accumulation `i` of the MAC unit `u`, with those of its chain, which `rec` counts (R61). -/
def Loaded.accProducts (im : Loaded) (rec : Nat → Nat → Nat) (xs : List Xfer) (sec g : Nat) (u : ImgRec) (i : Nat) : Nat :=
  let a := im.unitOf u
  let cs := accCtxs u 0 (im.runsAt sec g a)
  match cs[i]? with
  | none => 0
  | some k =>
    let cb := ruB u k
    (cbAccTok cb + 1) * elemsPerToken (afmtElem (cbAfmt cb))
      + (if cbChain cb then behind rec xs a 1 ((cs.take i).foldl (fun m c => m + accReads u c) 0) else 0)

/-- Products in the partial sum that token `j` of output place `p` carries, back through steering units. DEDUCED: log entry 73. -/
def Loaded.products (im : Loaded) (xs : List Xfer) (sec g : Nat) : Nat → Nat → Nat → Nat
  | 0, _, _ => 0
  | n + 1, p, j =>
    match im.unitAt sec (p / 2) with
    | none => 0
    | some u =>
      let via := fun q => behind (im.products xs sec g n) xs (p / 2) q j
      match ruKind u with
      | 0 =>
        (match accAt (accOuts u) (accCtxs u 0 (im.runsAt sec g (p / 2))) j 0 with
         | some i => im.accProducts (im.products xs sec g n) xs sec g u i
         | none => 0)
      | 1 => if caOp (ruA u 0) = 0 then via 0 else max (via 0) (via 1)
      | _ => 0

/-- No integer accumulation of the firing runs holds more than 65,536 products. -/
def Loaded.chainsOk (im : Loaded) (xs : List Xfer) (sec g : Nat) : Bool :=
  (im.of tyUnit sec).all (fun u => decide (ruKind u ≠ 0) ||
    (accCtxs u 0 (im.runsAt sec g (im.unitOf u))).zipIdx.all (fun e =>
       decide (caOp (ruA u e.1) ≠ 0)
         || decide (im.accProducts (im.products xs sec g 1024) xs sec g u e.2 ≤ 65536)))

/-- No integer accumulation of a lattice column holds more than 65,536 products: each unit adds its own on the way south, from
the last one that starts from its bias (R61, R163, R181). DEDUCED: log entry 73. -/
def Loaded.columnsOk (im : Loaded) (sec l : Nat) : Bool :=
  let us := (im.of tyUnit sec).filter (fun u => decide (u.lregion = l ∧ ruKind u = 0))
  us.all (fun u => decide (caOp (ruA u 0) ≠ 0)
    || decide ((List.range (unitRow (im.unitOf u) + 1)).foldl (fun n ur =>
        match us.find? (fun v => decide (im.unitOf v = columnUnit (im.unitOf u) ur)) with
        | some v => (if cbChain (ruB v 0) then n else 0) + (cbAccTok (ruB v 0) + 1) * elemsPerToken (afmtElem (cbAfmt (ruB v 0)))
        | none => n) 0 ≤ 65536))

/-! ### Layers (R119, R126, R283, R284) -/

/-- The MAC unit records of a MONITOR record. -/
def Loaded.monUnits (im : Loaded) (sec : Nat) (r : ImgRec) : List ImgRec :=
  let ls := (List.range (fieldLE r.body 2 2)).map (fun i => fieldLE r.body (0x18 + 4 * i) 4)
  (im.of tyUnit sec).filter (fun u => decide (ruLidx u ∈ ls))

/-- A MONITOR record. -/
def Loaded.monitorOk (im : Loaded) (img : List Byte) (sec : Nat) (r : ImgRec) : Bool :=
  let n := fieldLE r.body 2 2
  let us := im.monUnits sec r
  monitorBody r.body && decide (us.length = n)
    && us.all (fun u => decide (im.region u / 8 = fieldLE r.body 0 1 ∧ ruKind u = 0)
      && (ruCtxs u).all (fun k => !cbFinal (ruB u k) ||
        (match im.operandRec sec k u with
         | some o => (List.range 16).all (fun j =>
             decide (reMode (im.rescaleEntry sec u.lregion u.cluster (operandEntry (operandArea img o) j)) ∈ [0, 1, 4]))
         | none => false)))

/-- W_min of a GAUNTLET record (R126). -/
def recWmin (b : List Byte) : Nat :=
  8 + fieldLE b 8 2 * ceilDiv (fieldLE b 0xA 2) 64 * ceilDiv (fieldLE b 0xC 2) 64 + 16 + 6
/-- Bytes of weights and biases of a GAUNTLET record. -/
def recWide (b : List Byte) : Nat := 2 * fieldLE b 0xA 2 * fieldLE b 0xC 2 + 4 * fieldLE b 0xC 2

/-- A GAUNTLET record. -/
def Loaded.gauntletOk (im : Loaded) (sec : Nat) (r : ImgRec) : Bool :=
  let b := r.body
  (im.of tyMonitor sec).any (fun m => decide (fieldLE m.body 0 2 = fieldLE b 0 2)) && gauntletBody b
    && decide (recWmin b ≤ fieldLE b 4 2)
    && decide (fieldLE b 0x10 4 + fieldLE b 0x14 4 ≤ 2 ^ 20 ∧ 4 * fieldLE b 8 2 * fieldLE b 0xA 2 ≤ fieldLE b 0x14 4
      ∧ fieldLE b 0x38 8 + recWide b ≤ 2 ^ 22)
    && (match (im.of tyUnit sec).find? (fun u => decide (u.lregion = fieldLE b 0x18 2 ∧ u.cluster = fieldLE b 0x1A 1
          ∧ u.unit = fieldLE b 0x1B 1)) with
        | some u => decide (im.region u / 8 = fieldLE b 0 1) && ruUsed u (fieldLE b 0x1C 1)
        | none => false)
    && !(recsOfType im.recs tyGauntlet).any (fun x => decide (fieldLE x.body 0 2 ≠ fieldLE b 0 2)
      && decide (fieldLE x.body 0 1 = fieldLE b 0 1 ∧ fieldLE x.body 2 1 = fieldLE b 2 1)
      && (rangesMeet (fieldLE x.body 0x10 4) (fieldLE x.body 0x14 4) (fieldLE b 0x10 4) (fieldLE b 0x14 4)
        || rangesMeet (fieldLE x.body 0x38 8) (recWide x.body) (fieldLE b 0x38 8) (recWide b)))

/-! ### The inventory of variant operations (R268, R269) -/

/-- Entries of the VARIANT record: logical index and code. -/
def variants (rs : List ImgRec) : List (Nat × Nat) :=
  (recsOfType rs tyVariant).foldl (fun l r =>
    l ++ (List.range (fieldLE r.body 0 4)).map (fun i => (fieldLE r.body (8 + 8 * i) 4, fieldLE r.body (12 + 8 * i) 2))) []

/-- Term counts of the FSUM_TREE contexts of logical index `l` under template `t`, over every section. -/
def treeTerms (us : List ImgRec) (t l : Nat) : List Nat :=
  dedup (sortBy id (us.foldl (fun ns u => if u.template = t ∧ ruLidx u = l then
    ns ++ ((ruCtxs u).filter (fun k => decide (caOp (ruA u k) = 4))).map (fun k => bitsOf (ruB u k) 31 16) else ns) []))

/-- The tests of R269 over all templates and sections. -/
def variantsOk (rs : List ImgRec) (anyClass : Bool) : Bool :=
  let vs := variants rs
  let us := (recsOfType rs tyUnit).filter (fun u => decide (ruKind u = 4))
  us.all (fun u => (ruCtxs u).all (fun k =>
      decide (caOp (ruA u k) ≠ 5) || vs.any (fun v => decide (v = (ruLidx u, 3)))))
    && us.all (fun u => us.all (fun w =>
      let a := treeTerms us u.template (ruLidx u)
      let b := treeTerms us w.template (ruLidx u)
      decide (ruLidx u ≠ ruLidx w ∨ a = b ∨ a = [] ∨ b = []) || vs.any (fun v => decide (v.1 = ruLidx u ∧ v.2 ≤ 2))))
    && !(anyClass && !vs.isEmpty)

/-! ### Step 4 and step 5 -/

/-- Mode of a logical region in a section. -/
def Loaded.mode (im : Loaded) (sec l : Nat) : Nat :=
  match (im.of tyRegion sec).find? (fun r => decide (r.lregion = l)) with | some r => fieldLE r.body 0 1 | none => 0

/-- Release offsets of the result tokens of program `g` (R286). -/
def Loaded.releases (im : Loaded) (g : Nat) : List Nat :=
  ((im.dfs 0).filter (fun x => decide (12 ≤ x.e.ch ∧ x.e.ch < 16 ∧ x.e.prog = g))).map (fun x => x.e.off + 6)

/-- Declared latency against release offsets (R227, R286, R376). -/
def Loaded.declOk (im : Loaded) (g : Nat) : Bool :=
  let d := im.decl g
  if im.kind = 1 then decide (1 ≤ d ∧ d ≤ 1000000)
  else decide (96 ≤ d ∧ d ≤ 1536) && (match (sortBy id (im.releases g)) with | a :: _ => decide (a = d) | [] => false)

/-- The rules of one section. -/
def State.sectionOk (s : State) (p : Nat) (im : Loaded) (img : List Byte) (sec : Nat) : Bool :=
  let us := im.of tyUnit sec
  let sws := im.sws sec
  let dfs := im.dfs sec
  let lat := fun (r : ImgRec) => decide (im.mode sec r.lregion = 2)
  us.all (fun u => unitOk u && (decide (ruKind u = 7) || (ruCtxs u).all (ctxOk u))
      && (decide (ruKind u ≠ 0) || im.macOk img sec u) && (decide (ruKind u ≠ 2) || im.treeOk img sec u))
    && us.all (fun u => decide (ruKind u ≠ 4) || (ruCtxs u).all (reduceBases u))
    && (List.range im.map.length).all (fun l => decide (im.mode sec l ≠ 2) || im.columnsOk sec l) && im.schedsOk sec
    && (im.of tyRegion sec).all (fun r => decide (fieldLE r.body 0 1 = 1 ∨ fieldLE r.body 0 1 = 2) && allZero (r.body.drop 1))
    && (im.of tyFiring sec).all (fun r => !lat r && (match im.unitAt sec (im.unitOf r) with
        | some u => firingOk im.nprog u r | none => false))
    && (im.of tyOperand sec).all (fun r => match im.unitAt sec (im.unitOf r) with
        | some u => decide (ruKind u = 0 ∧ fieldLE r.body 0 1 ≤ ruNctx u) | none => false)
    && (im.of tySram sec).all (im.sramOk us)
    && (im.of tyRescale sec).all tablesOk
    && (im.of tySwslot sec).all (fun r => (!lat r || decide (56 ≤ r.cluster)) && swTableOk (im.swRec r))
    && sws.all (im.streamOk sec)
    && (im.of tyDfslot sec).all (fun r => (List.range 1280).all (fun i =>
        let w := fieldLE r.body (4 * i) 4
        !w.testBit 31 || decide (bitsOf w 12 0 = 0)))
    && decide (dfs.length = (im.of tyDfslot sec).foldl (fun n r => n + (dfEntries r.body).length) 0)
    && dfs.all (fun x => dfEntryOk dfs (s.otherSlots (x.owner / 8) p) x && s.wylSlotOk x)
    && (im.of tyMemslot sec).all im.memOk
    && decide (((((im.mems sec).filter (fun e => decide (e.2.addr / 2 ^ 30 = 3) && e.2.write)).map (fun e => e.1 / 8)).eraseDups.length ≤ 1)
        ∨ im.kind ≠ 1)
    && (im.of tyMonitor sec).all (im.monitorOk img sec) && (im.of tyGauntlet sec).all (im.gauntletOk sec)

/-- A section that prefetches touches nothing that the running one sets, and units of both have at most two contexts
(R388, R390). The successor of the last section is section 0. -/
def Loaded.prefetchOk (im : Loaded) : Bool :=
  (im.of tySection 0).all (fun r =>
    let a := fieldLE r.body 0 1
    let b := if secNext r = 0xFF then 0 else secNext r
    if secPrefetch r then
      let other := fun (x y : ImgRec) => recsClash { x with section_ := 0 } { y with section_ := 0 }
      !(im.of tySram b).any (fun x => (im.of tySram a).any (other x))
        && !(im.of tyRescale b).any (fun x => (im.of tyRescale a).any (other x))
        && (im.of tyUnit a ++ im.of tyUnit b).all (fun u => decide (ruNctx u ≤ 1))
    else true)

/-- Step 4 of R246. `rs` are all records of the image. DEDUCED: log entry 73. -/
def State.rulesOk (s : State) (p : Nat) (im : Loaded) (rs : List ImgRec) (img : List Byte) : Bool :=
  let us := recsOfType im.recs tyUnit
  (List.range im.nsect).all (s.sectionOk p im img)
    -- one logical index, one unit, in every section (R175, R272)
    && us.all (fun u => us.all (fun w => decide (ruLidx u = ruLidx w → im.unitOf u = im.unitOf w)))
    && (im.of tyInq 0).all tablesOk && variantsOk rs im.anyClass
    && (List.range im.nprog).all im.declOk && im.prefetchOk
    && (List.range im.nsect).all (fun sec => (im.of tyProgram 0).all (fun r =>
      (ingestClasses (prE r) (prPhi r)).all (fun t => im.chainsOk (im.flows sec (prNum r) t) sec (prNum r))))

/-- Step 5 of R246. -/
def Loaded.timingOk (im : Loaded) : Bool :=
  (List.range im.nsect).all (fun sec => (im.of tyProgram 0).all (fun r =>
    (ingestClasses (prE r) (prPhi r)).all (fun t =>
      flowsOk (im.flows sec (prNum r) t) && (decide (im.kind = 1) || im.captureOk sec (prNum r) t))))

/-! ### Timing profile (R238 to R241, R266, R267) -/

/-- The figures that an image carries. -/
def Loaded.figs (im : Loaded) : Profile :=
  match (im.of tyProfile 0).head? with
  | none => []
  | some r => (List.range 25).map (fun i =>
      let w := fieldLE r.body (8 + 4 * i) 4
      (bitsOf w 31 16, (bitsOf w 15 8, bitsOf w 7 0)))

/-- The device's own table of a profile code, if it holds one (R238). -/
def State.heldProfile (s : State) (code : Nat) : Option Profile :=
  if code = 0x00A1 then some tpA1 else if code = 0x00B0 ∧ s.hw.stepping = .b0 then some tpB0 else none

/-- The comparison of R267. -/
def State.profileOk (s : State) (im : Loaded) : Bool :=
  match s.heldProfile im.profile with
  | some t => decide (im.figs = t)
  | none => decide (im.figs.map (·.1) = tpA1.map (·.1))
      && decide (im.figs.filter (fun e => decide (0x100 ≤ e.1)) = tpA1.filter (fun e => decide (0x100 ≤ e.1)))

/-- The profile under which the image was scheduled. -/
def State.imgProfile (s : State) (im : Loaded) : Profile :=
  match s.heldProfile im.profile with | some t => t | none => im.figs

/-- Latency of context `k` of a unit record under a profile; a final MAC context adds the rescale stage. -/
def recLatency (t : Profile) (u : ImgRec) (k : Nat) : Nat :=
  ctxLatency t (ruKind u) (caOp (ruA u k)) (ruB u k)
    + (if ruKind u = 0 ∧ cbFinal (ruB u k) then figure t 3 0 else 0)

/-- d(u, k) of R239 for every context. -/
def State.latDiffs (s : State) (im : Loaded) (u : ImgRec) : List Int :=
  (ruCtxs u).map (fun k => (recLatency (s.imgProfile im) u k : Int) - recLatency s.devProfile u k)

/-- TRIM of a unit (R239), or none where R239 refuses. -/
def State.trimOf (s : State) (im : Loaded) (u : ImgRec) : Option Nat :=
  match s.latDiffs im u with
  | [] => some (ruTrim u)
  | d :: ds => if ds.all (· = d) ∧ 0 ≤ d ∧ (ruTrim u : Int) + d ≤ 7 then some (ruTrim u + d.toNat) else none

/-- TRIM of a unit under relaxed load (R241). -/
def State.relaxedTrim (s : State) (im : Loaded) (u : ImgRec) : Nat :=
  match s.latDiffs im u with
  | [] => ruTrim u
  | d :: ds => min 7 (ruTrim u + (max 0 (ds.foldl min d)).toNat)

/-- TRIM as the loader sets it. -/
def State.setTrim (s : State) (im : Loaded) (u : ImgRec) : Nat :=
  match s.trimOf im u with | some t => t | none => s.relaxedTrim im u

/-- Cycles by which context `k` falls short of the image's profile. -/
def State.deficitOf (s : State) (im : Loaded) (u : ImgRec) (k : Nat) : Nat :=
  recLatency s.devProfile u k + s.setTrim im u - (recLatency (s.imgProfile im) u k + ruTrim u)

end Sys2Proof.Machine
end

