-- ==== Sys2Proof/Machine/Loader.lean ====
section
/-! DEFINITION. LOAD and section swaps: reading the staged copies (R474), steps 1 to 6 of R246, unloading and installing
(R170, R244, R302 to R307, R389 to R391, R400). -/

namespace Sys2Proof.Machine

/-! ### Staged copies (R474, R483) -/

/-- A slot of the fault manager: lane 30 or 31, outside the refresh window (R224). -/
def maintSlot (v : BitVec 5 × BitVec 12) : Nat × Nat := (30 + v.1.toNat % 2, 512 + v.2.toNat % 3584)

/-- Check one 32-byte unit of a stack as an access outside the slot tables reads it, in a slot of the fault manager where `fm`
says so; the second result says that it is bad. UNVERIFIED: log entry 35. -/
def State.unitRead (s : State) (fm : Bool) (stack byte : Nat) (p : Option Nat) : State × Bool :=
  let (n, s) := s.nextFree
  let v := Config.otherSlot n
  let (lane, fr) := if fm then maintSlot v else (v.1.toNat, v.2.toNat)
  s.memCheck (stack / 2) (stack % 2) lane fr byte p 0

/-- Units of a stack byte range with an error standing. -/
def State.badUnits (s : State) (stack a n : Nat) : List Nat :=
  (s.flt.memBad.filter (fun e => decide (2 ^ 31 * stack + a / 32 ≤ e.1 ∧ e.1 < 2 ^ 31 * stack + ceilDiv (a + n) 32))).map
    (fun e => e.1 - 2 ^ 31 * stack)

/-- Read `n` bytes at offset `o` of partition `p`'s allocation from the authoritative copies of die `d`: copy A, and
copy B for what is bad there; none when both copies of a unit are bad. -/
def State.copyRead (s : State) (p d o n : Nat) : State × Option (List Byte) :=
  let a := partBase (s.part p) + o
  let s := s.someBestEffort (2 * d) a n
  let whole := s.stackRead (2 * d) a n
  (s.badUnits (2 * d) a n).foldl (fun (r : State × Option (List Byte)) u =>
    let (s, bad) := r.1.unitRead false (2 * d) (32 * u) (some p)
    if !bad then (s, r.2)
    else
      let (s, bad2) := s.unitRead false (2 * d + 1) (32 * u) (some p)
      if bad2 then (s, none)
      else
        let lo := max a (32 * u)
        let hi := min (a + n) (32 * u + 32)
        (s, r.2.map (fun b => patch b (lo - a) (s.stackRead (2 * d + 1) lo (hi - lo))))) (s, some whole)

/-- Die of a partition's lowest region. -/
def partDie (p : Partition) : Nat := (partRegions p).headD 0 / 8

/-- A finished staging at offset `dst`. -/
def Partition.stagedAt (p : Partition) (dst : Nat) : Option Staged :=
  p.staged.find? (fun x => decide (x.dst = dst ∧ x.done = x.len))

/-! ### The view of an image under a template (R243, R244) -/

/-- Key of the SECURITY body in force since boot (R660). -/
def secKey : Nat := 22
/-- Owner settings on signatures (R661). -/
def State.sigNeed (s : State) : Bool := (fieldLE (mapGetD s.sys.settings secKey []) 0 1).testBit 0
/-- Owner key hashes. -/
def State.ownerKeys (s : State) : List (List Byte) :=
  let b := mapGetD s.sys.settings secKey []
  (List.range (fieldLE b 1 1)).map (fun i => bytesAt b (8 + 48 * i) 48)

/-- Physical regions of the logical regions of a template that fits `r0` and `r1`; none where it does not fit. -/
def bindMap (b : List Byte) (r0 r1 : List Nat) (t : ImgRec) : Option (List Nat) :=
  let n0 := fieldLE t.body 0 1
  let n1 := fieldLE t.body 1 1
  if n0 ≤ r0.length ∧ n1 ≤ r1.length ∧ iRmin b ≤ n0 + n1 ∧ n0 + n1 ≤ iRmax b then
    some ((List.range (n0 + n1)).map (fun i =>
      let d := fieldLE t.body (8 + i) 1
      let k := ((List.range i).filter (fun j => decide (fieldLE t.body (8 + j) 1 = d))).length
      (if d = 0 then r0 else r1).getD k 0))
  else none

/-- The view of image bytes `b` staged at `dst` on partition `p`: its first template that fits. -/
def viewOf (p : Partition) (dst : Nat) (b : List Byte) (relaxed : Bool) : Option Loaded :=
  let rs := (imgRecs b).1
  let r0 := (partRegions p).filter (fun r => decide (r < 8))
  let r1 := (partRegions p).filter (fun r => decide (8 ≤ r))
  ((recsOfType rs tyTemplate).findSome? (fun t => (bindMap b r0 r1 t).map (fun m => (t.template, m)))).map (fun tm =>
    { dst := dst, digest := bytesAt b (iCover b) 48, kind := iKind b, anyClass := decide (iRepro b = 1), profile := iProfile b,
      elastic := decide (iFlags b = 1), relaxed := relaxed, template := tm.1, nsect := iNsect b, ntempl := iNtempl b,
      nlregs := imgNlregs b, nprog := iNprog b, map := tm.2,
      recs := rs.filter (fun r => (decide (r.template = 0xFF ∨ r.template = tm.1))
        && (!hasRegion r.typ || decide (r.lregion < tm.2.length))) })

/-! ### Claims and capacity (R214, R285) -/

/-- Claims of an image that another one may meet. -/
def Loaded.claims (im : Loaded) : List (Nat × Nat) × List ImgRec × List ImgRec :=
  (((List.range im.nsect).foldl (fun l k => l ++ (im.of tyMonitor k).map (fun r => (fieldLE r.body 0 1, fieldLE r.body 1 1))) []),
   ((List.range im.nsect).foldl (fun l k => l ++ im.of tyGauntlet k) []), im.of tyInq 0)

/-- Two images claim one resource of a die. -/
def claimsMeet (x y : Loaded) : Bool :=
  let (m, g, q) := x.claims
  let (m', g', q') := y.claims
  m.any (fun a => decide (a ∈ m'))
    || g.any (fun a => g'.any (fun b => decide (fieldLE a.body 0 1 = fieldLE b.body 0 1 ∧ fieldLE a.body 2 1 = fieldLE b.body 2 1)
      && (rangesMeet (fieldLE a.body 0x10 4) (fieldLE a.body 0x14 4) (fieldLE b.body 0x10 4) (fieldLE b.body 0x14 4)
        || rangesMeet (fieldLE a.body 0x38 8) (recWide a.body) (fieldLE b.body 0x38 8) (recWide b.body))))
    || q.any (fun a => q'.any (fun b => decide (fieldLE a.body 0 1 = fieldLE b.body 0 1)
      && rangesMeet (fieldLE a.body 2 2) (fieldLE a.body 4 2) (fieldLE b.body 2 2) (fieldLE b.body 4 2)))

/-- Declared peak of operations on die `d`. -/
def Loaded.peak (im : Loaded) (d : Nat) : Nat := (im.of tyTprog 0).foldl (fun n r => n + fieldLE r.body (8 + 4 * d) 4) 0

/-- Step 6 of R246: capacity, claims and a named epoch. -/
def State.resourcesOk (s : State) (p : Nat) (im : Loaded) (epoch : Option (BitVec 2)) : Bool :=
  let others := (s.loadedParts.filter (fun e => decide (e.1 ≠ p))).map (fun e => e.2.2)
  [0, 1].all (fun d => decide (others.foldl (fun n x => n + x.peak d) (im.peak d) ≤ 49152))
    && !others.any (claimsMeet im) && decide (epoch ≠ some (s.part p).epoch)

/-! ### The checks of LOAD (R246) -/

/-- The checks of LOAD on image bytes `b` of staged length `len`: status and DETAIL of the first that fails, else the view. -/
def State.loadCheck (s : State) (p dst len : Nat) (b dg : List Byte) (relaxed : Bool) (epoch : Option (BitVec 2)) :
    (Nat × Nat) ⊕ Loaded :=
  match imgCheck b len dg none s.sigNeed s.ownerKeys with
  | some n => .inl (stImage, 0x200 + n)
  | none =>
    match viewOf (s.part p) dst b false with
    | none => .inl (stImage, 0x102)
    | some im =>
      if !s.profileOk im then .inl (stImage, 0x103)
      else
        let timed := (List.range im.nsect).all (fun k => (im.of tyUnit k).all (fun u => (s.trimOf im u).isSome))
        if !timed && !relaxed then .inl (stTiming, 0x103)
        else if !s.rulesOk p im (imgRecs b).1 b then .inl (stImage, 0x104)
        else if !im.timingOk then .inl (stImage, 0x105)
        else if !s.resourcesOk p im epoch then .inl (stRange, 0x106)
        else .inr { im with relaxed := !timed }

/-! ### Unloading (R302 step 3, R307) -/

/-- Region of a row as `RepairReq` names it; none for die resources. -/
def rowRegion (kind key : Nat) : Option Nat :=
  match kind with
  | 0 => some (key / 2 ^ 14 / 64)
  | 1 => some (key / 8192 / 64)
  | 3 =>
    let o := addrOff key
    if 0x2000000 ≤ o then some (8 * addrDie key + (o - 0x2000000) / 0x400000) else some (8 * addrDie key + (o - 0x610000) / 0x2000)
  | _ => none

/-- Rows that `f` names are written: their queued repairs, damage marks and mismatches go (R478, R479). -/
def State.rowsWritten (s : State) (f : Nat → Nat → Bool) : State :=
  { s with flt := { s.flt with
      repairs := s.flt.repairs.map (fun e => (e.1, e.2.filter (fun r => !f r.kind r.key)))
      damaged := s.flt.damaged.filter (fun e => !f (e.1 % 8) (e.1 / 8))
      rescaleBad := s.flt.rescaleBad.filter (fun e => !f 1 e.1)
      inqBad := s.flt.inqBad.filter (fun e => !f 2 e.1)
      cfgBad := s.flt.cfgBad.filter (fun e => !f 3 e.1)
      wideBad := s.flt.wideBad.filter (fun e => !f 4 e.1) } }

/-- Registers of a region that hold its configuration: unit words, switch slots, die fabric slots. -/
def cfgReg (r a : Nat) : Bool :=
  decide ((aLat r 0x10000 ≤ a ∧ a < aLat r 0x50000) ∨ (aDfSlot r 0 0 ≤ a ∧ a < aDfSlot r 63 19 + 4))

/-- Clear the configuration of region `r`: words, slot tables, memory slots; MODE and LREGION become 0. -/
def State.clearConfig (s : State) (r : Nat) : State :=
  let s := { s with regs := s.regs.filter (fun e => !cfgReg r e.1)
                    lat := { s.lat with
                      sched := s.lat.sched.filter (fun e => !cfgReg r e.1)
                      memSlots := mapErase s.lat.memSlots r
                      memServed := s.lat.memServed.filter (fun e => decide (e.1 / 65536 ≠ r ∧ (e.1 < 2 ^ 24 ∨ (e.1 - 2 ^ 24) / 512 / 64 ≠ r)))
                      deficits := s.lat.deficits.filter (fun e => decide (uRegion (e.1 / 4) ≠ r)) } }
  ((s.setField (aLat r 0) 31 30 0).setField (aLat r 0) 15 0 0).setReg (aSeq (r / 8) (0x340 + 4 * (r % 8))) 0

/-- Empty region `r`: units, switches, cluster SRAM, rescale tables. -/
def State.clearContent (s : State) (r : Nat) : State :=
  { s with lat := { s.lat with
      units := s.lat.units.filter (fun e => decide (uRegion e.1 ≠ r))
      clusters := s.lat.clusters.filter (fun e => decide (e.1 / 64 ≠ r))
      sram := s.lat.sram.filter (fun e => decide (e.1 / 2 ^ 19 / 64 ≠ r))
      sramBad := s.lat.sramBad.filter (fun e => decide (e.1 / 2 ^ 19 / 64 ≠ r))
      sideCol := s.lat.sideCol.filter (fun e => decide (e.1 / 2 ^ 14 / 64 ≠ r))
      wrRows := s.lat.wrRows.filter (fun e => decide (e.1 / 2 ^ 14 / 64 ≠ r))
      rescale := s.lat.rescale.filter (fun e => decide (e.1 / 8192 / 64 ≠ r))
      rowWrites := s.lat.rowWrites.filter (fun w => decide (w.cluster / 64 ≠ r))
      waits := s.lat.waits.filter (fun e => decide (e.2.region ≠ r))
      banks := s.lat.banks.filter (fun e => decide (e.1 / 32 / 64 ≠ r)) } }

/-- A queue, output buffer, term hold, feature buffer or key buffer of a unit holds a token (R203). -/
def State.unitHolds (s : State) (u : Nat) (x : UnitState) : Bool :=
  !(x.q0.isEmpty && x.q1.isEmpty && x.q2.isEmpty && x.q3.isEmpty && x.out0.isEmpty && x.out1.isEmpty)
    || (decide (s.uKind u = 4 ∨ s.uKind u = 5) && !(x.acc.isEmpty && x.arrivals.isEmpty))
    || decide (0 < x.featCount) || !x.waiting.isEmpty
    || (match x.evalHold with | some (_, e) => decide (s.now < e) | none => false)

/-- QNONEMPTY of region `r`: a unit, a scale queue or a switch transfer of the region holds a token (R203). -/
def State.regionHolds (s : State) (r : Nat) : Bool :=
  s.lat.units.any (fun e => decide (uRegion e.1 = r) && s.unitHolds e.1 e.2)
    || s.lat.clusters.any (fun e => decide (e.1 / 64 = r) && (let c := e.2
      !(c.sideN.isEmpty && c.sideE.isEmpty && c.sideS.isEmpty && c.sideW.isEmpty && c.scaleQ.isEmpty)))
    || s.lat.rowWrites.any (fun w => decide (w.cluster / 64 = r))

/-- The region to which an image's fabric entries first send what stands at source endpoint `ep` of die `d`: for an entry to
another endpoint, the region that owns it. -/
def Loaded.sourceRegion (im : Loaded) (d ep : Nat) : Option Nat :=
  (((List.range im.nsect).foldl (fun l k => l ++ im.dfs k) []).find? (fun x => decide (x.owner / 8 = d ∧ x.e.src = ep))).map (fun x =>
    if x.e.dst < 0x100 ∧ x.e.ch < 16 then 8 * d + x.e.dst / 32 else x.owner)

/-- Paths of tokens: into an island, out of one, from the fabric's sources on, across the bridge. -/
inductive PathKind where
  | inward | outward | bridge
  deriving DecidableEq, Repr

/-- The region in which a discarded passage counts: the one it goes to (R307); `low` where it goes to none. -/
def Loaded.passageTo (im : Option Loaded) (low : Nat) (k : PathKind) (key : Nat) (q : Passage) : Nat :=
  let d := key % 1024 / 512
  let ep := key % 512
  let dest := fun (d ep : Nat) => (im.bind (·.sourceRegion d ep)).getD low
  match k with
  | .inward => if ep < 0x100 then 8 * d + ep / 32 else low
  | .outward => dest d ep
  | .bridge => dest (1 - key / 32) q.src

/-- The passage belongs to partition `p`: by its instance, in a crossing of one of its edge ports, or as a token off a Wyile link
that its slots take. DEDUCED: log entry 76. -/
def State.passageOf (s : State) (p : Nat) (im : Option Loaded) (k : PathKind) (key : Nat) (q : Passage) : Bool :=
  let d := key % 1024 / 512
  let ep := key % 512
  let takes := fun (d ep : Nat) => decide (q.held.inst = 0) && (im.bind (·.sourceRegion d ep)).isSome
  (match s.inst q.held.inst with | some x => decide (x.part = p) | none => false)
    || (match k with
        | .inward => decide (ep < 0x100) && (s.part p).regions.toNat.testBit (8 * d + ep / 32)
        | .outward => (decide (ep < 0x100) && (s.part p).regions.toNat.testBit (8 * d + ep / 32)) || takes d ep
        | .bridge => takes (1 - key / 32) q.src)

/-- Drop the passages of partition `p` from a map of paths; the second result is the region of each. DEDUCED: log entry 76. -/
def State.dropPassages (s : State) (p : Nat) (k : PathKind) (m : AMap (List Passage)) : AMap (List Passage) × List Nat :=
  let low := (partRegions (s.part p)).headD 0
  let im := (s.part p).image
  (m.filterMap (fun e =>
      let l := e.2.filter (fun q => !s.passageOf p im k e.1 q)
      if l.isEmpty then none else some (e.1, l)),
   m.foldl (fun l e => l ++ (e.2.filter (s.passageOf p im k e.1)).map (Loaded.passageTo im low k e.1)) [])

/-- Tokens that the waiting, forming and just accepted events of the partition's streams hold in admission, by the region they go
to: that of the fabric entry which takes them, else the partition's lowest region. -/
def State.admissionTokens (s : State) (p : Nat) (im : Loaded) : List Nat :=
  let low := (partRegions (s.part p)).headD 0
  (im.of tyProgram 0).foldl (fun l r =>
    l ++ (prStream r :: prSides r).foldl (fun l st => l ++ [0, 1].foldl (fun l d =>
      let x := s.strm d st
      let n := (x.forming ++ x.waiting).foldl (fun n e => n + e.bytes.length / 32) 0
        + s.seq.entering.foldl (fun n e => if e.die = d ∧ e.stream = st then n + e.raw.length / 32 else n) 0
      let dst := ((im.dfOf 0 (prNum r) (prPhi r)).find? (fun e => decide (e.1 = d) && isCapture e.2.src && decide (e.2.dst < 0x100))).bind
        (fun e => im.ordRegion d (e.2.dst / 32))
      l ++ List.replicate n (dst.getD low)) []) []) []

/-- Discard every token held in admission buffers and crossings for the partition, and count each (R307). DEDUCED: log entry 76. -/
def State.discardPart (s : State) (p : Nat) : State :=
  let pt := s.part p
  let adm := match pt.image with | some im => s.admissionTokens p im | none => []
  let (xi, a) := s.dropPassages p .inward s.lat.xIn
  let (ib, b) := s.dropPassages p .inward s.lat.inbox
  let (aq, c) := s.dropPassages p .outward s.lat.admQ
  let (xo, d) := s.dropPassages p .outward s.lat.xOut
  let (fi, e) := s.dropPassages p .outward s.lat.fabIn
  let (br, g) := s.dropPassages p .bridge s.lat.bridge
  let s := { s with lat := { s.lat with xIn := xi, inbox := ib, admQ := aq, xOut := xo, fabIn := fi, bridge := br } }
  let s : State := match pt.image with
    | some im => (im.of tyProgram 0).foldl (fun s r => (prStream r :: prSides r).foldl (fun s st =>
        [0, 1].foldl (fun s d => s.putStrm d st { s.strm d st with forming := [], waiting := [] }) s) s) s
    | none => s
  (adm ++ a ++ b ++ c ++ d ++ e ++ g).foldl (fun s r => s.addReg (aLat r 8) 1) s

/-- The instances of a partition end without further release. -/
def State.dropInsts (s : State) (p : Nat) : State :=
  let xs := s.seq.insts.filter (fun x => decide (x.part = p))
  let s := xs.foldl (fun s x => s.capRetire x) s
  { s with seq := { s.seq with
      insts := s.seq.insts.filter (fun x => decide (x.part ≠ p))
      ops0 := s.seq.ops0 - xs.foldl (fun n x => n + x.ops0) 0
      ops1 := s.seq.ops1 - xs.foldl (fun n x => n + x.ops1) 0 } }

/-- The partition's layers leave their slots; an engine that ran one of them is idle (R138). -/
def State.dropLayers (s : State) (p : Nat) : State :=
  let ls := s.gau.layers.filter (fun e => decide (e.2.part = p))
  let s := ls.foldl (fun (s : State) e => if e.2.running then s.setFlag (aEng (e.1 / 64) e.2.engine) 31 false else s) s
  { s with gau := { s.gau with layers := s.gau.layers.filter (fun e => decide (e.2.part ≠ p)) } }

/-- The input quantiser entries that an image claims are emptied. -/
def State.clearInq (s : State) (im : Loaded) : State :=
  (im.of tyInq 0).foldl (fun (s : State) r =>
    let hit := fun (k : Nat) => decide (k / 8192 = fieldLE r.body 0 1 ∧ fieldLE r.body 2 2 ≤ k % 4096
      ∧ k % 4096 < fieldLE r.body 2 2 + fieldLE r.body 4 2)
    { s with lat := { s.lat with inq := s.lat.inq.filter (fun e => !hit e.1)
                                 inqLidx := s.lat.inqLidx.filter (fun e => !hit e.1) } }) s

/-- A deep partition stands at section 0 again, with no pass. -/
def State.deepHome (s : State) (p : Nat) : State :=
  { s with deep := s.deep.map (fun (e : Nat × Deep) => if e.1 = p then
      (e.1, { e.2 with pass := none, section_ := 0, swap := false, pfReady := false }) else e) }

/-- The partition holds no image. -/
def State.imageGone (s : State) (p : Nat) : State :=
  s.putPart p { s.part p with image := none, change := none, filling := false, opensAt := none
                              staged := (s.part p).staged.map (fun x => { x with auth := false }) }

/-- What unloading the partition's image does outside its regions (R302 step 3, R307): its inputs and tokens go, its instances and
claims end. An operation that waits for the partition to run has started, and ends with FAULT. DESIGN CHOICE: log entry 100. -/
def State.unloadPart (s : State) (p : Nat) : State :=
  let s := (((s.disarmPart p).abortOps p stFault 0).discardPart p).dropInsts p
  let s := match (s.part p).image with | some im => s.clearInq im | none => s
  ((s.dropLayers p).deepHome p).imageGone p

/-- The rows of regions `rs` are written anew: their repairs and marks go (R478, R479). -/
def State.regionsWritten (s : State) (rs : List Nat) : State :=
  s.rowsWritten (fun k key => match rowRegion k key with | some r => decide (r ∈ rs) | none => false)

/-- Unload the partition's image outside a LOAD (R301, R305): every region is emptied and at MODE 0. Its configuration mirrors and
the records that hold until the next LOAD stay (R201, R203, R206, R251, R255). DEDUCED: log entry 76. -/
def State.unload (s : State) (p : Nat) : State :=
  let rs := partRegions (s.part p)
  let s := s.unloadPart p
  let s := rs.foldl (fun (s : State) r =>
    ((s.clearContent r).setField (aLat r 0) 31 30 0).setField (aLat r 0) 15 0 0) s
  s.regionsWritten rs

/-! ### Installing a section (R170, R244, R275, R276, R389) -/

/-- Configuration words of a unit, TRIM as computed. -/
def State.unitWords (s : State) (im : Loaded) (u : ImgRec) : List (Nat × Nat) :=
  let a := im.unitOf u
  let cfg := (setBits (BitVec.ofNat 32 (ruCfg u)) 28 26 (s.setTrim im u)).toNat
  [(aUnit a 0, cfg), (aUnit a 4, ruLidx u), (aUnit a 8, ruQ u)]
    ++ (ruCtxs u).foldl (fun l k => l ++ [(aCtxA a k, ruA u k), (aCtxB a k, ruB u k), (aCtxC a k, ruC u k)]) []

/-- Slot words of a section with their schedule words. -/
def Loaded.slotWords (im : Loaded) (sec : Nat) : List (Nat × Nat × Nat) :=
  (im.of tySwslot sec).foldl (fun l r => l ++ (List.range 512).filterMap (fun i =>
      let w := fieldLE r.body (4 * i) 4
      if w.testBit 31 then some (aSwSlot (64 * im.region r + r.cluster) i, w, fieldLE r.body (2048 + 4 * i) 4) else none)) []
    ++ (im.of tyDfslot sec).foldl (fun l r => l ++ (dfEntries r.body).filterMap (fun e =>
      (im.relocDf (im.region r) e).map (fun x =>
        (aDfSlot (im.region r) e.f e.ch, 2 ^ 31 + x.e.src * 2 ^ 22 + x.e.dst * 2 ^ 13, e.prog * 2 ^ 28 + e.off)))) []

/-- Write words into registers. -/
def State.putWords (s : State) (ws : List (Nat × Nat)) : State :=
  ws.foldl (fun s w => s.setReg w.1 (BitVec.ofNat 32 w.2)) s

/-- What an image says of the regions `rs`. -/
def Loaded.only (im : Loaded) (rs : List Nat) : Loaded :=
  { im with recs := im.recs.filter (fun r => !hasRegion r.typ || decide (im.region r ∈ rs)) }

/-- Write the configuration of section `sec` into the regions `rs`: mirrors, slot tables, memory slots, region modes, trims. -/
def State.installConfig (s : State) (rs : List Nat) (im0 : Loaded) (sec : Nat) : State :=
  let im := im0.only rs
  let s := rs.foldl (fun s r => s.clearConfig r) s
  let s := s.rowsWritten (fun k key => decide (k = 3) && (match rowRegion k key with | some r => decide (r ∈ rs) | none => false))
  let s := (im.of tyUnit sec).foldl (fun s u => s.putWords (s.unitWords im u)) s
  let s := (im.slotWords sec).foldl (fun (s : State) w =>
    let s := s.setReg w.1 (BitVec.ofNat 32 w.2.1)
    { s with lat := { s.lat with sched := mapPut s.lat.sched w.1 (BitVec.ofNat 32 w.2.2) 0 } }) s
  let s := (im.mems sec).foldl (fun (s : State) e =>
    { s with lat := { s.lat with memSlots := mapSet s.lat.memSlots e.1 (mapGetD s.lat.memSlots e.1 [] ++ [e.2]) } }) s
  let s := (im.of tyUnit sec).foldl (fun (s : State) u =>
    let a := im.unitOf u
    let r := uRegion a
    let t := aSeq (r / 8) (0x340 + 4 * (r % 8))
    let def_ := (ruCtxs u).any (fun k => decide (0 < s.deficitOf im u k))
    let s := s.addField t 31 16 (bitOf (decide (ruTrim u < s.setTrim im u)))
    let s := s.addField t 15 0 (bitOf def_)
    { s with lat := { s.lat with deficits := (ruCtxs u).foldl (fun m k => mapPut m (4 * a + k) (s.deficitOf im u k) 0) s.lat.deficits } }) s
  (im.map.zipIdx.filter (fun e => decide (e.1 ∈ rs))).foldl (fun s e =>
    (s.setField (aLat e.1 0) 31 30 (im.mode sec e.2)).setField (aLat e.1 0) 15 0 e.2) s

/-- Write the operand areas of a section into context half `half`, and its SRAM records (R274, R275, R390). -/
def State.installSram (s : State) (im : Loaded) (img : List Byte) (sec half : Nat) : State :=
  let s := (im.of tyOperand sec).foldl (fun s r =>
    let u := im.unitOf r
    s.sramWrite (uKey u) (uByte u (0x480 * (2 * half + fieldLE r.body 0 1))) (operandArea img r)) s
  let s := (im.of tySram sec).foldl (fun s r =>
    s.sramWrite (64 * im.region r + r.cluster) (fieldLE r.body 0 4) (refBytes img (fieldLE r.body 8 8) (fieldLE r.body 4 4))) s
  let keys := (im.of tyOperand sec ++ im.of tySram sec).map (fun r => 64 * im.region r + r.cluster)
  s.rowsWritten (fun k key => decide (k = 0 ∧ key / 2 ^ 14 ∈ keys))

/-- Write entries of RESCALE records into bank `b` of their clusters (R276). -/
def State.installRescale (s : State) (im : Loaded) (rs : List ImgRec) (b : Nat) : State :=
  rs.foldl (fun (s : State) r =>
    let k := 64 * im.region r + r.cluster
    let m := (List.range (fieldLE r.body 2 2)).foldl (fun m i =>
      mapPut m (8192 * k + 4096 * b + fieldLE r.body 0 2 + i) (BitVec.ofNat 128 (fieldLE r.body (8 + 16 * i) 16)) 0) s.lat.rescale
    let s := { s with lat := { s.lat with rescale := m } }
    s.rowsWritten (fun kd key => decide (kd = 1 ∧ 8192 * k + 4096 * b + fieldLE r.body 0 2 ≤ key
      ∧ key < 8192 * k + 4096 * b + fieldLE r.body 0 2 + fieldLE r.body 2 2))) s

/-- Write entries of INQ records into bank `b`. -/
def State.installInq (s : State) (rs : List ImgRec) (b : Nat) : State :=
  rs.foldl (fun (s : State) r =>
    let d := fieldLE r.body 0 1
    let a := fieldLE r.body 2 2
    let n := fieldLE r.body 4 2
    let m := (List.range n).foldl (fun m i =>
      mapPut m (8192 * d + 4096 * b + a + i) (BitVec.ofNat 128 (fieldLE r.body (16 + 16 * i) 16)) 0) s.lat.inq
    let l := (List.range n).foldl (fun l i => mapPut l (8192 * d + 4096 * b + a + i) (fieldLE r.body 8 4 + i) 0) s.lat.inqLidx
    let s := { s with lat := { s.lat with inq := m, inqLidx := l } }
    s.rowsWritten (fun kd key => decide (kd = 2 ∧ 8192 * d + 4096 * b + a ≤ key ∧ key < 8192 * d + 4096 * b + a + n))) s

/-- The layer that a GAUNTLET record and its MONITOR record describe; counters go on from `old` where one stands. -/
def mkLayer (im : Loaded) (p : Nat) (old : Option Layer) (g m : ImgRec) : Layer :=
  let b := g.body
  let lim := bytesAt m.body 4 16
  let e := BitVec.ofNat 8 (fieldLE b 0xE 1)
  { part := p, cfg := BitVec.ofNat 32 (2 ^ 31 + fieldLE b 2 1 * 2 ^ 28 + fieldLE b 6 2), win := BitVec.ofNat 32 (fieldLE b 4 2)
    engine := fieldLE b 2 1, src := fieldLE b 3 1, w := fieldLE b 4 2, k := fieldLE b 6 2, v := fieldLE b 8 2,
    cIn := fieldLE b 0xA 2, cOut := fieldLE b 0xC 2, eOut0 := e, eOut1 := e, sbBase := fieldLE b 0x10 4, sbDepth := fieldLE b 0x14 4,
    wtBase := fieldLE b 0x38 8,
    merge := unitAddr (im.map.getD (fieldLE b 0x18 2) 0) (fieldLE b 0x1A 1) (fieldLE b 0x1B 1), mqueue := fieldLE b 0x1C 1,
    units := (List.range (fieldLE m.body 2 2)).map (fun i => fieldLE m.body (0x18 + 4 * i) 4), lim0 := lim, lim1 := lim,
    n := (old.map (·.n)).getD 0, nLast := old.bind (·.nLast), trip := (old.map (·.trip)).getD 0,
    overs := (old.map (·.overs)).getD 0, work := [] }

/-- Bytes of wide weights and biases of a GAUNTLET record. -/
def wideBytes (img : List Byte) (g : ImgRec) : List Byte :=
  refBytes img (fieldLE g.body 0x20 8) (fieldLE g.body 0x28 4) ++ refBytes img (fieldLE g.body 0x2C 8) (fieldLE g.body 0x34 4)

/-- Write wide weights into bank `b` of a layer's engine. -/
def State.installWide (s : State) (img : List Byte) (b : Nat) (l : Layer) (g : ImgRec) : State :=
  let a := wideBase (fieldLE g.body 0 1) b l
  let bs := wideBytes img g
  let s := { s with gau := { s.gau with wide := memWrite s.gau.wide a bs } }
  s.rowsWritten (fun k key => decide (k = 4 ∧ a / 32 ≤ key ∧ key < (a + bs.length + 31) / 32))

/-- Install the layers of a section in bank `b`; the partition's other layers keep their counters and watch nothing. Only a LOAD
sets the slots' words (R140). -/
def State.installLayers (s : State) (p : Nat) (im : Loaded) (img : List Byte) (sec b : Nat) (load : Bool) : State :=
  let s := s.mapLayers (fun e => decide (e.2.part = p)) (fun l => { l with units := [], mqueue := 4 })
  (im.of tyGauntlet sec).foldl (fun (s : State) g =>
    match (im.of tyMonitor sec).find? (fun m => decide (fieldLE m.body 0 2 = fieldLE g.body 0 2)) with
    | none => s
    | some m =>
      let k := 64 * fieldLE g.body 0 1 + fieldLE g.body 1 1
      let old := mapGet s.gau.layers k
      let l := mkLayer im p old g m
      let l := match old, load with | some o, false => { l with cfg := o.cfg, win := o.win } | _, _ => l
      ({ s with gau := { s.gau with layers := mapSet s.gau.layers k l } }).installWide img b l g) s

/-- LOAD installs the layers of every section, section 0 last: its layers are in force. -/
def State.loadLayers (s : State) (p : Nat) (im : Loaded) (img : List Byte) : State :=
  (List.range im.nsect).reverse.foldl (fun s sec => s.installLayers p im img sec 0 true) s

/-- Set every unit of a section to context 0, with its active and standby sets filled (R170). -/
def State.fillUnits (s : State) (rs : List Nat) (im : Loaded) (sec half : Nat) : State :=
  ((im.only rs).of tyUnit sec).foldl (fun s u =>
    let a := im.unitOf u
    let area := fun k => (s.uRead a (0x480 * (2 * half + k)) 0x480).1
    let mac := decide (ruKind u = 0)
    let multi := decide (0 < ruNctx u)
    s.putUnit a { s.unit a with
      actx := 0, fdone := 0, lastFire := none, switching := false, fillDone := none, standbyOk := multi, decodedBad := false
      setA := if mac then area 0 else [], setB := if mac && multi then area (caNext (ruA u 0)) else [] }) s

/-- The records of a scale set that serve an image: those of its template, and those of every template that name a region which it
has (R260, R291). -/
def Loaded.setRecs (im : Loaded) (set : List Byte) : List ImgRec :=
  (imgRecs set).1.filter (fun r => decide (r.template = 0xFF ∨ r.template = im.template)
    && (!hasRegion r.typ || decide (r.lregion < im.map.length)))

/-- Put a scale set's records for section `sec`, and its quantiser entries, over what the image gave, in bank `b` (R402).
DEDUCED: log entry 74. -/
def State.overlaySet (s : State) (p : Nat) (im : Loaded) (set : List Byte) (sec b : Nat) : State :=
  let rs := (im.setRecs set).filter (fun r => decide (r.section_ = sec ∨ r.typ = tyInq))
  let s := s.installRescale im (recsOfType rs tyRescale) b
  let s := s.installInq (recsOfType rs tyInq) b
  let at_ := fun (r : ImgRec) => 64 * fieldLE r.body 0 1 + fieldLE r.body 1 1
  let s := (recsOfType rs tyMonitor).foldl (fun s r =>
    s.mapLayer (at_ r) (fun l => if b = 0 then { l with lim0 := bytesAt r.body 4 16 } else { l with lim1 := bytesAt r.body 4 16 })) s
  (recsOfType rs tyGauntlet).foldl (fun (s : State) r =>
    match mapGet s.gau.layers (at_ r) with
    | none => s
    | some l =>
      if l.part ≠ p then s
      else
        let e := BitVec.ofNat 8 (fieldLE r.body 0xE 1)
        let s := s.mapLayer (at_ r) (fun l => if b = 0 then { l with eOut0 := e } else { l with eOut1 := e })
        s.installWide set b l r) s

/-! ### LOAD (R302 to R306) -/

/-- Image bytes of a staged image as the loader reads them, die by die of the partition's first region. -/
def State.imageBytes (s : State) (p dst : Nat) : State × Option (List Byte) :=
  match (s.part p).stagedAt dst with
  | none => (s, none)
  | some x => s.copyRead p (partDie (s.part p)) dst x.len

/-- Offset in the staged image of the first 32-byte unit with an error in both copies; the spec gives none where the
check of step 6 fails. -/
def State.loadOffset (s : State) (p dst : Nat) : Nat :=
  let d := partDie (s.part p)
  let a := partBase (s.part p) + dst
  let n := match (s.part p).stagedAt dst with | some x => x.len | none => 0
  let bad := fun (k u : Nat) => match mapGet s.flt.memBad (2 ^ 31 * k + u) with | some e => decide (e ≠ .corrected) | none => false
  match (s.badUnits (2 * d) a n).find? (fun u => bad (2 * d) u && bad (2 * d + 1) u) with
  | some u => 32 * u - a
  | none => Config.noDetail.toNat

/-- A LOAD or swap met an unrepairable error in both copies, or failed its check (R305, R391, R496): LOAD_FAULT is
reported, and the partition becomes BOUND with every region at MODE 0. DEDUCED: log entry 20. -/
def State.loadFailed (s : State) (p dst : Nat) : State :=
  let s := s.fault (partDie (s.part p)) ⟨0x15, .report, some p, Config.noUnit.toNat, false, s.loadOffset p dst, 0, 0⟩
  let s := s.unload p
  s.putPart p { s.part p with state := .bound }

/-- The elastic step of a die falls to 0 where a LOAD makes it ineligible (R400). -/
def State.stepOff (s : State) (p : Nat) (im : Loaded) : State :=
  let plain := !(decide (im.kind = 1) && im.elastic)
  let bridge := (List.range im.nsect).any (fun k => (im.dfs k).any (fun x => decide (16 ≤ x.e.ch)))
  [0, 1].foldl (fun s d =>
    if (plain && partOnDie (s.part p) d) || (bridge && partOnDie (s.part p) (1 - d)) then
      let s := s.setField (aSeq d 0x600) 27 24 0
      { s with seq := { s.seq with steps := mapErase s.seq.steps d } }
    else s) s

/-- The digest held with the staged copy at `dst` (R305). -/
def Partition.heldDigest (pt : Partition) (dst : Nat) : List Byte :=
  match pt.stagedAt dst with | some x => x.digest | none => []

/-- The first step of a LOAD: every check, then what step 3 does outside the regions. The result says how the LOAD ends, if it
ends here. -/
def State.loadBegin (s : State) (p dst : Nat) (relaxed : Bool) (epoch : Option (BitVec 2)) : State × Option (Nat × Nat) :=
  let (s, b) := s.imageBytes p dst
  match b with
  | none => (s.loadFailed p dst, some (stFault, 0))
  | some b =>
    match s.loadCheck p dst b.length b ((s.part p).heldDigest dst) relaxed epoch with
    | .inl e => (s, some e)
    | .inr im =>
      let s := (s.stepOff p im).unloadPart p
      let ep := match epoch with | some e => e | none => (s.part p).epoch + 1
      let pt := s.part p
      (s.putPart p { pt with state := .loading, epoch := ep, hung := false, relaxed := false
                             staged := pt.staged.map (fun x => { x with auth := decide (x.dst = dst) }) }, none)

/-- Regions of group `k` of a LOAD: two of each die at once (R303). -/
def loadGroup (p : Partition) (k : Nat) : List Nat :=
  [0, 1].foldl (fun l d => l ++ (((partRegions p).filter (fun r => decide (r / 8 = d))).drop (2 * k)).take 2) []
/-- Groups of a LOAD. -/
def loadGroups (p : Partition) : Nat :=
  [0, 1].foldl (fun n d => max n (ceilDiv ((partRegions p).filter (fun r => decide (r / 8 = d))).length 2)) 0

/-- The view of a staged image on its partition, with `relaxed` as R241 decides it. -/
def State.stagedView (s : State) (p dst : Nat) (b : List Byte) : Option Loaded :=
  (viewOf (s.part p) dst b false).map (fun im =>
    { im with relaxed := !((List.range im.nsect).all (fun k => (im.of tyUnit k).all (fun u => (s.trimOf im u).isSome))) })

/-- Steps 3 to 6 of R302 for the regions `rs`: each is unloaded and gets its part of section 0. -/
def State.loadRegions (s : State) (p : Nat) (im : Loaded) (b : List Byte) (rs : List Nat) : State :=
  let s := rs.foldl (fun (s : State) r =>
    let s := ((s.clearConfig r).clearContent r).setFlag (aLat r 4) 29 false
    ((s.setReg (aLat r 0x10) 0).setReg (aLat r 0x14) 0).setField (aLat r 0) 29 28 (s.part p).epoch.toNat) s
  let s := s.regionsWritten rs
  let im' := im.only rs
  (((s.installConfig rs im 0).installSram im' b 0 0).installRescale im' (im'.of tyRescale 0) 0).fillUnits rs im 0 0

/-- A step of a LOAD under way: it loads group `k`, or ends where neither copy can be read. -/
def State.loadSome (s : State) (p dst k : Nat) : State × Bool :=
  let (s, b) := s.imageBytes p dst
  match b.bind (fun b => (s.stagedView p dst b).map (fun im => (b, im))) with
  | some (b, im) => (s.loadRegions p im b (loadGroup (s.part p) k), true)
  | none => (s.loadFailed p dst, false)

/-- The last step of a LOAD: claims of the dies and step 7 of R302. DEDUCED: log entry 20. -/
def State.loadEnd (s : State) (p dst : Nat) (flush verifyFails : Bool) : State × Nat × Nat :=
  let (s, b) := s.imageBytes p dst
  match b.bind (fun b => (s.stagedView p dst b).map (fun im => (b, im))), verifyFails with
  | some (b, im), false =>
    let pt := s.part p
    let s := s.putPart p { pt with
      state := .loaded, image := some im, gen := 0, seeds := [], change := none, filling := false, saved := false, saveCount := 0
      hung := false, relaxed := im.relaxed, half := 0, sets := [], opensAt := none }
    let s := (s.installInq (im.of tyInq 0) 0).loadLayers p im b
    let s := (partRegions pt).foldl (fun s r => s.setField (aScl (r / 8) (0x100 + 4 * (r % 8))) 31 16 0) s
    let ep := pt.epoch.toNat
    let arg := bitOf s.sigNeed + 2 * bitOf flush + ep * 2 ^ 8 + im.template * 2 ^ 16 + bitOf im.relaxed * 2 ^ 24
    let tr := iTrailer b
    let s := s.auditCtrl p 0x01 0 0 arg im.digest (bytesAt b 0x40 16) (tr ++ List.replicate (ceilDiv tr.length 32 * 32 - tr.length) 0)
    (s, stOK, im.template + 2 ^ 8 * ep)
  | _, _ => (s.loadFailed p dst, stFault, 0)

/-! ### Section swaps (R389 to R391, R402) -/

/-- Lay the scale sets over a section in bank `b`; none when a set cannot be read. -/
def State.overlayAll (s : State) (p : Nat) (im : Loaded) (sec b : Nat) (sets : List Nat) : State × Bool :=
  sets.foldl (fun (a : State × Bool) dst =>
    let (s, bs) := a.1.imageBytes p dst
    match bs with
    | some x => (s.overlaySet p im x sec b, a.2)
    | none => (s, false)) (s, true)

/-- Write the content of section `sec` into the context half `half` and the active bank. -/
def State.installContent (s : State) (im : Loaded) (img : List Byte) (sec half b : Nat) : State :=
  (s.installSram im img sec half).installRescale im (im.of tyRescale sec) b

/-- Clear bank `b` of the rescale tables of a partition's regions. DEDUCED: log entry 74. -/
def State.clearBank (s : State) (p b : Nat) : State :=
  let rs := partRegions (s.part p)
  { s with lat := { s.lat with rescale := s.lat.rescale.filter (fun e => !decide (e.1 / 8192 / 64 ∈ rs ∧ e.1 / 4096 % 2 = b)) } }

/-- The prefetch of section `sec` (R390): its content goes into the other half, its words into the shadow copies and the
mirrors of contexts 2 and 3. The second result is false when neither copy could be read. -/
def State.prefetch (s : State) (p : Nat) (im : Loaded) (sec b : Nat) : State × Bool :=
  let (s, bs) := s.imageBytes p im.dst
  match bs with
  | none => (s, false)
  | some img =>
    let half := 1 - (s.part p).half
    let s := s.installContent im img sec half b
    let words := ((im.of tyUnit sec).foldl (fun l u => l ++ s.unitWords im u) []) ++ (im.slotWords sec).map (fun w => (w.1, w.2.1))
    let s := { s with lat := { s.lat with shadow := words.foldl (fun m w => mapSet m w.1 (BitVec.ofNat 32 w.2)) s.lat.shadow } }
    ((im.of tyUnit sec).foldl (fun s u =>
      let a := im.unitOf u
      (List.range 2).foldl (fun s k => if k ≤ ruNctx u then
        s.putWords [(aCtxA a (2 + k), ruA u k), (aCtxB a (2 + k), ruB u k), (aCtxC a (2 + k), ruC u k)] else s) s) s, true)

/-- Write bank `b` of a section: rescale entries and wide weights of the image, and the scale sets `sets` over them. The
second result is false when a set cannot be read. -/
def State.installBank (s : State) (p : Nat) (im : Loaded) (img : List Byte) (sec b : Nat) (sets : List Nat) : State × Bool :=
  let s := (s.clearBank p b).installRescale im (im.of tyRescale sec) b
  let s := (im.of tyGauntlet sec).foldl (fun s g =>
    match mapGet s.gau.layers (64 * fieldLE g.body 0 1 + fieldLE g.body 1 1) with
    | some l => s.installWide img b l g
    | none => s) s
  s.overlayAll p im sec b sets

/-- A swap to section `sec`; `pf` says that the section stands prefetched. Each bank gets the scale sets of its side of a
pending boundary. The second result is false when neither copy could be read. DEDUCED: log entry 74. -/
def State.swapTo (s : State) (p : Nat) (im : Loaded) (sec : Nat) (pf : Bool) : State × Bool :=
  let (s, bs) := s.imageBytes p im.dst
  match bs with
  | none => (s, false)
  | some img =>
    let pt := s.part p
    let b := pt.gen % 2
    let half := if pf then 1 - pt.half else 0
    let s := s.putPart p { pt with half := half }
    let rs := partRegions pt
    let s := s.installConfig rs im sec
    let shadowWords := s.lat.shadow.filter (fun e => rs.any (fun r => cfgReg r e.1))
    let s := if pf then shadowWords.foldl (fun s e => s.setReg e.1 e.2) s else s.installSram im img sec 0
    let s := { s with lat := { s.lat with shadow := s.lat.shadow.filter (fun e => !rs.any (fun r => cfgReg r e.1)) } }
    let s := s.installLayers p im img sec b false
    let (s, ok) := s.installBank p im img sec b pt.sets
    let (s, ok) := match pt.change with
      | some c =>
        if c.kind = 0 ∧ c.armed then
          let (s, ok2) := s.installBank p im img sec (1 - b) (pt.sets ++ [c.settings])
          (s, ok && ok2)
        else (s, ok)
      | none => (s, ok)
    (s.fillUnits rs im sec half, ok)

end Sys2Proof.Machine
end

