-- ==== Sys2Proof/Machine/Partition.lean ====
section
/-! DEFINITION. Partitions: binding regions (R293 to R301), START_AT, PAUSE and RESUME (R315, R321, R379, R394, R629),
mode changes (R309 to R314, R291, R432, R626), and their events. -/

namespace Sys2Proof.Machine

/-- STATE code of a partition state (R295). -/
def pstateCode : PState → Nat
  | .none => 0 | .bound => 1 | .loading => 2 | .loaded => 3 | .running => 4 | .pausing => 5 | .paused => 6 | .stopped => 7

/-- States in which a partition holds still: regions may leave it (R296). -/
def pstateStill : PState → Bool
  | .bound | .loaded | .paused | .stopped => true
  | _ => false

/-- Refused at step `n` of R618. -/
def at618 (st n : Nat) : Option (Nat × Nat) := some (st, det618 n)

/-! ### Regions leaving and joining (R293 to R301) -/

/-- The partition has lost its last region: it ceases to exist (R293, R298, R357, R450). -/
def State.cease (s : State) (p : Nat) : State :=
  let s := (s.disarmPart p).auditClosing p true
  let pt := s.part p
  let s := { s with deep := mapErase s.deep p
                    flt := { s.flt with zeroFills := if 0 < pt.allocSize then s.flt.zeroFills ++ [(pt.allocBase, pt.allocSize)] else s.flt.zeroFills } }
  s.putPart p part0

/-- The mask of a list of regions. -/
def regionMask (rs : List Nat) : BitVec 16 := rs.foldl (fun m r => m ||| BitVec.ofNat 16 (2 ^ r)) 0

/-- Regions `rs` leave partition `p` (R301). -/
def State.leave (s : State) (p : Nat) (rs : List Nat) : State :=
  let s : State :=
    if rs.any (fun r => decide (s.regionMode r ≠ 0)) then
      let dg := match (s.part p).image with | some im => im.digest | none => []
      let s := (s.auditCtrl p 0x0A 0 0 (regionMask rs).toNat dg [] []).unload p
      s.putPart p { s.part p with state := .bound }
    else s
  let pt := s.part p
  let s := s.putPart p { pt with regions := pt.regions &&& ~~~regionMask rs }
  if (s.part p).regions = 0 then s.cease p else s

/-- The allocation that a BIND names meets another partition's or an armed capture ring (R297). -/
def State.allocMeets (s : State) (p base size : Nat) : Bool :=
  s.parts.any (fun e => decide (e.1 ≠ p) && unitsMeet base size e.2.allocBase e.2.allocSize)
    || s.cap.groups.any (fun e => e.2.armed && unitsMeet base size e.2.ringBase e.2.ringSize)

/-- Checks of BIND past the ownership of the named partition, in the order of R299: a fused region, another owner's region, then
state and ranges (R5, R296 to R298). DEDUCED: log entry 23. -/
def State.bindCheck (s : State) (port : Port) (p : Nat) (rs : List Nat) (base size : Nat) : Option (Nat × Nat) :=
  let pt := s.part p
  let srcs := (rs.filterMap s.regionPart).filter (fun q => decide (q ≠ p))
  if rs.any s.isFused then at618 stRange 5
  else if srcs.any (fun q => decide ((s.part q).owner ≠ some port)) then at618 stOwner 3
  else if !(pstateStill pt.state || decide (pt.state = .none)) || srcs.any (fun q => !pstateStill (s.part q).state) then
    at618 stState 4
  else if pt.state = .none ∧ s.flt.zeroFills.any (fun z => unitsMeet base size z.1 z.2) then at618 stState 4
  else if pt.state = .none ∧ rs.isEmpty then at618 stRange 5
  else if pt.state = .none then
    (if 768 < base + size ∨ s.allocMeets p base size then at618 stRange 5 else none)
  else if size ≠ 0 ∧ (base ≠ pt.allocBase ∨ size ≠ pt.allocSize) then at618 stRange 5
  else none

/-- BIND (R297 to R301). -/
def State.bindCmd (s : State) (port : Port) (p : Nat) (mask : BitVec 16) (base size : Nat) : CmdRes :=
  let rs := maskList 16 mask.toNat
  match s.bindCheck port p rs base size with
  | some (st, d) => refusal s st d
  | none =>
    let s : State :=
      if (s.part p).state = .none then
        let g := s.genesis p port
        let s := { s with chains := mapSet s.chains p ⟨g, sha384 g, [], [], 0⟩ }
        let s := s.setReg (aPwr 0 (0x100 + 4 * p)) 0xFFFFFFFF
        s.putPart p { part0 with owner := some port, state := .bound, allocBase := base, allocSize := size }
      else s
    let srcs := ((rs.filterMap s.regionPart).filter (fun q => decide (q ≠ p))).eraseDups
    let s := srcs.foldl (fun s q => s.leave q (rs.filter (fun r => decide (s.regionPart r = some q)))) s
    let pt := s.part p
    (s.putPart p { pt with regions := pt.regions ||| mask }, stOK, 0, 0)

/-- UNBIND (R5, R296, R301). DEDUCED: log entry 23. -/
def State.unbindCmd (s : State) (p : Nat) (mask : BitVec 16) : CmdRes :=
  let rs := maskList 16 mask.toNat
  if !pstateStill (s.part p).state then refusal s stState (det618 4)
  else if rs.any s.isFused ∨ rs.isEmpty ∨ rs.any (fun r => decide (s.regionPart r ≠ some p)) then refusal s stRange (det618 5)
  else (s.leave p rs, stOK, 0, 0)

/-- The zero fill of a range ends: all four stacks read zero there, with valid check bits (R298). -/
def State.zeroFillDone (s : State) (base : Nat) : State :=
  match s.flt.zeroFills.find? (fun z => decide (z.1 = base)) with
  | none => s
  | some (b, n) =>
    let a := b * 2 ^ 26
    let len := n * 2 ^ 26
    { s with flt := { s.flt with
        zeroFills := s.flt.zeroFills.filter (fun z => decide (z ≠ (b, n)))
        stack := (List.range 4).foldl (fun m k => memZero m (stackBytes * k + a) len) s.flt.stack
        memBad := s.flt.memBad.filter (fun e =>
          !((List.range 4).any (fun k => decide (2 ^ 31 * k + a / 32 ≤ e.1 ∧ e.1 < 2 ^ 31 * k + (a + len) / 32)))) } }

/-! ### START_AT, RESUME, ADMISSION_OPEN (R211, R321, R379, R394, R629) -/

/-- Set the schedule counts of every island to `v` (R39, R211, R345). Times kept by count go with it (R558, R559). -/
def State.setCounts (s : State) (v : Nat) : State :=
  { s with seq := { s.seq with count0 := v, count1 := v }, tim := { s.tim with hist := [] } }

/-- First cycle at or after `t` that is an entry slot. -/
def firstSlot (t e phi : Nat) : Nat := if e = 0 then t else t + (phi + (e - t % e)) % e

/-- First entry slot of the partition's programs at or after `t`. -/
def Loaded.openAt (im : Loaded) (t : Nat) : Nat :=
  match (im.of tyProgram 0).map (fun r => firstSlot t (prE r) (prPhi r)) with
  | [] => t
  | x :: xs => xs.foldl min x

/-- Bytes of the content of region `l` in section `sec`: operand areas, SRAM records, rescale entries (R389). -/
def Loaded.contentBytes (im : Loaded) (sec l : Nat) : Nat :=
  let at_ := fun (r : ImgRec) => decide (r.lregion = l)
  0x480 * ((im.of tyOperand sec).filter at_).length
    + ((im.of tySram sec).filter at_).foldl (fun n r => n + fieldLE r.body 4 4) 0
    + ((im.of tyRescale sec).filter at_).foldl (fun n r => n + 16 * fieldLE r.body 2 2) 0

/-- Bound of the swap into section `sec` in microseconds (R389). -/
def Loaded.swapBound (im : Loaded) (sec : Nat) (pf : Bool) : Nat :=
  if pf then 8
  else (List.range im.map.length).foldl (fun m l => max m (40 + 12 * ceilDiv (im.contentBytes sec l - 3 * 2 ^ 20) (2 ^ 20))) 40

/-- Successor of a section: NEXT, or section 0 at the end (R385). -/
def Loaded.succ (im : Loaded) (sec : Nat) : Nat :=
  match im.sect sec with | some r => if secNext r = 0xFF then 0 else secNext r | none => 0
/-- The section prefetches its successor. -/
def Loaded.prefetchAt (im : Loaded) (sec : Nat) : Bool :=
  match im.sect sec with | some r => secPrefetch r | none => false

/-- `T_pass` of R394 in tenths of a nanosecond. -/
def Loaded.passTime (im : Loaded) (g e pmax : Nat) : Nat :=
  (List.range im.nsect).foldl (fun n k =>
    n + 8 * (im.span k g + 1 + (pmax - 1) * e + e)
      + (if 1 < im.nsect then 10000 * im.swapBound (im.succ k) (im.prefetchAt k) else 0)) 0

/-- Byte ranges that START_AT names or that R382 gives on a deep partition: queue, ring, intermediate areas. -/
def Loaded.deepRanges (im : Loaded) (q : DeepParams) : List (Nat × Nat) :=
  [(64 * q.rqBase, 64 * q.rqSlot * q.rqDepth), (64 * q.rrBase, 64 * (1 + q.rrSlot * q.rrDepth))]
    ++ ((List.range im.nsect).filterMap im.sect).map (fun r => (secBase r, q.pmax * secLen r))

/-- No two ranges of a list meet. -/
def rangesApart : List (Nat × Nat) → Bool
  | [] => true
  | x :: xs => xs.all (fun y => !rangesMeet x.1 x.2 y.1 y.2) && rangesApart xs

/-- The checks of R379 on the fields of START_AT. -/
def Partition.deepFits (pt : Partition) (im : Loaded) (q : DeepParams) : Bool :=
  let rs := im.deepRanges q
  decide (1 ≤ q.pmax ∧ q.pmax ≤ 4096 ∧ 1 ≤ q.rqSlot ∧ q.rqSlot < 65536 ∧ 1 ≤ q.rqDepth ∧ q.rqDepth < 65536
      ∧ 2 ≤ q.rrSlot ∧ q.rrSlot < 65536 ∧ 1 ≤ q.rrDepth ∧ q.rrDepth < 65536)
    && rs.all (fun r => decide (r.1 + r.2 ≤ partLen pt)) && rangesApart rs
    && pt.staged.all (fun x => rs.all (fun r => !rangesMeet r.1 r.2 x.dst x.len))

/-- Checks of START_AT (R211, R296, R379, R394, R629). DEDUCED: log entry 12. -/
def State.startCheck (s : State) (p : Nat) (align : Bool) (t : Nat) (q : DeepParams) : Option (Nat × Nat) :=
  let pt := s.part p
  match pt.state, pt.image with
  | .loaded, some im =>
    if pt.opensAt.isSome then at618 stState 4
    else if align && s.parts.any (fun e => decide (e.2.state = .running ∨ e.2.state = .pausing)) then at618 stState 4
    else if t % 4096 ≠ 0 ∨ 2 ^ 64 ≤ t then at618 stRange 5
    else if im.kind = 1 ∧ !pt.deepFits im q then at618 stRange 5
    else if !align && decide (t < s.cycle 0 + 64) then at618 stTiming 6
    else
      match im.prog 0 with
      | some r => if im.kind = 1 ∧ 10000 * im.decl 0 < 2 * im.passTime 0 (prE r) q.pmax then at618 stTiming 6 else none
      | none => none
  | _, _ => at618 stState 4

/-- START_AT is accepted: counts set where ALIGN says so, a deep partition's queue and ring made, the opening awaited.
Records that wait stay where the record queue keeps its place and slots (R391). DEDUCED: log entry 22. -/
def State.startBegin (s : State) (p : Nat) (align : Bool) (t : Nat) (q : DeepParams) : State :=
  let s := if align then s.setCounts t else s
  let pt := s.part p
  let s := s.putPart p { pt with opensAt := some t }
  match pt.image with
  | none => s
  | some im =>
    match im.prog 0 with
    | none => s
    | some r =>
      if im.kind ≠ 1 then s
      else
        let keep := match mapGet s.deep p with
          | some x => if x.stream = prStream r ∧ x.par.rqBase = q.rqBase ∧ x.par.rqSlot = q.rqSlot ∧ x.par.rqDepth = q.rqDepth then
              some (x.queue, x.nextSlot) else none
          | none => none
        let x : Deep := { par := q, stream := prStream r, e := prE r, phi := prPhi r, decl := im.decl 0,
                          queue := (keep.getD ([], 0)).1, nextSlot := (keep.getD ([], 0)).2, pass := none, section_ := 0,
                          swap := false, pfReady := false, passN := 0, wr := 0, refused := false }
        let s := { s with deep := mapSet s.deep p x }
        s.stackWrite (2 * im.resultDie) (deepRing (s.part p) x) (leBytes 4 0)

/-- Checks of RESUME (R296, R321). DEDUCED: log entry 12. -/
def State.resumeCheck (s : State) (p t : Nat) : Option (Nat × Nat) :=
  let pt := s.part p
  if pt.state ≠ .paused ∨ pt.opensAt.isSome then at618 stState 4
  else if t < s.cycle 0 + 64 then at618 stTiming 6 else none

/-- RESUME is accepted. DEDUCED: log entry 22. -/
def State.resumeBegin (s : State) (p t : Nat) : State :=
  s.putPart p { s.part p with opensAt := some t, saved := false }

/-- Admission opens at the first entry slot at or after `T` (R321, R629): the partition runs, and START_AT or RESUME ends
with the cycle of that slot. DEDUCED: log entry 22. -/
def State.admissionOpen (s : State) (p : Nat) : State :=
  let pt := s.part p
  match pt.opensAt, pt.image with
  | some t, some im =>
    let c := im.openAt t
    if s.cycle 0 < c ∨ (pt.state ≠ .loaded ∧ pt.state ≠ .paused) then s
    else
      let s := s.putPart p { pt with state := .running, opensAt := none }
      let s := if pt.state = .paused then s.auditCtrl p 0x07 0 0 0 [] [] [] else s
      match s.partOp p [0x20, 0x24] with
      | some o => s.finishOp o stOK 0 c
      | none => s
  | _, _ => s

/-! ### PAUSE (R302, R315, R357, R401) -/

/-- PAUSE is accepted: admission closes at once. -/
def State.pauseBegin (s : State) (p : Nat) : State :=
  let s := s.closePart p
  s.putPart p { s.part p with state := .pausing }

/-- Die on which a stream's map entry is VALID. -/
def State.streamDie (s : State) (st : Nat) : Nat := if s.smapValid 0 st then 0 else if s.smapValid 1 st then 1 else 0

/-- Every instance of a pausing partition has completed, and a deep one's pass has ended with section 0 installed. -/
def State.drained (s : State) (p : Nat) : Bool :=
  decide ((s.part p).state = .pausing) && !s.seq.insts.any (fun x => decide (x.part = p))
    && (match mapGet s.deep p with
        | some x => x.pass.isNone && !x.swap && decide (x.section_ = 0)
        | none => true)

/-- PAUSE completes (R315): PAUSE entries, the batch closes, the partition is PAUSED. -/
def State.pauseDrained (s : State) (p : Nat) : State :=
  if !s.drained p then s
  else
    let s := s.putPart p { s.part p with state := .paused }
    let s : State := match (s.part p).image with
      | some im => (sortBy prNum (im.of tyProgram 0)).foldl (fun s r =>
          let st := prStream r
          s.auditCtrl p 0x04 st (s.nextSeq (s.streamDie st) st - 1) 0 [] [] []) s
      | none => s
    let s := s.auditClosing p false
    match s.partOp p [0x21] with
    | some o => s.finishOp o stOK 0 0
    | none => s

/-! ### Mode changes (R309 to R314) -/

/-- Final contexts of a cluster's MAC units in a section of the image that name rescale entry `e`: the unit and context. DEDUCED: log entry 75. -/
def Loaded.namers (im : Loaded) (img : List Byte) (sec l c e : Nat) : List (ImgRec × Nat) :=
  ((im.of tyUnit sec).filter (fun u => decide (u.lregion = l ∧ u.cluster = c ∧ ruKind u = 0))).foldl (fun a u =>
    a ++ ((ruCtxs u).filter (fun k => cbFinal (ruB u k) && (match im.operandRec sec k u with
      | some r => (List.range 16).any (fun j => decide (operandEntry (operandArea img r) j = e))
      | none => false))).map (fun k => (u, k))) []

/-- Entries of a RESCALE record. -/
def rescaleOf (r : ImgRec) : List (Nat × BitVec 128) :=
  (List.range (fieldLE r.body 2 2)).map (fun i => (fieldLE r.body 0 2 + i, BitVec.ofNat 128 (fieldLE r.body (8 + 16 * i) 16)))

/-- A record of a scale set names only what the image holds (R291). -/
def Loaded.setHolds (im : Loaded) (img : List Byte) (r : ImgRec) : Bool :=
  let sec := r.section_
  if r.typ = tyRescale then
    (rescaleOf r).all (fun e =>
      (im.of tyRescale sec).any (fun q => decide (q.lregion = r.lregion ∧ q.cluster = r.cluster ∧ fieldLE q.body 0 2 ≤ e.1
        ∧ e.1 < fieldLE q.body 0 2 + fieldLE q.body 2 2)) || !(im.namers img sec r.lregion r.cluster e.1).isEmpty)
  else if r.typ = tyInq then
    (List.range (fieldLE r.body 4 2)).all (fun i => (im.of tyInq 0).any (fun q =>
      decide (fieldLE q.body 0 1 = fieldLE r.body 0 1 ∧ fieldLE q.body 2 2 ≤ fieldLE r.body 2 2 + i
        ∧ fieldLE r.body 2 2 + i < fieldLE q.body 2 2 + fieldLE q.body 4 2)))
  else if r.typ = tyMonitor then
    (im.of tyMonitor sec).any (fun q => decide (bytesAt q.body 0 2 = bytesAt r.body 0 2))
      && (List.range (fieldLE r.body 2 2)).all (fun i =>
        (im.of tyUnit sec).any (fun u => decide (ruLidx u = fieldLE r.body (0x18 + 4 * i) 4)))
  else (im.of tyGauntlet sec).any (fun q => decide (bytesAt q.body 0 2 = bytesAt r.body 0 2))

/-- New entries of a scale set meet R92 and R101. -/
def Loaded.setEntries (im : Loaded) (img : List Byte) (r : ImgRec) : Bool :=
  if r.typ = tyRescale then
    (rescaleOf r).all (fun e => reValid e.2 && (im.namers img r.section_ r.lregion r.cluster e.1).all (fun n =>
      decide (reAccum e.2 = 0 ∨ reAccum e.2 = caOp (ruA n.1 n.2) + 1)))
  else if r.typ = tyInq then tablesOk r
  else true

/-- A GAUNTLET record of a scale set changes only weights, biases and E_OUT. -/
def Loaded.setGauntlet (im : Loaded) (r : ImgRec) : Bool :=
  decide (r.typ ≠ tyGauntlet) || (im.of tyGauntlet r.section_).any (fun q =>
    decide (bytesAt q.body 0 0xE = bytesAt r.body 0 0xE ∧ bytesAt q.body 0xF 0x11 = bytesAt r.body 0xF 0x11
      ∧ bytesAt q.body 0x38 8 = bytesAt r.body 0x38 8))

/-- A new entry stays in the mode class of the image's. -/
def Loaded.setClass (im : Loaded) (r : ImgRec) : Bool :=
  decide (r.typ ≠ tyRescale) || (rescaleOf r).all (fun e =>
    decide (reClass e.2 = reClass (im.rescaleEntry r.section_ r.lregion r.cluster e.1)))

/-- Checks of a staged scale set with held digest `dg` (R291, R292): the order of the first that fails. DEDUCED: log entry 75. -/
def State.setCheck (s : State) (im : Loaded) (img b : List Byte) (len : Nat) (dg : List Byte) : Option Nat :=
  match imgCheck b len dg (some im.nlregs) s.sigNeed s.ownerKeys with
  | some n => some n
  | none =>
    let rs := im.setRecs b
    if bytesAt b 0x54 8 = bytesAt im.digest 0 8 ∧ iNtempl b = im.ntempl ∧ iNsect b = im.nsect
        ∧ rs.all (im.setHolds img) ∧ rs.all (im.setEntries img) ∧ rs.all im.setGauntlet ∧ rs.all im.setClass then none
    else some 10

/-- SET_MODE_AT without CANCEL: checks before its kind's own (R296, R309, R313, R626). -/
def State.modeCheck (s : State) (p stream n : Nat) : Option (Nat × Nat) :=
  let pt := s.part p
  match pt.state, pt.image with
  | .loaded, some im | .running, some im | .paused, some im =>
    if pt.change.isSome then at618 stState 4
    else if (im.progOf stream).isNone ∨ 2 ^ 48 ≤ n then at618 stRange 5 else none
  | _, _ => at618 stState 4

/-- A mode change is accepted: it is pending, and its shadow content is being filled (R312). -/
def State.modeBegin (s : State) (p : Nat) (c : ModeChange) : State :=
  s.putPart p { s.part p with change := some c, filling := true }

/-- SET_MODE_AT of kind 0. -/
def State.setModeScale (s : State) (p stream n settings : Nat) : State × Option (Nat × Nat) :=
  match s.modeCheck p stream n with
  | some e => (s, some e)
  | none =>
    match (s.part p).image, (s.part p).stagedAt settings with
    | some im, some x =>
      let (s, img) := s.imageBytes p im.dst
      let (s, b) := s.imageBytes p settings
      match img, b with
      | some img, some b =>
        match s.setCheck im img b x.len x.digest with
        | some k => (s, some (stImage, 0x200 + k))
        | none =>
          let pt := s.part p
          let s := s.putPart p { pt with staged := pt.staged.map (fun y => if y.dst = settings then { y with auth := true } else y) }
          (s.modeBegin p ⟨0, stream, n, settings, 0, [], false, none, 0, bytesAt b (iCover b) 48⟩, none)
      | _, _ => (s, some (stFault, 0))
    | _, _ => (s, at618 stState 4)

/-- The trigger settings that a kind-1 change names, read from the allocation in the layout of an arm block (R432). -/
def State.kind1Block (s : State) (p settings : Nat) : List Byte :=
  let pt := s.part p
  let rd := fun n => s.stackRead (2 * partDie pt) (partBase pt + settings) n
  rd (abLen (rd 128))

/-- SET_MODE_AT of kind 1. -/
def State.setModeTrigger (s : State) (p stream n settings : Nat) : State × Option (Nat × Nat) :=
  match s.modeCheck p stream n with
  | some e => (s, some e)
  | none =>
    let b := s.kind1Block p settings
    if partLen (s.part p) < settings + b.length ∨ !s.kind1Ok p b then (s, at618 stRange 5)
    else (s.modeBegin p ⟨1, stream, n, settings, 0, [], false, none, 0, sha384 b⟩, none)

/-- SET_MODE_AT of kind 2 (R626). -/
def State.setModeSeeds (s : State) (p stream n pmask : Nat) (seeds : List Nat) : State × Option (Nat × Nat) :=
  match s.modeCheck p stream n with
  | some e => (s, some e)
  | none =>
    let ps := maskList 16 pmask
    let held := match (s.part p).image with | some im => ps.all (fun g => (im.prog g).isSome) | none => false
    if 2 ^ 16 ≤ pmask ∨ 4 < ps.length ∨ !held then (s, at618 stRange 5)
    else
      let field := (List.range 4).foldl (fun l i => l ++ leBytes 8 (seeds.getD i 0)) []
      (s.modeBegin p ⟨2, stream, n, 0, pmask, seeds, false, none, 0, sha384 field⟩, none)

/-- A scale set draws on its staged copy no longer. -/
def State.dropAuth (s : State) (p settings : Nat) : State :=
  let pt := s.part p
  if decide (settings ∈ pt.sets) || (match pt.image with | some im => decide (im.dst = settings) | none => false) then s
  else s.putPart p { pt with staged := pt.staged.map (fun y => if y.dst = settings then { y with auth := false } else y) }

/-- The pending change is gone: its shadow content and staged set with it. DEDUCED: log entry 21. -/
def State.modeDrop (s : State) (p : Nat) (c : ModeChange) : State :=
  let s := if c.kind = 1 then s.kind1Drop p else s
  let s := s.putPart p { s.part p with change := none, filling := false }
  if c.kind = 0 then s.dropAuth p c.settings else s

/-- SET_MODE_AT with CANCEL (R313, R314). DEDUCED: log entry 21. -/
def State.modeCancel (s : State) (p : Nat) : CmdRes :=
  let pt := s.part p
  match pt.state, pt.change with
  | .loaded, some c | .running, some c | .paused, some c =>
    if c.boundary.isSome then refusal s stTiming (det618 6)
    else
      let s := s.modeDrop p c
      let s := match s.partOp p [0x25] with
        | some o => if pt.filling then s.finishOp o stState (det618 4) 0 else s
        | none => s
      (s.auditCtrl p 0x03 c.stream 0 (c.kind + c.n * 2 ^ 16) c.digest [] [], stOK, 0, 0)
  | _, _ => refusal s stState (det618 4)

/-- Copy a bank of a map over the other one, for the keys that `f` names; bank bit `2 ^ w`. -/
def copyBank {α : Type} (m : AMap α) (w from_ : Nat) (f : Nat → Bool) : AMap α :=
  let keep := m.filter (fun e => !(f e.1 && decide (e.1 / 2 ^ w % 2 ≠ from_)))
  (m.filter (fun e => f e.1 && decide (e.1 / 2 ^ w % 2 = from_))).foldl (fun a e =>
    mapSet a (if from_ = 0 then e.1 + 2 ^ w else e.1 - 2 ^ w) e.2) keep

/-- Copy the active bank `b` of everything that a scale set holds over the shadow bank (R291). -/
def State.copyActive (s : State) (p : Nat) (im : Loaded) (b : Nat) : State :=
  let rs := partRegions (s.part p)
  let claim := fun (k : Nat) => (im.of tyInq 0).any (fun r =>
    decide (k / 8192 = fieldLE r.body 0 1 ∧ fieldLE r.body 2 2 ≤ k % 4096 ∧ k % 4096 < fieldLE r.body 2 2 + fieldLE r.body 4 2))
  let inReg := fun (k : Nat) => decide (k / 8192 / 64 ∈ rs)
  let ls := s.gau.layers.filter (fun e => decide (e.2.part = p))
  let wide := fun (a : Nat) => ls.any (fun e =>
    let base := 2 ^ 23 * (4 * (e.1 / 64) + e.2.engine) + e.2.wtBase
    decide (base ≤ a % 2 ^ 22 + a / 2 ^ 23 * 2 ^ 23 ∧ a % 2 ^ 22 + a / 2 ^ 23 * 2 ^ 23 < base + 2 * e.2.cIn * e.2.cOut + 4 * e.2.cOut))
  { s with
    lat := { s.lat with rescale := copyBank s.lat.rescale 12 b inReg, inq := copyBank s.lat.inq 12 b claim,
                         inqLidx := copyBank s.lat.inqLidx 12 b claim }
    flt := { s.flt with rescaleBad := copyBank s.flt.rescaleBad 12 b inReg, inqBad := copyBank s.flt.inqBad 12 b claim }
    gau := { s.gau with
      wide := copyBank s.gau.wide 22 b wide
      layers := s.gau.layers.map (fun e => if e.2.part = p then
        (e.1, if b = 0 then { e.2 with lim1 := e.2.lim0, eOut1 := e.2.eOut0 } else { e.2 with lim0 := e.2.lim1, eOut0 := e.2.eOut1 })
        else e) } }

/-- The shadow fill of a mode change completes: the boundary is armed, or the change ends because the reference stream has
passed it (R312). DEDUCED: log entry 21. -/
def State.modeArm (s : State) (p : Nat) : State :=
  let pt := s.part p
  match pt.change, pt.image with
  | some c, some im =>
    if !pt.filling then s
    else
      let done := fun (s : State) (st det : Nat) => match s.partOp p [0x25] with | some o => s.finishOp o st det 0 | none => s
      if c.n < s.nextSeq (s.streamDie c.stream) c.stream then done (s.modeDrop p c) stTiming (det618 6)
      else
        let sec := match mapGet s.deep p with | some x => x.section_ | none => 0
        let (s, ok) :=
          if c.kind = 0 then
            let (s, b) := s.imageBytes p c.settings
            match b with
            | some b => ((s.copyActive p im (pt.gen % 2)).overlaySet p im b sec (1 - pt.gen % 2), true)
            | none => (s, false)
          else if c.kind = 1 then (s.kind1Stage (s.kind1Block p c.settings), true)
          else (s, true)
        if !ok then done (s.modeDrop p c) stFault 0
        else done (s.putPart p { s.part p with change := some { c with armed := true }, filling := false }) stOK 0
  | _, _ => s

/-- The boundary instance and every earlier one have completed (R312). -/
def State.modePassed (s : State) (p : Nat) (c : ModeChange) : Bool :=
  match c.boundary with
  | none => false
  | some b =>
    !s.seq.insts.any (fun x => decide (x.part = p)
      && (if s.deepInst x then decide (x.seq ≤ c.boundarySeq) else decide (x.ingest ≤ b)))

/-- The change is complete: PENDING clears, and the new settings are the partition's (R130, R133, R312). DEDUCED: log entry 91. -/
def State.modeDone (s : State) (p : Nat) : State :=
  let pt := s.part p
  match pt.change with
  | none => s
  | some c =>
    if !(c.armed && s.modePassed p c) then s
    else
      let pt := { pt with change := none }
      match c.kind with
      | 0 =>
        let s := s.putPart p { pt with gen := pt.gen + 1, sets := pt.sets ++ [c.settings] }
        (partRegions pt).foldl (fun s r =>
          let a := aScl (r / 8) (0x100 + 4 * (r % 8))
          s.setField a 31 16 ((s.field a 31 16 + 1) % 65536)) s
      | 1 => s.putPart p pt
      | _ =>
        s.putPart p { pt with seeds := (maskList 16 c.pmask).zipIdx.foldl (fun m e =>
          mapPut m e.1 (BitVec.ofNat 64 (c.seeds.getD e.2 0)) 0) pt.seeds }

/-! ### Meanings -/

/-- ADMISSION_OPEN (R321, R629). -/
def execAdmissionOpen (p : Nat) (s : State) : Host.Outcome State Fault Refusal :=
  .next (s.only (.admissionOpen p) (s.admissionOpen p))
/-- PAUSE_DRAINED (R315). -/
def execPauseDrained (p : Nat) (s : State) : Host.Outcome State Fault Refusal :=
  .next (s.only (.pauseDrained p) (s.pauseDrained p))
/-- MODE_CHANGE_ARM (R312). -/
def execModeChangeArm (p : Nat) (s : State) : Host.Outcome State Fault Refusal :=
  .next (s.only (.modeChangeArm p) (s.modeArm p))
/-- MODE_CHANGE_DONE (R312). -/
def execModeChangeDone (p : Nat) (s : State) : Host.Outcome State Fault Refusal :=
  .next (s.only (.modeChangeDone p) (s.modeDone p))
/-- ZERO_FILL_DONE (R298). -/
def execZeroFillDone (base : Nat) (s : State) : Host.Outcome State Fault Refusal :=
  .next (s.only (.zeroFillDone base) (s.zeroFillDone base))

end Sys2Proof.Machine
end

