-- ==== Sys2Proof/Machine/SaveArea.lean ====
section
/-! DEFINITION. SAVE_STATE and RESTORE_STATE: the save area, what is written and what is read back (R317 to R326). -/

namespace Sys2Proof.Machine

/-! ### Layout (R323) -/

/-- Bound regions of die `d`, by ordinal. -/
def Loaded.bound (im : Loaded) (d : Nat) : List Nat := im.map.filter (fun r => decide (r / 8 = d))
/-- Dies that hold a bound region. -/
def Loaded.dies (im : Loaded) : List Nat := [0, 1].filter (fun d => !(im.bound d).isEmpty)
/-- Length of a die area with `n` bound regions. -/
def areaLen (n : Nat) : Nat := 2 ^ 26 * (n + 1) + 2 ^ 22 * n
/-- Stack byte of the die area at save base `b` of a partition's allocation. -/
def areaByte (pt : Partition) (b : Nat) : Nat := partBase pt + 2 ^ 26 * b
/-- Offset of the region block of ordinal `k`. -/
def regionBlock (k : Nat) : Nat := 2 ^ 26 * (k + 1)
/-- Offset of the sideband block of ordinal `k` in an area of `n` regions. -/
def sideBlock (n k : Nat) : Nat := 2 ^ 26 * (n + 1) + 2 ^ 22 * k

/-- Entry and side streams of an image: stream, role, program. -/
def Loaded.streams (im : Loaded) : List (Nat × Nat × Nat) :=
  (sortBy prNum (im.of tyProgram 0)).foldl (fun l r =>
    l ++ (prStream r, 0, prNum r) :: (prSides r).map (fun st => (st, 1, prNum r))) []

/-- Wide-weight ranges that the image claims on die `d`: engine, first byte, length. -/
def Loaded.wideClaims (im : Loaded) (d : Nat) : List (Nat × Nat × Nat) :=
  (im.recs.filter (fun r => decide (r.typ = tyGauntlet ∧ fieldLE r.body 0 1 = d))).map
    (fun r => (fieldLE r.body 2 1, fieldLE r.body 0x38 8, recWide r.body))

/-- Quantiser ranges that the image claims on die `d`. -/
def Loaded.inqClaims (im : Loaded) (d : Nat) : List (Nat × Nat) :=
  ((im.of tyInq 0).filter (fun r => decide (fieldLE r.body 0 1 = d))).map (fun r => (fieldLE r.body 2 2, fieldLE r.body 4 2))

/-- Put bytes at an offset of the area. -/
abbrev Chunk := Nat × List Byte

/-- The 36 bytes of a token record that are not reserved (R325). -/
def tokenRecord (h : Held) : List Byte := leBytes 32 h.tok.payload.toNat ++ leBytes 4 h.tok.side.toNat

/-- `n` zero bytes. -/
def zeroBytes (n : Nat) : List Byte := List.replicate n 0

/-! ### What SAVE_STATE writes (R318, R324 to R326) -/

/-- Chunks of unit `u` at its cluster block `o`. -/
def State.saveUnit (s : State) (o a : Nat) : List Chunk :=
  let x := s.unit a
  let u := uUnit a
  let pool := fun q => (List.range q).foldl (fun n i => n + s.uDepth a i) 0
  let qs := (List.range 4).foldl (fun l q => l ++ (x.queue q).zipIdx.map (fun h =>
    (o + 0x4000 + 0x4000 * u + 0x40 * (pool q + h.2), tokenRecord h.1))) []
  let outs := (List.range 2).foldl (fun l p => l ++ (x.out p).zipIdx.map (fun h =>
    (o + 0x1000 + 0x200 * u + 0x100 * p + 0x40 * h.2, tokenRecord h.1))) []
  (o + 0x100 + 0x40 * u,
    (List.range 4).foldl (fun l q => l ++ leBytes 1 (x.queue q).length) [] ++ leBytes 1 x.out0.length ++ leBytes 1 x.out1.length
      ++ leBytes 1 x.actx ++ [0] ++ leBytes 4 x.fdone ++ leBytes 4 x.rdCount) :: (qs ++ outs)

/-- Chunks of cluster key `k` at block `o`; `b` is the active bank. -/
def State.saveCluster (s : State) (o k b : Nat) : List Chunk :=
  let c := s.cluster k
  let bank := fun (q base : Nat) => (s.lat.rescale.filter (fun e => decide (e.1 / 4096 = 2 * k + q))).map
    (fun e => (o + base + 16 * (e.1 % 4096), leBytes 16 e.2.toNat))
  (o, [BitVec.ofNat 8 (bitOf c.latched.isSome), BitVec.ofNat 8 c.scaleQ.length])
    :: (match c.latched with | some h => [(o + 0x800, tokenRecord h)] | none => [])
    ++ c.scaleQ.zipIdx.map (fun h => (o + 0x840 + 0x40 * h.2, tokenRecord h.1))
    ++ (List.range 20).foldl (fun l u => l ++ s.saveUnit o (32 * k + u)) []
    ++ (s.lat.sram.filter (fun e => decide (e.1 / 2 ^ 19 = k))).map (fun e => (o + 0x60000 + e.1 % 2 ^ 19, [e.2]))
    ++ bank b 0xE0000 ++ bank (1 - b) 0xF0000

/-- Chunks of one region of ordinal `n` in an area of `tot` regions. -/
def State.saveRegion (s : State) (tot n r b : Nat) : List Chunk :=
  (List.range 64).foldl (fun l c => l ++ s.saveCluster (regionBlock n + 2 ^ 20 * c) (64 * r + c) b) []
    ++ (s.lat.sideCol.filter (fun e => decide (e.1 / 2 ^ 14 / 64 = r))).map (fun e =>
      (sideBlock tot n + 0x10000 * (e.1 / 2 ^ 14 % 64) + 4 * (e.1 % 2 ^ 14), leBytes 4 e.2.toNat))

/-- The record of a layer slot (R324). -/
def layerRecord (slot b : Nat) (l : Layer) : List Byte :=
  let e := fun (q : Nat) => if q = 0 then l.eOut0 else l.eOut1
  let m := fun (q : Nat) => bytesAt (if q = 0 then l.lim0 else l.lim1) 0 16
  [BitVec.ofNat 8 slot, BitVec.ofNat 8 (1 + 2 * bitOf l.nLast.isSome), e b, e (1 - b), 0#8, 0#8, 0#8, 0#8]
    ++ leBytes 8 l.n.toNat ++ leBytes 8 (l.nLast.getD 0).toNat ++ zeroBytes 8 ++ m b ++ m (1 - b)

/-- The die header (R324), AREA_CHECK as zero. -/
def State.saveHeader (s : State) (p d : Nat) (im : Loaded) : List Byte :=
  let pt := s.part p
  let rs := im.bound d
  let c := pt.change
  let head := match mapGet s.chains p with | some c => c.head | none => []
  leBytes 4 0x45564153 ++ leBytes 2 0x0100 ++ ([BitVec.ofNat 8 d, BitVec.ofNat 8 p,
      BitVec.ofNat 8 (match c with | some c => 1 + 2 * c.kind | none => 0), BitVec.ofNat 8 im.template,
      BitVec.ofNat 8 pt.epoch.toNat, BitVec.ofNat 8 rs.length] : List Byte)
    ++ leBytes 2 im.streams.length ++ zeroBytes 2 ++ bytesAt im.digest 0 48 ++ leBytes 8 (pt.saveCount + 1)
    ++ (List.range 16).foldl (fun l g => l ++ leBytes 8 (mapGetD pt.seeds g 0).toNat) []
    ++ leBytes 2 (match c with | some c => c.stream | none => 0) ++ zeroBytes 6
    ++ leBytes 8 (match c with | some c => c.n | none => 0) ++ bytesAt (match c with | some c => c.digest | none => []) 0 48
    ++ bytesAt head 0 48 ++ zeroBytes 8
    ++ (List.range 8).foldl (fun l k => l ++ (match rs[k]? with
        | some r => leBytes 2 (s.field (aLat r 0) 15 0) ++ leBytes 2 (s.field (aScl (r / 8) (0x100 + 4 * (r % 8))) 31 16)
            ++ [BitVec.ofNat 8 (pt.gen % 2), BitVec.ofNat 8 (s.regionMode r), 0#8, 0#8]
        | none => zeroBytes 8)) []

/-- Every chunk of the area of die `d`. -/
def State.saveChunks (s : State) (p d : Nat) (im : Loaded) : List Chunk :=
  let b := (s.part p).gen % 2
  let rs := im.bound d
  let inq := fun (q base : Nat) => (im.inqClaims d).foldl (fun l c => l ++ (List.range c.2).map (fun i =>
    (base + 16 * (c.1 + i), leBytes 16 (mapGetD s.lat.inq (8192 * d + 4096 * q + c.1 + i) 0).toNat))) []
  let wide := fun (q base : Nat) => (im.wideClaims d).foldl (fun l c =>
    let a := 2 ^ 23 * (4 * d + c.1) + 2 ^ 22 * q + c.2.1
    l ++ (s.gau.wide.filter (fun e => decide (a ≤ e.1 ∧ e.1 < a + c.2.2))).map (fun e =>
      (base + 2 ^ 22 * c.1 + c.2.1 + (e.1 - a), [e.2]))) []
  (0, s.saveHeader p d im)
    :: im.streams.zipIdx.map (fun e => (0x1000 + 16 * e.2,
        leBytes 2 e.1.1 ++ [BitVec.ofNat 8 e.1.2.1, BitVec.ofNat 8 e.1.2.2, 0, 0, 0, 0]
          ++ leBytes 8 (s.nextSeq (s.streamDie e.1.1) e.1.1)))
    ++ inq b 0x10000 ++ inq (1 - b) 0x20000
    ++ (s.gau.layers.filter (fun e => decide (e.1 / 64 = d ∧ e.2.part = p))).map (fun e =>
        (0x30000 + 0x40 * (e.1 % 64), layerRecord (e.1 % 64) b e.2))
    ++ wide b 0x100000 ++ wide (1 - b) 0x2000000
    ++ rs.zipIdx.foldl (fun l e => l ++ s.saveRegion rs.length e.2 e.1 b) []

/-- Offsets in the area of die `d` of bytes whose parity fails as SAVE_STATE reads them (R319). -/
def State.saveBad (s : State) (p d : Nat) (im : Loaded) : List Nat :=
  let b := (s.part p).gen % 2
  let rs := im.bound d
  let ord := fun (r : Nat) => rs.findIdx (fun x => decide (x = r))
  let blk := fun (k : Nat) => regionBlock (ord (k / 64)) + 2 ^ 20 * (k % 64)
  let bad := fun (h : Held) => decide (h.tok.par ≠ payloadPar h.tok.payload)
  s.lat.units.foldl (fun l e => if uRegion e.1 ∈ rs then
      let n := blk (uKey e.1)
      l ++ (if (e.2.q0 ++ e.2.q1 ++ e.2.q2 ++ e.2.q3).any bad then [n + 0x4000 + 0x4000 * uUnit e.1] else [])
        ++ (if (e.2.out0 ++ e.2.out1).any bad then [n + 0x1000 + 0x200 * uUnit e.1] else []) else l) []
    ++ (s.lat.clusters.filter (fun e => decide (e.1 / 64 ∈ rs) && (e.2.scaleQ ++ e.2.latched.toList).any bad)).map
        (fun e => blk e.1 + 0x840)
    ++ (s.lat.sramBad.filter (fun e => decide (e.1 / 2 ^ 19 / 64 ∈ rs))).map (fun e => blk (e.1 / 2 ^ 19) + 0x60000 + e.1 % 2 ^ 19)
    ++ (s.flt.rescaleBad.filter (fun e => decide (e.1 / 8192 / 64 ∈ rs))).map (fun e =>
        blk (e.1 / 8192) + (if e.1 / 4096 % 2 = b then 0xE0000 else 0xF0000) + 16 * (e.1 % 4096))
    ++ (s.flt.inqBad.filter (fun e => decide (e.1 / 8192 = d) && (im.inqClaims d).any (fun c =>
        decide (c.1 ≤ e.1 % 4096 ∧ e.1 % 4096 < c.1 + c.2)))).map (fun e =>
          (if e.1 / 4096 % 2 = b then 0x10000 else 0x20000) + 16 * (e.1 % 4096))
    ++ (s.flt.wideBad.filter (fun e => (im.wideClaims d).any (fun c =>
        decide (32 * e.1 / 2 ^ 23 = 4 * d + c.1 ∧ 32 * e.1 % 2 ^ 22 < c.2.1 + c.2.2 ∧ c.2.1 < 32 * e.1 % 2 ^ 22 + 32)))).map
          (fun e => (if 32 * e.1 / 2 ^ 22 % 2 = b then 0x100000 else 0x2000000) + 2 ^ 22 * (32 * e.1 / 2 ^ 23 % 4) + 32 * e.1 % 2 ^ 22)

/-- Write one die area and its AREA_CHECK; the result is that digest. DEDUCED: log entry 25. -/
def State.saveArea (s : State) (p d b : Nat) (im : Loaded) : State × List Byte :=
  let st := 2 * d
  let a := areaByte (s.part p) b
  let n := areaLen (im.bound d).length
  let cs := s.saveChunks p d im
  let s := { s with flt := { s.flt with
    stack := memZero s.flt.stack (stackBytes * st + a) n
    memBad := s.flt.memBad.filter (fun e => !decide (2 ^ 31 * st + a / 32 ≤ e.1 ∧ e.1 < 2 ^ 31 * st + (a + n) / 32)) } }
  let s := (cs.foldl (fun s c => s.stackWrite st (a + c.1) c.2) s).someBestEffort st a n
  let h := sha384 (s.stackRead st a n)
  (s.stackWrite st (a + 0xFC0) h, h)

/-- Checks of SAVE_STATE (R296, R317). -/
def State.saveCheck (s : State) (p b : Nat) : Option (Nat × Nat) :=
  let pt := s.part p
  match pt.state, pt.image with
  | .paused, some im =>
    if pt.opensAt.isSome then at618 stState 4
    else
      let ns := im.dies.map (fun d => areaLen (im.bound d).length)
      if ns.any (fun n => decide (partLen pt < 2 ^ 26 * b + n) || pt.staged.any (fun x => rangesMeet (2 ^ 26 * b) n x.dst x.len)) then
        at618 stRange 5
      else none
  | _, _ => at618 stState 4

/-- SAVE_STATE completes (R317, R319, R356): each die area is written, or left invalid where a parity error was read. -/
def State.saveEnd (s : State) (p b : Nat) : State × Nat :=
  match (s.part p).image with
  | none => (s, stFault)
  | some im =>
    let bad := im.dies.filterMap (fun d => (s.saveBad p d im).head?.map (fun o => (d, o)))
    if bad.isEmpty then
      let pt := s.part p
      let s := im.dies.foldl (fun s d =>
        let (s, h) := s.saveArea p d b im
        s.auditCtrl p 0x05 0 0 (d + b * 2 ^ 26) h [] []) s
      (s.putPart p { pt with saved := true, saveCount := pt.saveCount + 1 }, stOK)
    else
      (bad.foldl (fun s e =>
        let s := s.stackWrite (2 * e.1) (areaByte (s.part p) b) [0, 0, 0, 0]
        s.fault e.1 ⟨0x11, .report, some p, Config.noUnit.toNat, false, e.2 % 2 ^ 32, 0, 0⟩) s, stFault)

/-! ### RESTORE_STATE (R320, R326) -/

/-- A field of the die area. -/
def State.areaField (s : State) (p d b o n : Nat) : Nat := leNat (s.stackRead (2 * d) (areaByte (s.part p) b + o) n)

/-- Checks of RESTORE_STATE at its acceptance (R296, R320). -/
def State.restoreCheck (s : State) (p b : Nat) : Option (Nat × Nat) :=
  let pt := s.part p
  let ok := match pt.state with | .loaded | .paused => pt.opensAt.isNone | _ => false
  match ok, pt.image with
  | true, some im =>
    let f := fun d o n => s.areaField p d b o n
    if im.dies.any (fun d => decide (s.stackRead (2 * d) (areaByte pt b + 0x10) 48 ≠ bytesAt im.digest 0 48
        ∨ f d 9 1 ≠ im.template ∨ f d 0xB 1 ≠ (im.bound d).length)) then at618 stState 4
    else if im.dies.any (fun d => decide (partLen pt < 2 ^ 26 * b + areaLen (im.bound d).length
        ∨ f d 0 4 ≠ 0x45564153 ∨ f d 4 2 ≠ 0x0100 ∨ 2048 < f d 0xC 2)
        || (List.range (f d 0xC 2)).any (fun i => !(im.streams.any (fun e => decide (e.1 = f d (0x1000 + 16 * i) 2))))) then
      at618 stRange 5
    else none
  | _, _ => at618 stState 4

/-- A sideband with the epoch `ep` and its parity recomputed (R146, R320). -/
def sideWithEpoch (ep : BitVec 2) (v : Nat) : BitVec 32 := sideSeal (setBits (BitVec.ofNat 32 v) 13 12 ep.toNat).toNat

/-- The token of a record, under the epoch `ep`. -/
def State.loadToken (s : State) (ep : BitVec 2) (st a : Nat) : State × Held :=
  let p : BitVec 256 := BitVec.ofNat 256 (leNat (s.stackRead st a 32))
  let (n, s') := s.nextTok
  (s', ⟨⟨p, payloadPar p, sideWithEpoch ep (leNat (s.stackRead st (a + 32) 4))⟩, 0, false, s.now, n⟩)

/-- Tokens of `n` consecutive records. -/
def State.loadTokens (s : State) (ep : BitVec 2) (st a n : Nat) : State × List Held :=
  (List.range n).foldl (fun (r : State × List Held) i =>
    let (s, h) := r.1.loadToken ep st (a + 0x40 * i)
    (s, r.2 ++ [h])) (s, [])

/-- Read unit `a` back from its cluster block at stack byte `o`. -/
def State.loadUnit (s : State) (ep : BitVec 2) (st o a : Nat) : State :=
  let u := uUnit a
  let f := fun i n => leNat (s.stackRead st (o + 0x100 + 0x40 * u + i) n)
  let pool := fun q => (List.range q).foldl (fun n i => n + s.uDepth a i) 0
  let qs := (List.range 4).foldl (fun (r : State × List (List Held)) q =>
    let (s, l) := r.1.loadTokens ep st (o + 0x4000 + 0x4000 * u + 0x40 * pool q) (f q 1)
    (s, r.2 ++ [l])) (s, [])
  let (s, l0) := qs.1.loadTokens ep st (o + 0x1000 + 0x200 * u) (f 4 1)
  let (s, l1) := s.loadTokens ep st (o + 0x1100 + 0x200 * u) (f 5 1)
  let q := fun i => qs.2.getD i []
  s.putUnit a { s.unit a with q0 := q 0, q1 := q 1, q2 := q 2, q3 := q 3, out0 := l0, out1 := l1, actx := f 6 1, fdone := f 8 4, rdCount := f 0xC 4 }

/-- Fill the active and the standby set of a MAC unit for its restored context (R170, R320). -/
def State.refill (s : State) (a : Nat) : State :=
  let x := s.unit a
  let multi := decide (0 < s.uNctx a)
  let mac := decide (s.uKind a = 0)
  s.putUnit a { x with standbyOk := multi, fillDone := none
                       setA := if mac then s.operand a x.actx else [], setB := if mac && multi then s.operand a (s.nextCtx a x.actx) else [] }

/-- Bytes of cluster SRAM that are MAC operand areas of the image (R275, R326). -/
def Loaded.macArea (im : Loaded) (sec k a : Nat) : Bool :=
  (im.of tyUnit sec).any (fun u => ruKind u = 0 && decide (uKey (im.unitOf u) = k)
    && decide (uByte (im.unitOf u) 0 ≤ a ∧ a < uByte (im.unitOf u) 0 + im.macBytes u))

/-- Read cluster `k` back from its block at stack byte `o`. -/
def State.loadCluster (s : State) (im : Loaded) (ep : BitVec 2) (st o k : Nat) (b : Nat) : State :=
  let f := fun i n => leNat (s.stackRead st (o + i) n)
  let (s, lt) := s.loadTokens ep st (o + 0x800) (f 0 1 % 2)
  let (s, q) := s.loadTokens ep st (o + 0x840) (f 1 1)
  let s := s.putCluster k { s.cluster k with latched := lt.head?, scaleQ := q }
  let base := stackBytes * st + o + 0x60000
  let saved := (s.flt.stack.filter (fun e => decide (base ≤ e.1 ∧ e.1 < base + 2 ^ 19) && !im.macArea 0 k (e.1 - base)))
  let keep := s.lat.sram.filter (fun e => !(decide (e.1 / 2 ^ 19 = k) && !im.macArea 0 k (e.1 % 2 ^ 19)))
  let tab := fun (m : AMap (BitVec 128)) (q at_ : Nat) => (List.range 4096).foldl (fun m e =>
    mapPut m (8192 * k + 4096 * q + e) (BitVec.ofNat 128 (leNat (s.stackRead st (o + at_ + 16 * e) 16))) 0) m
  let s := { s with lat := { s.lat with
    sram := saved.foldl (fun m e => memSet m (2 ^ 19 * k + (e.1 - base)) e.2) keep
    sramBad := s.lat.sramBad.filter (fun e => !(decide (e.1 / 2 ^ 19 = k) && !im.macArea 0 k (e.1 % 2 ^ 19)))
    rescale := tab (tab s.lat.rescale b 0xE0000) (1 - b) 0xF0000 } }
  (List.range 20).foldl (fun s u => if s.uKind (32 * k + u) = 7 then s else s.loadUnit ep st o (32 * k + u)) s

/-- Read a region's sideband columns back: every row, under the epoch `ep` (R326). -/
def State.loadColumns (s : State) (ep : BitVec 2) (st o r : Nat) : State :=
  let word := fun (w : Nat) => leNat (s.stackRead st (o + 4 * w) 4)
  let key := fun (w : Nat) => 2 ^ 14 * (64 * r + w / 2 ^ 14) + w % 2 ^ 14
  let other := fun (k : Nat) => decide (k / 2 ^ 14 / 64 ≠ r)
  { s with lat := { s.lat with
      sideCol := (List.range (2 ^ 20)).foldl (fun m w => mapPut m (key w) (sideWithEpoch ep (word w)) 0)
        (s.lat.sideCol.filter (fun e => other e.1))
      wrRows := (List.range (2 ^ 20)).foldl (fun m w => mapPut m (key w) (decide (word w ≠ 0)) false)
        (s.lat.wrRows.filter (fun e => other e.1)) } }

/-- The draw indices of the quantiser entries that an image claims on die `d`: the area does not hold them, and a bank that has none
takes the image's. DEDUCED: log entry 25. -/
def State.restoreLidx (s : State) (d : Nat) (im : Loaded) : AMap Nat :=
  ((im.of tyInq 0).filter (fun r => decide (fieldLE r.body 0 1 = d))).foldl (fun m r =>
    [0, 1].foldl (fun m q => (List.range (fieldLE r.body 4 2)).foldl (fun m i =>
      let k := 8192 * d + 4096 * q + fieldLE r.body 2 2 + i
      mapPut m k ((mapGet m k).getD (fieldLE r.body 8 4 + i)) 0) m) m) s.lat.inqLidx

/-- Read the die structures back: quantisers, layer slots, wide weights, in both banks. -/
def State.loadDie (s : State) (p d a : Nat) (im : Loaded) (b : Nat) : State :=
  let st := 2 * d
  let rd := fun o n => s.stackRead st (a + o) n
  let inq := fun (m : AMap (BitVec 128)) (q base : Nat) => (im.inqClaims d).foldl (fun m c => (List.range c.2).foldl (fun m i =>
    mapPut m (8192 * d + 4096 * q + c.1 + i) (BitVec.ofNat 128 (leNat (rd (base + 16 * (c.1 + i)) 16))) 0) m) m
  let wide := fun (m : Mem) (q base : Nat) => (im.wideClaims d).foldl (fun m c =>
    memWrite m (2 ^ 23 * (4 * d + c.1) + 2 ^ 22 * q + c.2.1) (rd (base + 2 ^ 22 * c.1 + c.2.1) c.2.2)) m
  let lay := fun (e : Nat × Layer) =>
    let r := rd (0x30000 + 0x40 * (e.1 % 64)) 64
    if e.1 / 64 = d ∧ e.2.part = p ∧ (fieldLE r 1 1).testBit 0 = true then
      let eo := fun i => BitVec.ofNat 8 (fieldLE r i 1)
      (e.1, { e.2 with
        n := BitVec.ofNat 48 (fieldLE r 8 8), nLast := if (fieldLE r 1 1).testBit 1 then some (BitVec.ofNat 48 (fieldLE r 0x10 8)) else none
        eOut0 := if b = 0 then eo 2 else eo 3, eOut1 := if b = 0 then eo 3 else eo 2
        lim0 := bytesAt r (if b = 0 then 0x20 else 0x30) 16, lim1 := bytesAt r (if b = 0 then 0x30 else 0x20) 16 })
    else e
  { s with lat := { s.lat with inq := inq (inq s.lat.inq b 0x10000) (1 - b) 0x20000, inqLidx := s.restoreLidx d im }
           gau := { s.gau with wide := wide (wide s.gau.wide b 0x100000) (1 - b) 0x2000000, layers := s.gau.layers.map lay } }

/-- Read one die area back. DEDUCED: log entry 25. -/
def State.loadArea (s : State) (p d b : Nat) (im : Loaded) : State :=
  let pt := s.part p
  let st := 2 * d
  let a := areaByte pt b
  let rs := im.bound d
  let bank := leNat (s.stackRead st (a + 0x144) 1) % 2
  let s := (s.someBestEffort st a (areaLen rs.length)).loadDie p d a im bank
  let s := rs.zipIdx.foldl (fun s e =>
    let s := (List.range 64).foldl (fun s c => s.loadCluster im pt.epoch st (a + regionBlock e.2 + 2 ^ 20 * c) (64 * e.1 + c) bank) s
    let s := s.loadColumns pt.epoch st (a + sideBlock rs.length e.2) e.1
    s.setField (aScl (e.1 / 8) (0x100 + 4 * (e.1 % 8))) 31 16 (leNat (s.stackRead st (a + 0x142 + 8 * e.2) 2))) s
  let s := (List.range (leNat (s.stackRead st (a + 0xC) 2))).foldl (fun s i =>
    let x := leNat (s.stackRead st (a + 0x1000 + 16 * i) 2)
    s.setSeq (s.streamDie x) x (leNat (s.stackRead st (a + 0x1008 + 16 * i) 8) % 2 ^ 48)) s
  (im.of tyUnit 0).foldl (fun s u => if im.region u / 8 = d then s.refill (im.unitOf u) else s) s

/-- The pending change of a die header; what the header does not hold of it is a free value (R318, R324). UNVERIFIED: log entry 36. -/
def State.loadChange (s : State) (st a : Nat) : State × Option ModeChange :=
  let f := fun o n => leNat (s.stackRead st (a + o) n)
  let fl := f 8 1
  if fl.testBit 0 then
    let (n, s') := s.nextFree
    let (set, mask, seeds) := Config.savedMode n
    (s', some ⟨bitsOf fl 2 1, f 0xC8 2, f 0xD0 8 % 2 ^ 48, set.toNat, mask.toNat, seeds.map (·.toNat), true, none, 0, s.stackRead st (a + 0xD8) 48⟩)
  else (s, none)

/-- AREA_CHECK of every die area holds. -/
def State.areaChecks (s : State) (p b : Nat) (im : Loaded) : Bool :=
  im.dies.all (fun d =>
    let a := areaByte (s.part p) b
    let bs := s.stackRead (2 * d) a (areaLen (im.bound d).length)
    decide (sha384 (patch bs 0xFC0 (zeroBytes 48)) = bytesAt bs 0xFC0 48))

/-- RESTORE_STATE completes (R320, R356), or is refused for its AREA_CHECK: the partition then keeps the state `old`. DEDUCED: log entry 25. -/
def State.restoreEnd (s : State) (p b : Nat) (old : PState) : State × Nat × Nat :=
  match (s.part p).image with
  | none => (s, stFault, 0)
  | some im =>
    if !s.areaChecks p b im then (s.putPart p { s.part p with state := old }, stRange, det618 5)
    else
      let d0 := im.dies.headD 0
      let a := areaByte (s.part p) b
      let s := im.dies.foldl (fun s d => s.loadArea p d b im) s
      let seeds := (List.range 16).foldl (fun m g =>
        mapPut m g (BitVec.ofNat 64 (leNat (s.stackRead (2 * d0) (a + 0x48 + 8 * g) 8))) 0) []
      let gen := leNat (s.stackRead (2 * d0) (a + 0x142) 2)
      let bank := leNat (s.stackRead (2 * d0) (a + 0x144) 1) % 2
      let (s, c) := s.loadChange (2 * d0) a
      let s := s.putPart p { s.part p with
        state := .paused, saved := true, seeds := seeds, change := c, filling := false
        sets := (s.part p).sets.take gen, gen := if gen % 2 = bank then gen else gen + 1 }
      (im.dies.foldl (fun s d =>
        s.auditCtrl p 0x06 0 0 (d + b * 2 ^ 26) (s.stackRead (2 * d) (a + 0xFC0) 48) []
          (s.stackRead (2 * d) (a + 0x108) 48 ++ zeroBytes 16)) s, stOK, 0)

end Sys2Proof.Machine
end

