-- ==== Sys2Proof/Machine/DeepPath.lean ====
section
/-! DEFINITION. The deep path: passes, sections, swaps, prefetches, results (R376 to R396, R401 to R403) and elastic steps
(R397 to R400). -/

namespace Sys2Proof.Machine

/-! ### Passes (R383, R384) -/

/-- Power state of a region (R672). -/
def State.regionPower (s : State) (r : Nat) : Nat := s.field (aPwr (r / 8) 4) (3 * (r % 8) + 2) (3 * (r % 8))

/-- Free slots of the result ring (R381): RD is read from the ring header. -/
def State.ringFree (s : State) (p : Nat) (im : Loaded) (x : Deep) : Nat :=
  let rd := leNat (s.stackRead (2 * im.resultDie) (deepRing (s.part p) x + 4) 4)
  x.par.rrDepth - (x.wr + 2 ^ 32 - rd) % 2 ^ 32

/-- Records that the next pass may take from the waiting ones: none beyond a pending boundary that the first lies before (R402). -/
def Partition.passRecords (pt : Partition) (q : List DeepRec) : List DeepRec :=
  match pt.change, q with
  | some c, r :: _ => if c.armed ∧ c.boundary = none ∧ r.seq < c.n then q.takeWhile (fun v => decide (v.seq < c.n)) else q
  | _, _ => q

/-- Result tokens of one instance over every section: those released at outputs, and writes to space 3 (R386, R395). -/
def Loaded.deepResults (im : Loaded) (g t : Nat) : Nat :=
  (List.range im.nsect).foldl (fun n k =>
    n + im.resultCount k g t + (im.of tyMemslot k).foldl (fun n r =>
      n + ((memEntries r.body).filter (fun e => decide (e.write = true ∧ e.addr / 2 ^ 30 = 3 ∧ swProg e.sched.toNat = g
        ∧ (t + swOff e.sched.toNat) % 4096 = e.cycle))).length) 0) 0

/-- The instance `i` enters section `sec` on ingest cycle `t`: its operations there are in flight (R214, R384). -/
def State.enterSection (s : State) (im : Loaded) (sec g i t : Nat) : State :=
  let n0 := im.opCount sec g t 0
  let n1 := im.opCount sec g t 1
  let s := s.mapInst i (fun x => { x with ingest := t, ops0 := n0, ops1 := n1, moved := [] })
  let s := { s with seq := { s.seq with ops0 := s.seq.ops0 + n0, ops1 := s.seq.ops1 + n1 } }
  let s := (s.maxField (aSeq 0 0x10) 31 16 s.seq.ops0).maxField (aSeq 1 0x10) 31 16 s.seq.ops1
  s.dueFirings im sec g i t

/-- Make the instance of pass position `j` of a pass whose section 0 starts at `c` (R213, R377). -/
def State.deepInstance (s : State) (p : Nat) (im : Loaded) (g c e j : Nat) (r : DeepRec) : State × Nat :=
  let i := s.seq.nextId
  let t := c + j * e
  let x : Inst :=
    { id := i, part := p, prog := g, stream := r.stream, seq := r.seq, ingest := t, ops0 := 0, ops1 := 0, late := false,
      lateCount := 0, flags := r.flags ||| BitVec.ofNat 16 (bitOf im.relaxed * 2 ^ 6 + bitOf im.anyClass * 2 ^ 10), check := r.check,
      sides := [], raws := [], tok0 := 0, tok1 := 0, results := im.deepResults g t, released := none, sigs := [], outputs := [], old := false,
      lastDue := 0, behind := false, rel0 := false, rel1 := false, moved := [] }
  let s := { s with seq := { s.seq with insts := s.seq.insts ++ [x], nextId := i + 1 } }
  let s := s.count 0 0x40 1 ⟨none, some p, 0x7FFF, some (r.stream, r.seq)⟩
  ((s.modeBoundary x).enterSection im 0 g i t, i)

/-- PASS_START: the conditions of R383 hold, and the pass takes its records. -/
def State.passStart (s : State) (p : Nat) : State :=
  let pt := s.part p
  match mapGet s.deep p, pt.image with
  | some x, some im =>
    let rs := pt.passRecords x.queue
    let n := min (min rs.length x.par.pmax) (s.ringFree p im x)
    let asleep := (partRegions pt).any (fun r => decide (s.regionPower r ≠ 0))
    if im.kind ≠ 1 ∨ pt.state ≠ .running ∨ x.pass.isSome = true ∨ x.swap = true ∨ x.section_ ≠ 0 ∨ n = 0 ∨ asleep = true then s
    else
      let g := match (im.of tyProgram 0).head? with | some r => prNum r | none => 0
      let c := firstSlot (s.cycle 0) x.e x.phi
      let (s, is_) := (rs.take n).zipIdx.foldl (fun (a : State × List DeepInst) e =>
        let (s, i) := a.1.deepInstance p im g c x.e e.2 e.1
        (s, a.2 ++ [⟨e.1, i, (x.wr + e.2) % x.par.rrDepth, none⟩])) (s, [])
      let step := (List.range 2).foldl (fun m d => if partOnDie pt d then max m (s.field (aSeq d 0x600) 27 24) else m) 0
      { s with deep := mapSet s.deep p { x with queue := x.queue.drop n, pass := some ⟨is_, step, c⟩, passN := n } }
  | _, _ => s

/-! ### Ends of instances, sections and passes (R380, R381, R385) -/

/-- Instance `i` of a deep partition is gone: its tag stays with the passes that name it, and the layers forget it. -/
def State.deepForget (s : State) (i : Nat) : State :=
  match s.inst i with
  | none => s
  | some x =>
    let s := s.capRetire x
    { s with seq := { s.seq with insts := s.seq.insts.filter (fun y => decide (y.id ≠ i)) }
             gau := { s.gau with layers := s.gau.layers.map (fun e =>
               (e.1, { e.2 with work := e.2.work.filter (fun w => decide (w.inst ≠ i)) })) } }

/-- The instances of the pass complete in increasing position: slot header, then WR (R381). -/
def State.deepComplete (s : State) (p : Nat) (x : Deep) (ps : DeepPass) (im : Loaded) : State × Deep :=
  ps.insts.foldl (fun (a : State × Deep) e =>
    let (s, x) := a
    let tag := match s.inst e.inst with | some y => s.tagOf y | none => []
    let s := s.deepHeader p x e tag false
    let x := { x with wr := (x.wr + 1) % 2 ^ 32 }
    let s := s.stackWrite (2 * im.resultDie) (deepRing (s.part p) x) (leBytes 4 x.wr)
    (s.deepForget e.inst, x)) (s, x)

/-- Every operation of the section's instances has completed. -/
def State.sectionDone (s : State) (ps : DeepPass) : Bool :=
  ps.insts.all (fun e => match s.inst e.inst with | some y => decide (y.ops0 = 0 ∧ y.ops1 = 0) | none => true)

/-- A pass has ended (R408). -/
def State.passEnd (s : State) (p : Nat) (x : Deep) : State :=
  let s := { s with deep := mapSet s.deep p { x with pass := none, swap := false, section_ := 0, pfReady := false } }
  s.addReg (aSeq 0 (0x708 + 0x10 * p)) 1

/-- SECTION_COMPLETE: the last section's instances complete; a swap begins, or in a single-section image the pass ends. -/
def State.sectionComplete (s : State) (p : Nat) : State :=
  match mapGet s.deep p, (s.part p).image with
  | some x, some im =>
    match x.pass with
    | none => s
    | some ps =>
      if x.swap || !partLive (s.part p) || !s.sectionDone ps then s
      else
        let last := decide (im.succ x.section_ = 0)
        let (s, x) := if last then s.deepComplete p x ps im else (s, x)
        let x := if last then { x with pass := some { ps with insts := [] } } else x
        if im.nsect ≤ 1 then s.passEnd p x
        else { s with deep := mapSet s.deep p { x with swap := true } }
  | _, _ => s

/-- A swap or prefetch could read neither copy (R391): FAULTED slot headers, the records wait again, the partition is BOUND. -/
def State.swapFail (s : State) (p : Nat) (im : Loaded) : State :=
  match mapGet s.deep p with
  | none => s
  | some x =>
    let es := match x.pass with | some ps => ps.insts | none => []
    let s := es.foldl (fun s e =>
      match s.inst e.inst with
      | some y => (s.deepHeader p x e (s.tagOf y) true).auditFill p y.id (tagEntry y.stream y.lateCount (s.tagOf y))
      | none => s) s
    let s := { s with deep := mapSet s.deep p { x with queue := es.map (fun (e : DeepInst) => e.rcd) ++ x.queue, pass := none } }
    (s.auditCtrl p 0x0A 0 0 0 im.digest [] []).loadFailed p im.dst

/-- SWAP_COMPLETE: the successor is installed; its section starts, or the pass ends with section 0 (R384, R385, R389). -/
def State.swapComplete (s : State) (p : Nat) : State :=
  match mapGet s.deep p, (s.part p).image with
  | some x, some im =>
    let pf := im.prefetchAt x.section_
    if !x.swap || !partLive (s.part p) || (pf && !x.pfReady) then s
    else
      let nx := im.succ x.section_
      let (s, ok) := s.swapTo p im nx pf
      if !ok then s.swapFail p im
      else if nx = 0 then s.passEnd p x
      else
        match x.pass with
        | none => s
        | some ps =>
          let c := firstSlot (s.cycle 0) x.e x.phi
          let g := match (im.of tyProgram 0).head? with | some r => prNum r | none => 0
          let s := ps.insts.zipIdx.foldl (fun s e => s.enterSection im nx g e.1.inst (c + e.2 * x.e)) s
          { s with deep := mapSet s.deep p { x with pass := some { ps with start := c }, section_ := nx, swap := false, pfReady := false } }
  | _, _ => s

/-- PREFETCH_COMPLETE: the successor stands in the other context halves and the shadow copies (R390). -/
def State.prefetchComplete (s : State) (p : Nat) : State :=
  match mapGet s.deep p, (s.part p).image with
  | some x, some im =>
    if !im.prefetchAt x.section_ || x.pfReady || x.pass.isNone || !partLive (s.part p) then s
    else
      let (s, ok) := s.prefetch p im (im.succ x.section_) ((s.part p).gen % 2)
      if ok then { s with deep := mapSet s.deep p { x with pfReady := true } } else s.swapFail p im
  | _, _ => s

/-! ### Elastic mode (R397 to R400) -/

/-- The image is deep and elastic. -/
def Loaded.stretchy (im : Loaded) : Bool := decide (im.kind = 1) && im.elastic
/-- The image holds a bridge entry. -/
def Loaded.bridges (im : Loaded) : Bool := (List.range im.nsect).any (fun k => (im.dfs k).any (fun x => decide (16 ≤ x.e.ch)))

/-- Die `d` is eligible for clock steps (R397). -/
def State.eligibleDie (s : State) (d : Nat) : Bool :=
  s.loadedParts.all (fun e => (!partOnDie e.2.1 d || e.2.2.stretchy)
    && (!(partOnDie e.2.1 (1 - d) && e.2.2.bridges) || e.2.2.stretchy))

/-- An elastic partition spans both dies. -/
def State.spans (s : State) : Bool := s.loadedParts.any (fun e => partOnDie e.2.1 0 && partOnDie e.2.1 1 && e.2.2.stretchy)

/-- ELASTIC_STEP: the power manager of die `d` has seen its temperature hold for 1 ms (R399). -/
def State.elasticStep (s : State) (d : Nat) (up : Bool) : State :=
  let n := mapGetD s.seq.steps d 0
  let t := s.field (aPwr d 0) 15 8
  let top := min 8 (s.field (aSeq d 0x600) 23 20)
  if !s.eligibleDie d || !s.flag (aSeq d 0x600) 31 then s
  else if up then
    (if 90 ≤ t ∧ n < top then { s with seq := { s.seq with steps := mapPut s.seq.steps d (n + 1) 0 } } else s)
  else if t < 85 ∧ 0 < n then { s with seq := { s.seq with steps := mapPut s.seq.steps d (n - 1) 0 } } else s

/-- At a schedule cycle that is a multiple of 16 the steps asked for take effect (R399); the passes under way note the largest. -/
def State.takeSteps (s : State) : State :=
  let own := fun d => if s.eligibleDie d then mapGetD s.seq.steps d 0 else 0
  let n := fun d => if s.spans then max (own 0) (own 1) else own d
  let s := if s.cycle 0 % 16 = 0 then [0, 1].foldl (fun s d => s.setField (aSeq d 0x600) 27 24 (n d)) s else s
  { s with deep := s.deep.map (fun e => (e.1, { e.2 with pass := e.2.pass.map (fun ps =>
      { ps with step := [0, 1].foldl (fun m d => if partOnDie (s.part e.1) d then max m (s.field (aSeq d 0x600) 27 24) else m) ps.step }) })) }

/-! ### Meanings -/

/-- PASS_START (R383). -/
def execPassStart (p : Nat) (s : State) : Host.Outcome State Fault Refusal :=
  .next (s.only (.passStart p) (s.passStart p))
/-- SECTION_COMPLETE (R385). -/
def execSectionComplete (p : Nat) (s : State) : Host.Outcome State Fault Refusal :=
  .next (s.only (.sectionComplete p) (s.sectionComplete p))
/-- SWAP_COMPLETE (R389). -/
def execSwapComplete (p : Nat) (s : State) : Host.Outcome State Fault Refusal :=
  .next (s.only (.swapComplete p) (s.swapComplete p))
/-- PREFETCH_COMPLETE (R390). -/
def execPrefetchComplete (p : Nat) (s : State) : Host.Outcome State Fault Refusal :=
  .next (s.only (.prefetchComplete p) (s.prefetchComplete p))
/-- ELASTIC_STEP (R399). -/
def execElasticStep (d : Nat) (up : Bool) (s : State) : Host.Outcome State Fault Refusal :=
  .next (s.only (.elasticStep d up) (s.elasticStep d up))

end Sys2Proof.Machine
end

