-- ==== Sys2Proof/Machine/Lanes.lean ====
section
/-! DEFINITION. Lanes and co-packaged optics: source frames (R512 to R521), bring-up (R528 to R532), equalisation and lane
maps (R533, R534), eye scans (R535 to R537), patterns (R538, R539), laser input (R540) and LANE_CTL (R541, R627). -/

namespace Sys2Proof.Machine

/-! ### Lanes and their sources (R507, R508) -/

/-- A lane that has never been brought up. DESIGN CHOICE: log entry 44. -/
def lane0 : LaneState := ⟨[], false, false, 0, 0⟩
/-- Lane LSEL. -/
def State.lane (s : State) (l : Nat) : LaneState := mapGetD s.lan.lanes l lane0
/-- Replace it. -/
def State.putLane (s : State) (l : Nat) (x : LaneState) : State :=
  { s with lan := { s.lan with lanes := mapPut s.lan.lanes l x lane0 } }

/-- Die of a lane (R33). -/
def laneDie (l : Nat) : Nat := if l < 32 then l / 16 else (l - 32) / 64
/-- Group of a lane (R508, R534). -/
def laneGroup (l : Nat) : Nat := l / 8
/-- Lanes of a group. -/
def groupLanes (g : Nat) : List Nat := (List.range 8).map (fun k => 8 * g + k)
/-- MODE of a lane (R543). -/
def State.laneMode (s : State) (l : Nat) : Nat := s.field (aLane l 0) 31 29
/-- RATE of a lane. -/
def State.laneRate (s : State) (l : Nat) : Nat := s.field (aLane l 0) 28 24
/-- RX_EN of a lane. -/
def State.laneRx (s : State) (l : Nat) : Bool := s.flag (aLane l 0) 14
/-- TEST of a lane. -/
def State.laneTest (s : State) (l : Nat) : Bool := s.flag (aLane l 0) 12
/-- Stage of a lane, 0 to 5; ADMITTING is FRAMED with an open stream (R528). -/
def State.laneStage (s : State) (l : Nat) : Nat := s.field (aLane l 4) 31 29
/-- Set the stage. -/
def State.setStage (s : State) (l v : Nat) : State := s.setField (aLane l 4) 31 29 v
/-- LOGICAL of a lane: its logical local number, or its logical lane in its engine. -/
def State.laneLogical (s : State) (l : Nat) : Nat := s.field (aLane l 4) 23 19
/-- Endpoint that a lane feeds or serves on its die (R216). -/
def State.laneEp (s : State) (l : Nat) : Nat :=
  if l < 32 then 0x1B0 + s.laneLogical l else 0x1C0 + 4 * ((l - 32) / 8 % 8) + s.laneLogical l / 2
/-- PSEL of the registers that count a lane's frames: the lane, or the port of its logical lane (R542, R548). -/
def State.lanePsel (s : State) (l : Nat) : Nat := if l < 32 then l else 32 + 4 * ((l - 32) / 8) + s.laneLogical l / 2
/-- The lanes that a PSEL names; an optical port carries two logical lanes. -/
def State.pselLanes (s : State) (p : Nat) : List Nat :=
  if p < 32 then [p]
  else (groupLanes (4 + (p - 32) / 4)).filter (fun l => decide (s.laneLogical l / 2 = p % 4))
/-- Endpoint of a PSEL. -/
def State.pselEp (s : State) (p : Nat) : Nat := if p < 32 then s.laneEp p else 0x1C0 + (p - 32) % 32
/-- Die of a PSEL. -/
def pselDie (p : Nat) : Nat := if p < 32 then p / 16 else (p - 32) / 32

/-- The source feeds a stream whose admission is open (R528, stage 6). -/
def State.feedsOpen (s : State) (d ep : Nat) : Bool :=
  (s.streamsAt d ep).any (fun st => s.streamOn d st && s.streamOpen d st)

/-- The trained Wyile links that a lane serves. -/
def State.laneLinks (s : State) (l : Nat) : List Nat :=
  (List.range 32).filter (fun n => s.linkUp n && (List.range (s.linkLanes n)).any (fun x => decide (s.linkLsel n x = l)))

/-- STAGE as LAN_STATUS reports it: stage 6 where the lane is FRAMED and admits, or its Wyile link is trained (R528, R581). -/
def State.stageShown (s : State) (l : Nat) : Nat :=
  if s.laneStage l = 5 ∧ (if s.laneMode l = 4 then s.laneLinks l ≠ [] else s.feedsOpen (laneDie l) (s.laneEp l)) then 6
  else s.laneStage l

/-- An endpoint is the destination of an egress entry of a loaded image. -/
def State.egressTo (s : State) (d ep : Nat) : Bool :=
  s.loadedParts.any (fun e => (List.range e.2.2.nsect).any (fun k => (e.2.2.dfs k).any (fun x =>
    decide (x.e.dst = ep ∧ (if 16 ≤ x.e.ch then 1 - x.owner / 8 else x.owner / 8) = d))))

/-- A lane or port is in use (R541). -/
def State.epInUse (s : State) (d ep : Nat) : Bool :=
  (s.streamsAt d ep).any (fun st => s.streamInUse st) || s.egressTo d ep
/-- A lane is in use. -/
def State.laneInUse (s : State) (l : Nat) : Bool := s.epInUse (laneDie l) (s.laneEp l) || decide (s.laneLinks l ≠ [])
/-- A lane or port named by PSEL is in use. -/
def State.pselInUse (s : State) (p : Nat) : Bool :=
  s.epInUse (pselDie p) (s.pselEp p) || (s.pselLanes p).any (fun l => decide (s.laneLinks l ≠ []))

/-! ### Source frames (R515, R517, R521) -/

/-- Corrected codewords on a lane: counted, and added to bucket LANE_FEC (R487, R544). DEDUCED: log entry 64. -/
def State.fecCorrected (s : State) (l n : Nat) : State :=
  if n = 0 then s else (s.addReg (aLane l 8) n).bucketAdd (laneDie l) 2 n

/-- A raw link completes a frame: `b` is the header and the padded payload in transmission order, `ck` the CRC of the
trailer; `failed` where lock was lost, a word stood wrong, or a codeword was uncorrectable (R514, R515). DEDUCED: log entry 60. DEDUCED: log entry 64. -/
def State.rawFrame (s : State) (psel l : Nat) (b : List Byte) (ck corrected : Nat) (failed : Bool) : State :=
  if s.laneMode l ≠ 1 ∨ s.laneStage l < 5 ∨ s.laneTest l ∨ s.lanePsel l ≠ psel then s
  else
    let fec := s.flag (aLane l 0) 15
    let s := if fec then s.fecCorrected l corrected else s
    let s := if fec && failed then s.addReg (aLane l 0xC) 1 else s
    let h := beNat (bytesAt b 0 8)
    let n := bitsOf h 47 32
    let ok := !failed && decide (bitsOf h 63 56 = 0xFB) && decide (1 ≤ n) && decide (b.length = 8 + pad8 n)
      && decide (crc32c (2 ^ 32 - 1) b = BitVec.ofNat 32 ck)
    let d := laneDie l
    if ok then (s.addReg (aPsel psel + 0x10) 1).sourceFrame d (s.laneEp l) (bitsOf h 55 52) (bytesAt b 8 n)
    else (s.addReg (aPsel psel + 0x14) 1).badFrame d (s.laneEp l)

/-- Register of JESD link `j` of die `d`. -/
def aJesd (d j o : Nat) : Nat := aLan d (0x10000 + 0x20 * j + o)
/-- E of a link (R547). -/
def State.jesdE (s : State) (d j : Nat) : Nat := s.field (aJesd d j 0) 11 8 + 1
/-- Logical lanes of a link, lowest first. -/
def State.jesdLanes (s : State) (d j : Nat) : List Nat := maskList 16 (s.field (aJesd d j 4) 15 0)
/-- Physical lanes of a link. DEDUCED: log entry 61. -/
def State.jesdPhys (s : State) (d j : Nat) : List Nat :=
  ((List.range 16).map (fun k => 16 * d + k)).filter (fun l => decide (s.laneLogical l ∈ s.jesdLanes d j))
/-- LEMC of the link is aligned. -/
def State.lemcLocked (s : State) (d j : Nat) : Bool := (mapGet s.lan.lemc (8 * d + j)).isSome
/-- LOCKED of LAN_JESD_STATUS: LEMC locked, every lane FRAMED (R547). -/
def State.jesdLocked (s : State) (d j : Nat) : Bool :=
  s.flag (aJesd d j 0) 31 && s.lemcLocked d j && decide (s.jesdPhys d j ≠ [])
    && (s.jesdPhys d j).all (fun l => decide (s.laneMode l = 2 ∧ 5 ≤ s.laneStage l))
/-- The enabled JESD links that hold a lane. DEDUCED: log entry 61. -/
def State.laneJesd (s : State) (l : Nat) : List Nat :=
  (List.range 8).filter (fun j => decide (l < 32) && s.flag (aJesd (l / 16) j 0) 31
    && decide (s.laneLogical l ∈ s.jesdLanes (l / 16) j))

/-- Payload of an extended multiblock from the octets of the link's lanes (R517). -/
def jesdPayload (n : Nat) (lanes : List (List Byte)) : List Byte :=
  (List.range n).foldl (fun acc b => lanes.foldl (fun acc x => acc ++ bytesAt x (8 * b) 8) acc) []

/-- A JESD link releases an extended multiblock; a lane whose data has not reached its buffer has fewer octets (R517 to
R519). The link is a source at the endpoint of its lowest logical lane. DEDUCED: log entry 61. -/
def State.jesdMultiblock (s : State) (d j : Nat) (lanes : List (List Byte)) (crcOk : Bool) : State :=
  if !s.jesdLocked d j then s
  else
    let n := 32 * s.jesdE d j
    let late := decide (lanes.length ≠ (s.jesdLanes d j).length) || lanes.any (fun x => decide (x.length ≠ 8 * n))
    let s := if late then s.setFlag (aJesd d j 8) 29 true else s
    let s := if crcOk then s else s.addField (aJesd d j 8) 15 0 1
    let low := (s.jesdLanes d j).headD 0
    let ep := 0x1B0 + low
    let p := ((s.jesdPhys d j).find? (fun l => decide (s.laneLogical l = low))).getD 0
    if crcOk && !late then (s.addReg (aPsel p + 0x10) 1).sourceFrame d ep 0 (jesdPayload n lanes)
    else (s.addReg (aPsel p + 0x14) 1).badFrame d ep

/-- Address bytes 0 to 5 of a lane or port (R546). -/
def State.macOf (s : State) (p : Nat) : List Byte :=
  beBytes 2 (s.field (aPsel p + 0x184) 15 0) ++ beBytes 4 (s.field (aPsel p + 0x180) 31 0)

/-- The destination filter of R521 step 3. -/
def State.ethPasses (s : State) (p l : Nat) (b : List Byte) : Bool :=
  let da := bytesAt b 0 6
  s.flag (aLane l 0) 11 || decide (da = s.macOf p) || decide (da = List.replicate 6 0xFF#8)
    || ((fieldLE da 0 1).testBit 0 && s.flag (aLane l 0) 10)

/-- Classifier rule `c` of a lane or port matches a frame (R521 step 4). -/
def State.ethRule (s : State) (p : Nat) (b : List Byte) (c : Nat) : Bool :=
  let r := aPsel p + 0x100 + 4 * c
  let vlan := s.flag r 30
  let o := if vlan then 16 else 12
  let ip := o + 2
  let hl := fieldLE b ip 1 % 16 * 4
  s.flag r 31 && (!vlan || decide (beNat (bytesAt b 12 2) = 0x8100)) && decide (beNat (bytesAt b o 2) = s.field r 15 0)
    && decide (o + 2 ≤ b.length)
    && (!s.flag r 29 || (decide (beNat (bytesAt b o 2) = 0x0800 ∧ fieldLE b ip 1 / 16 = 4 ∧ fieldLE b (ip + 9) 1 = 17
      ∧ ip + hl + 4 ≤ b.length)
      && decide (beNat (bytesAt b (ip + hl + 2) 2) = s.field (aPsel p + 0x140 + 4 * c) 15 0)))

/-- A PTP message that the transparent clock or a servo takes out of the receive path (R568). -/
def State.ptpTaken (s : State) (p : Nat) (b : List Byte) : Bool :=
  (ptpOffset b).isSome && (s.flag (aTim (0x40100 + 4 * p)) 31
    || (List.range 4).any (fun t => s.srvOn t 3 && decide (s.field (aTb t 0) 27 20 = p)))

/-- An Ethernet frame is received: `b` runs from the destination address to the byte before the FCS (R520, R521). -/
def State.ethFrame (s : State) (p : Nat) (b : List Byte) (fcs corrected : Nat) : State :=
  let l := (s.pselLanes p).headD 0
  if s.laneMode l ≠ 3 ∨ s.pselStage p < 5 ∨ (s.pselLanes p).any (fun l => s.laneTest l) then s
  else
    let s := s.fecCorrected l corrected
    let d := pselDie p
    let ep := s.pselEp p
    if BitVec.ofNat 32 fcs ≠ BitVec.ofNat 32 (leNat (ethFcs b)) ∨ 9216 < b.length + 4 then
      (s.addReg (aPsel p + 0x14) 1).badFrame d ep
    else if s.ptpTaken p b then s
    else if beNat (bytesAt b 12 2) = 0x8808 ∨ !s.ethPasses p l b then s.addReg (aPsel p + 0x18) 1
    else
      match (List.range 16).find? (fun c => s.ethRule p b c) with
      | none => s.addReg (aPsel p + 0x18) 1
      | some c => (s.addReg (aPsel p + 0x10) 1).sourceFrame d ep c b

/-! ### Bring-up (R528 to R532) -/

/-- A lane in a mode with its receiver on leaves stage OFF (R528). DEDUCED: log entry 62. -/
def State.laneSettle (s : State) (l : Nat) : State :=
  if s.laneMode l ≠ 0 ∧ s.laneRx l ∧ s.laneStage l = 0 then s.setStage l 1 else s

/-- The lane map entry of a group (R534). -/
def State.mapEntry (s : State) (g : Nat) : List Byte := mapGetD s.lan.maps g (zeroBytes 8)

/-- Logical number of physical lane `l` under a reversal (R532). -/
def logicalOf (l : Nat) (rev : Bool) : Nat :=
  let k := if rev then 7 - l % 8 else l % 8
  if l < 32 then l % 16 / 8 * 8 + k else k

/-- Put a decision on the reversal of a group in force, or take it back (R532). -/
def State.setRev (s : State) (g : Nat) (r : Option Bool) : State :=
  let s := match r with
    | some b => { s with lan := { s.lan with rev := mapSet s.lan.rev g b } }
    | none => { s with lan := { s.lan with rev := mapErase s.lan.rev g } }
  (groupLanes g).foldl (fun s l => s.setField (aLane l 4) 23 19 (logicalOf l (r.getD false))) s

/-- All eight lanes of a group share one mode and rate. -/
def State.groupUniform (s : State) (g : Nat) : Bool :=
  (groupLanes g).all (fun l => decide (s.laneMode l = s.laneMode (8 * g) ∧ s.laneRate l = s.laneRate (8 * g)))

/-- The group decides its reversal as its first lane reaches stage 3; later lanes are held against it (R532, R534). -/
def State.decideRev (s : State) (l id : Nat) : State :=
  let g := laneGroup l
  let k := l % 8
  let fl := fieldLE (s.mapEntry g) 1 1
  let ident := decide (s.laneMode l = 1 ∨ s.laneMode l = 4)
  if !s.groupUniform g then
    let s := if (mapGet s.lan.rev g).isSome then s else s.setRev g (some false)
    if ident && decide (id = 7 - k) then s.setFlag (aLane l 4) 18 true else s
  else
    match mapGet s.lan.rev g with
    | none => s.setRev g (some (if !ident || fl.testBit 0 then fl.testBit 1 else decide (id = 7 - k)))
    | some r =>
      if ident && !fl.testBit 0 && decide (id ≠ if r then 7 - k else k) then s.setFlag (aLane l 4) 18 true else s

/-! ### Marker words (R513, R531) -/

/-- PATTERN of a marker word (R513). -/
def markerPattern : BitVec 48 := 0xA55AC33CE11E#48

/-- Bits 15 to 8 of the marker word of logical lane `k`. -/
def markerId (k : Nat) : BitVec 8 := BitVec.ofNat 8 (k % 8)

/-- The marker word that logical lane `k` sends (R513). -/
def markerWord (k : Nat) : BitVec 64 := markerPattern ++ markerId k ++ ~~~(markerId k)

/-- Bits in which two patterns differ. -/
def patternDistance (a b : BitVec 48) : Nat :=
  ((List.range 48).filter (fun i => (a ^^^ b).getLsbD i)).length

/-- A word matches the marker: PATTERN differs in at most 3 bits, CHECK is the exact complement (R531). -/
def isMarker (w : BitVec 64) : Bool :=
  decide (patternDistance (w.extractLsb' 16 48) markerPattern ≤ 3) && decide (w.extractLsb' 0 8 = ~~~(w.extractLsb' 8 8))

/-- How a word matches the marker: whether as its complement, and the sender's LANE_ID; none where it does not (R531). -/
def markerMatch (w : BitVec 64) : Option (Bool × Nat) :=
  if isMarker w then some (false, (w.extractLsb' 8 3).toNat)
  else if isMarker (~~~w) then some (true, ((~~~w).extractLsb' 8 3).toNat)
  else none

/-- The logical lane that a lane sends as (R532, R534). -/
def State.sendLogical (s : State) (l : Nat) : Nat := logicalOf l ((fieldLE (s.mapEntry (laneGroup l)) 1 1).testBit 2)

/-- The marker word that a raw or Wyile lane sends, in its transmit polarity (R513, R530, R534). -/
def State.sentMarker (s : State) (l : Nat) : BitVec 64 :=
  let w := markerWord (s.sendLogical l)
  if (fieldLE (s.mapEntry (laneGroup l)) 4 1).testBit (l % 8) then ~~~w else w

/-- Markers of the lane's mode carry lane identity (R532). -/
def State.laneIdent (s : State) (l : Nat) : Bool := decide (s.laneMode l = 1 ∨ s.laneMode l = 4)

/-- The alignment pattern as the lane finds it: inverted or not, and the LANE_ID where the mode carries one; none where the word
at the lane's bit position is no marker. -/
def State.lanePattern (s : State) (l : Nat) (inverted : Bool) (word : BitVec 64) : Option (Bool × Nat) :=
  if s.laneIdent l then markerMatch word else some (inverted, 0)

/-- The entry condition of a lane's next stage holds (R528 to R532); in pattern mode the stage stays at 4 or below (R539).
`word` is the word that a raw or Wyile lane compares with the marker, `inverted` the form in which another mode finds its alignment
pattern. DEDUCED: log entry 62. -/
def State.laneAdvance (s : State) (l : Nat) (inverted : Bool) (word : BitVec 64) : State :=
  let m := s.laneMode l
  if m = 0 ∨ !s.laneRx l ∨ (s.lane l).slipping then s
  else
    match s.laneStage l with
    | 0 => s.laneSettle l
    | 1 => s.setStage l 2
    | 2 =>
      match s.lanePattern l inverted word with
      | none => s
      | some (inv, id) =>
        let e := s.mapEntry (laneGroup l)
        let k := l % 8
        let used := if (fieldLE e 2 1).testBit k then (fieldLE e 3 1).testBit k else inv
        let s1 := (s.setFlag (aLane l 4) 28 inv).setFlag (aLane l 4) 27 used
        let s1 := if s.laneIdent l then
            ((s1.setField (aLane l 4) 26 24 id).setFlag (aLane l 4) 16 true).setFlag (aLane l 4) 14 false
          else s1
        (s1.setStage l 3).decideRev l id
    | 3 =>
      if s.flag (aLane l 4) 18 then s
      else
        let fec := decide (m = 3) || (decide (m = 1) && s.flag (aLane l 0) 15)
        (s.setStage l 4).setFlag (aLane l 4) 15 fec
    | 4 =>
      if s.laneTest l ∨ (m = 2 ∧ !(s.laneJesd l).any (fun j => s.lemcLocked (l / 16) j)) then s
      else s.setStage l 5
    | _ => s

/-- A lane stands at `k`, below its stage: the locks that no longer hold go, and a group with no lane at stage 3 forgets
its decision (R529, R532). A Wyile link loses its training (R590). -/
def State.laneFall (s : State) (l k : Nat) : State :=
  let was := s.laneStage l
  if was ≤ k then s
  else
    let links := s.laneLinks l
    let s := s.setStage l k
    let s := if k < 4 then s.setFlag (aLane l 4) 15 false else s
    let s := if k < 3 then (s.setFlag (aLane l 4) 16 false).setFlag (aLane l 4) 18 false else s
    let g := laneGroup l
    let s := if (mapGet s.lan.rev g).isSome ∧ (groupLanes g).all (fun x => decide (s.laneStage x < 3)) then s.setRev g none
      else s
    if k < 5 then links.foldl (fun s n => s.wylUntrain n) s else s

/-- One of the words that a lane compares at its bit position is a marker or its complement (R531). -/
def markerSeen (ws : List (BitVec 64)) : Bool := ws.any (fun w => (markerMatch w).isSome)

/-- A marker test ends after three marker periods; `ws` are words that the lane compared in them (R529, R531). DEDUCED: log
entry 62. -/
def State.slipDone (s : State) (l : Nat) (ws : List (BitVec 64)) : State :=
  if s.laneMode l ≠ 1 ∨ s.laneStage l ≠ 2 then s
  else
    let s := s.putLane l { s.lane l with slipping := false }
    (s.setFlag (aLane l 4) 16 (markerSeen ws)).setFlag (aLane l 4) 14 (!markerSeen ws)

/-- A SYSREF edge at reference edge number `n` (R518, R547): it aligns a link's LEMC, or is held against it. -/
def State.sysref (s : State) (d n : Nat) : State :=
  (List.range 8).foldl (fun s j =>
    if !s.flag (aJesd d j 0) 31 then s
    else
      let jn := s.field (aLane ((s.jesdPhys d j).headD (16 * d)) 0) 23 16
      let phase := n * jn % (2112 * s.jesdE d j)
      let s := s.setFlag (aJesd d j 8) 30 true
      match mapGet s.lan.lemc (8 * d + j) with
      | none => { s with lan := { s.lan with lemc := mapSet s.lan.lemc (8 * d + j) phase } }
      | some p => if !s.flag (aJesd d j 0) 30 ∧ p ≠ phase then s.setFlag (aJesd d j 8) 28 true else s) s

/-! ### Laser input (R540) -/

/-- OPT_ENG_STATUS of engine `e`. -/
def aOptEng (e o : Nat) : Nat := aOpt (e / 8) (0x1000 * (e % 8) + o)

/-- Laser input has stayed below LASER_MIN for 10 µs. -/
def State.laserLost (s : State) (e power : Nat) : State :=
  let s := s.setField (aOptEng e 8) 15 0 power
  if s.flag (aOptEng e 4) 31 ∧ power < s.field (aOptEng e 8) 31 16 then
    ((s.setFlag (aOptEng e 4) 31 false).setFlag (aOptEng e 4) 30 true).irqCause 1
  else s

/-- Laser input has stayed at or above 1.1 × LASER_MIN for 1 ms. -/
def State.laserBack (s : State) (e power : Nat) : State :=
  let s := s.setField (aOptEng e 8) 15 0 power
  if 11 * s.field (aOptEng e 8) 31 16 ≤ 10 * power then s.setFlag (aOptEng e 4) 31 true else s

/-- RX_PWR of optical lane `l` as of the last 10 µs update (R540). UNVERIFIED: log entry 37. -/
def State.rxPwr (s : State) (l : Nat) : Nat := (Config.rxPower l (s.now / 12500)).toNat

/-- OPT_ENG_STATUS as it reads (R549): the stored laser flags, TX_ACTIVE, TEMP, RX_LOS and FRAMED. -/
def State.engStatus (s : State) (e : Nat) : Nat :=
  let ls := groupLanes (4 + e)
  let ok := s.flag (aOptEng e 4) 31
  let th := fun (l : Nat) => s.field (aOptEng e (0x10 + 4 * (l % 8))) 31 16
  let bits := fun (f : Nat → Bool) => ls.foldl (fun v l => v + bitOf (f l) * 2 ^ (l % 8)) 0
  bitOf ok * 2 ^ 31 + bitOf (s.flag (aOptEng e 4) 30) * 2 ^ 30
    + bitOf (ok && ls.any (fun l => decide (s.laneMode l ≠ 0) && s.flag (aLane l 0) 13)) * 2 ^ 29
    + (Config.engineTemp e (s.now / 12500)).toNat * 2 ^ 16 + bits (fun l => decide (s.rxPwr l < th l)) * 2 ^ 8
    + bits (fun l => decide (5 ≤ s.laneStage l))

/-! ### Patterns (R538, R539, R545) -/

/-- The checker locks after 64 error-free bits and clears its counters. -/
def State.checkerLocks (s : State) (l : Nat) : State :=
  if s.flag (aLane l 0x40) 30 ∧ s.laneTest l then
    (s.setFlag (aLane l 0x40) 25 true).putLane l { s.lane l with errs := 0, bits := 0 }
  else s

/-- A read of a checker _LO register; `counted` is what the counter has counted since it locked (R545). A count past 48 bits
has no value that the spec gives. UNVERIFIED: log entry 30. -/
def State.prbsRead (s : State) (l : Nat) (bits : Bool) (counted : Nat) : State :=
  let a := if bits then 0x4C else 0x44
  if s.silent (aLane l a) then s.readOut 0
  else
  let x := s.lane l
  let on := s.flag (aLane l 0x40) 30 && s.flag (aLane l 0x40) 25
  let old := if bits then x.bits else x.errs
  let (v, s) := if !on then (old, s)
    else if counted < 2 ^ 48 then (counted, s)
    else let (f, s) := s.nextFree; ((Config.prbsPast f).toNat, s)
  let s := s.putLane l (if bits then { x with bits := v } else { x with errs := v })
  ((s.setReg (aLane l a) (BitVec.ofNat 32 v)).setReg (aLane l (a + 4)) (BitVec.ofNat 32 (v / 2 ^ 32))).readOut v

/-! ### Equalisation (R533) -/

/-- Code of the EQ record of the settings store (R660). -/
def kindEq : Nat := 0

/-- An equalisation entry that R533 does not reject, for lane `l`. -/
def eqOk (l : Nat) (e : List Byte) : Bool :=
  let a := fun (o : Nat) => (signedOf 8 (fieldLE e o 1)).natAbs
  decide (a 4 + a 5 + fieldLE e 6 1 + a 7 ≤ 63) && decide (fieldLE e 8 1 ≤ 31) && decide (fieldLE e 9 1 ≤ 31)
    && (decide (l < 32) || decide (bytesAt e 4 4 = zeroBytes 4))

/-- The default entry (R533). -/
def eqDefault (l rate : Nat) : List Byte :=
  leBytes 2 l ++ [BitVec.ofNat 8 rate, 1, 0, 0, (if l < 32 then 63 else 0), 0, 8, 16] ++ zeroBytes 6

/-- The entry of the equalisation record of the lane's die that matches its LSEL and RATE. -/
def State.eqRecord (s : State) (l : Nat) : Option (List Byte) :=
  let b := mapGetD s.sys.settings (8 * laneDie l + kindEq) []
  (chunks 16 (b.length + 1) b).find? (fun e => decide (fieldLE e 0 2 = l ∧ fieldLE e 2 1 = s.laneRate l)
    && (fieldLE e 3 1).testBit 0 && eqOk l e)

/-- Equalisation at UP (R533): an entry that SET_EQ has set for the rate, the record's, or the defaults. -/
def State.laneEq (s : State) (l : Nat) : State :=
  let x := s.lane l
  if x.eqSet && decide (fieldLE x.eq 2 1 = s.laneRate l) then
    (s.putLane l { x with eqSet := false }).setFlag (aLane l 4) 17 false
  else
    match s.eqRecord l with
    | some e => (s.putLane l { x with eq := e, eqSet := false }).setFlag (aLane l 4) 17 false
    | none => (s.putLane l { x with eq := eqDefault l (s.laneRate l), eqSet := false }).setFlag (aLane l 4) 17 true

/-! ### LANE_CTL (R541, R627) -/

/-- The word at byte `o` of ARGS. -/
def argWord (args : List Byte) (o : Nat) : Nat := fieldLE args o 4

/-- A mode and a rate code that R510 pairs. -/
def rateOk (optical : Bool) (w : Nat) : Bool :=
  let m := bitsOf w 31 29
  let r := bitsOf w 28 24
  let jn := bitsOf w 23 16
  if m = 0 then true
  else if optical then
    (decide (m = 1) && (decide (r = 9) || (decide (r = 0xA) && w.testBit 15))) || (decide (m = 3) && decide (r = 5))
      || (decide (m = 4) && decide (r = 0xA))
  else (decide (m = 1) && decide (r ∈ [1, 2, 4, 5, 6])) || (decide (m = 2) && decide (r = 3 ∧ 40 ≤ jn ∧ jn ≤ 208))
    || (decide (m = 3) && decide (r = 5)) || (decide (m = 4) && decide (r ∈ [4, 5, 6]))

/-- The lanes that TKIND and TARGET name: one lane, or the eight of an engine. -/
def ctlLanes (tkind target : Nat) : Option (List Nat) :=
  if tkind = 0 ∧ target < 160 then some [target]
  else if tkind = 1 ∧ target < 16 then some (groupLanes (4 + target))
  else none

/-- REFUSED_STATE at step 4 of R618. -/
def refState (s : State) : CmdRes := refusal s stState (det618 4)
/-- REFUSED_RANGE at step 5 of R618. -/
def refRange (s : State) : CmdRes := refusal s stRange (det618 5)
/-- Completed with OK and no result. -/
def done (s : State) : CmdRes := (s, stOK, 0, 0)

/-- SET_MODE (R509, R510, R541): a lane of the package balls or an engine, at stage 0 and not in use. -/
def State.ctlSetMode (s : State) (tkind target : Nat) (args : List Byte) : CmdRes :=
  match ctlLanes tkind target with
  | none => refRange s
  | some ls =>
    if tkind = 0 ∧ 32 ≤ target then refRange s
    else if ls.any (fun l => s.laneInUse l || decide (0 < s.laneStage l)) then refState s
    else
      let w := argWord args 0
      let opt := decide (tkind = 1)
      if !rateOk opt w ∨ 5 ≤ bitsOf w 31 29 then refRange s
      else
        let s := ls.foldl (fun s l =>
          let a := aLane l 0
          let s := ((s.setField a 31 29 (bitsOf w 31 29)).setField a 28 24 (bitsOf w 28 24)).setField a 23 16
            (if opt then 0 else bitsOf w 23 16)
          let s := ((s.setFlag a 15 (w.testBit 15)).setFlag a 11 (w.testBit 11)).setFlag a 10 (w.testBit 10)
          s.laneSettle l) s
        done (if opt then s.setField (aOptEng target 0) 31 29 (bitsOf w 31 29) else s)

/-- UP (R533, R541): the enables and the equalisation. -/
def State.ctlUp (s : State) (tkind target : Nat) : CmdRes :=
  match ctlLanes tkind target with
  | none => refRange s
  | some ls => done (ls.foldl (fun s l =>
      (((s.setFlag (aLane l 0) 14 true).setFlag (aLane l 0) 13 true).laneEq l).laneSettle l) s)

/-- DOWN (R541): the enables off, stage 0; mode and settings stay. -/
def State.ctlDown (s : State) (tkind target : Nat) : CmdRes :=
  match ctlLanes tkind target with
  | none => refRange s
  | some ls =>
    if ls.any (fun l => s.laneInUse l) then refState s
    else done (ls.foldl (fun s l =>
      (((s.setFlag (aLane l 0) 14 false).setFlag (aLane l 0) 13 false).laneFall l 0).putLane l
        { s.lane l with slipping := false }) s)

/-- SLIP (R531): the word boundary moves by the count, and a test begins. -/
def State.ctlSlip (s : State) (tkind target : Nat) (args : List Byte) : CmdRes :=
  if tkind ≠ 0 ∨ 160 ≤ target then refRange s
  else if s.laneMode target ≠ 1 ∨ 3 < s.laneStage target then refState s
  else
    let n := fieldLE args 0 1
    if n = 0 ∨ 63 < n then refRange s
    else
      let s := s.setField (aLane target 0) 5 0 ((s.field (aLane target 0) 5 0 + n) % 64)
      let s := s.laneFall target 2
      let s := (s.setFlag (aLane target 4) 16 false).setFlag (aLane target 4) 14 false
      done (s.putLane target { s.lane target with slipping := true })

/-- TEST (R538, R539): pattern mode while a generator or a checker is on. DEDUCED: log entry 63. -/
def State.ctlTest (s : State) (tkind target : Nat) (args : List Byte) : CmdRes :=
  if tkind ≠ 0 ∨ 160 ≤ target then refRange s
  else if s.laneInUse target then refState s
  else
    let w := argWord args 0
    let inj := bitsOf w 24 20
    if 4 < bitsOf w 29 27 ∨ (inj ≠ 0 ∧ (inj < 10 ∨ 30 < inj)) then refRange s
    else
      let s := s.setReg (aLane target 0x40) (BitVec.ofNat 32 (bitsOf w 31 26 * 2 ^ 26 + inj * 2 ^ 20))
      let on := w.testBit 31 || w.testBit 30
      let s := s.setFlag (aLane target 0) 12 on
      done (if on then s.laneFall target 4 else s)

/-- INJECT (R539): one transmitted bit inverted, which no state of the Keaha shows. DEDUCED: log entry 63. -/
def State.ctlInject (s : State) (tkind target : Nat) : CmdRes :=
  if tkind ≠ 0 ∨ 160 ≤ target then refRange s
  else if s.laneStage target = 0 then refState s
  else done s

/-- SET_EQ (R533). DEDUCED: log entry 63. -/
def State.ctlSetEq (s : State) (tkind target : Nat) (args : List Byte) : CmdRes :=
  if tkind ≠ 0 ∨ 160 ≤ target then refRange s
  else if 0 < s.laneStage target then refState s
  else
    let e := bytesAt args 0 16
    if !eqOk target e then refRange s
    else done (s.putLane target { s.lane target with eq := leBytes 2 target ++ e.drop 2, eqSet := true })

/-- SET_MAP (R534). -/
def State.ctlSetMap (s : State) (tkind target : Nat) (args : List Byte) : CmdRes :=
  if tkind ≠ 2 ∨ 20 ≤ target then refRange s
  else if (groupLanes target).any (fun l => decide (0 < s.laneStage l)) then refState s
  else
    let e := BitVec.ofNat 8 target :: (bytesAt args 0 8).drop 1
    done { s with lan := { s.lan with maps := mapSet s.lan.maps target e } }

/-- PSEL that a lane or port target names. -/
def ctlPsel (tkind target : Nat) : Option Nat :=
  if (tkind = 0 ∧ target < 32) ∨ (tkind = 3 ∧ target < 96) then some target else none

/-- SET_CLASS (R521, R546). -/
def State.ctlSetClass (s : State) (tkind target index : Nat) (args : List Byte) : CmdRes :=
  match ctlPsel tkind target with
  | none => refRange s
  | some p =>
    if s.pselInUse p then refState s
    else if 16 ≤ index then refRange s
    else
      let a := aPsel p
      let s := s.setReg (a + 0x100 + 4 * index) (BitVec.ofNat 32 (bitsOf (argWord args 0) 31 29 * 2 ^ 29 + bitsOf (argWord args 0) 15 0))
      let s := s.setReg (a + 0x140 + 4 * index) (BitVec.ofNat 32 (bitsOf (argWord args 4) 15 0))
      done ((s.setReg (a + 0x180) (BitVec.ofNat 32 (argWord args 8))).setReg (a + 0x184)
        (BitVec.ofNat 32 (bitsOf (argWord args 12) 15 0)))

/-- SET_OUT (R522, R546); the header bytes come from the host buffer. -/
def State.ctlSetOut (s : State) (h : CmdHdr) (tkind target index : Nat) (args : List Byte) : CmdRes :=
  match ctlPsel tkind target with
  | none => refRange s
  | some p =>
    if 8 ≤ index then refRange s
    else
      let k := s.reg (aTempl p index 0x200)
      let st := (s.part (getBits k 7 4)).state
      if getBits k 31 31 = 1 ∧ (st = .loaded ∨ st = .running ∨ st = .pausing) then refState s
      else
        let c := argWord args 4
        let n := bitsOf c 21 15
        if hostShort h n ∨ 64 < n ∨ (0 < n ∧ n < 14) ∨ (c.testBit 22 ∧ n < bitsOf c 14 8 + 28) then refRange s
        else if h.hostErr ∧ 0 < n then refusal s stFault 0xFFFF
        else
          let b := bytesAt (s.hostInput h) 0 n ++ zeroBytes (64 - n)
          let s := s.setReg (aTempl p index 0x200)
            (BitVec.ofNat 32 (bitsOf (argWord args 0) 31 31 * 2 ^ 31 + bitsOf (argWord args 0) 7 0))
          let s := s.setReg (aTempl p index 0x204) (BitVec.ofNat 32 (bitsOf c 31 4 * 2 ^ 4))
          let s := (List.range 16).foldl (fun s w =>
            s.setReg (aTempl p index (0x240 + 4 * w)) (BitVec.ofNat 32 (fieldLE b (4 * w) 4))) s
          let x := s.outPort p
          done (s.putOut p { x with open_ := mapErase x.open_ index, fseq := mapErase x.fseq index })

/-- SET_JESD (R516, R547). -/
def State.ctlSetJesd (s : State) (tkind target : Nat) (args : List Byte) : CmdRes :=
  if tkind ≠ 4 ∨ 16 ≤ target then refRange s
  else
    let d := target / 8
    let j := target % 8
    let mask := bitsOf (argWord args 4) 15 0
    let c := argWord args 0
    let new := ((List.range 16).map (fun k => 16 * d + k)).filter (fun l => mask.testBit (s.laneLogical l))
    if (s.jesdPhys d j ++ new).any (fun l => s.laneInUse l) then refState s
    else if 7 < bitsOf c 11 8 ∨ 32 * (bitsOf c 11 8 + 1) ≤ bitsOf c 23 16 ∨ (c.testBit 31 ∧ mask = 0) then refRange s
    else
      let w := bitsOf c 31 30 * 2 ^ 30 + bitsOf c 23 16 * 2 ^ 16 + bitsOf c 11 8 * 2 ^ 8
      let s := (s.setReg (aJesd d j 0) (BitVec.ofNat 32 w)).setReg (aJesd d j 4) (BitVec.ofNat 32 mask)
      done { s with lan := { s.lan with lemc := mapErase s.lan.lemc target } }

/-! ### Eye scans (R535 to R537) -/

/-- Grid points on one axis from `a` to `b` in steps of `st`, raw bytes of int8. -/
def eyePoints (a b st : Nat) : Nat := ((signedOf 8 b - signedOf 8 a) / (signedOf 8 st)).toNat + 1
/-- Points of a grid. -/
def gridPoints (g : EyeGrid) : Nat := eyePoints g.phMin g.phMax g.phStep * eyePoints g.ofMin g.ofMax g.ofStep

/-- The eye scan that runs or waits on a lane. -/
def State.eyeOps (s : State) (l : Nat) : List Op :=
  s.ops.filter (fun o => match o.cmd with | .eyeScan _ x _ => decide (x = l) | _ => false)

/-- Check of EYE_SCAN (R536). -/
def State.eyeCheck (s : State) (h : CmdHdr) (l : Nat) (g : EyeGrid) : Option (Nat × Nat) :=
  let sg := fun (v : Nat) => signedOf 8 v
  if 160 ≤ l then some (stRange, det618 5)
  else if s.laneStage l < 2 ∨ s.eyeOps l ≠ [] then some (stState, det618 4)
  else if sg g.phStep < 1 ∨ sg g.ofStep < 1 ∨ sg g.phMax < sg g.phMin ∨ sg g.ofMax < sg g.ofMin ∨ sg g.phMin < -32
      ∨ 31 < sg g.phMax ∨ sg g.ofMin < -63 ∨ 63 < sg g.ofMax ∨ g.dwell < 16 ∨ 34 < g.dwell ∨ 2 < g.eye
      ∨ (s.laneRate l ≤ 3 ∧ g.eye ≠ 0) ∨ hostShort h (32 + 4 * (gridPoints g)) then some (stRange, det618 5)
  else none

/-- The result of a scan with `n` points measured, counts in `cs` (R537). DEDUCED: log entry 64. -/
def State.eyeResult (s : State) (l : Nat) (g : EyeGrid) (n : Nat) (cs : List Byte) : List Byte :=
  leBytes 2 l ++ [BitVec.ofNat 8 (s.laneRate l), BitVec.ofNat 8 g.eye, BitVec.ofNat 8 (s.laneMode l), BitVec.ofNat 8 g.dwell]
    ++ leBytes 2 (eyePoints g.phMin g.phMax g.phStep) ++ leBytes 2 (eyePoints g.ofMin g.ofMax g.ofStep)
    ++ [g.phMin, g.phMax, g.phStep, g.ofMin, g.ofMax, g.ofStep].map (BitVec.ofNat 8)
    ++ leBytes 4 n ++ leBytes 4 (bitOf (decide (n = (gridPoints g)))) ++ leBytes 8 (timeOf (s.tb 0).t).sec ++ cs

/-- LAN_EYE_STATUS of a lane. -/
def State.eyeStatus (s : State) (l : Nat) (busy : Bool) (n : Nat) : State :=
  s.setReg (aLane l 0x60) (BitVec.ofNat 32 (bitOf busy * 2 ^ 31 + min 65535 n))

/-- A scan ends: its result is written, and it completes. -/
def State.eyeEnd (s : State) (o : Op) (l : Nat) (g : EyeGrid) (st : Nat) : State :=
  let s := if o.orphan then s else s.hostWrite o.hdr (s.eyeResult l g o.done (bytesAt o.buf 0 (4 * o.done)))
  (s.eyeStatus l false o.done).finishOp o st 0 o.done

/-- A lane loses signal, lock or alignment and drops (R529, R536). -/
def State.laneDrop (s : State) (l k : Nat) : State :=
  let was := s.laneStage l
  if was ≤ k ∨ k = 0 then s
  else
    let s := s.laneFall l k
    let s := if 5 ≤ was ∧ k < 5 then (s.setFlag (aLane l 4) 13 true).irqCause 1 else s
    if k < 2 then (s.eyeOps l).foldl (fun s o => match o.cmd with
      | .eyeScan _ _ g => s.eyeEnd o l g stFault
      | _ => s) s
    else s

/-! ### Meanings -/

/-- RAW_FRAME_RECEIVE (R515). -/
def execRawFrameReceive (psel lane : Nat) (bytes : List Byte) (check corrected : Nat) (failed : Bool) (s : State) : Host.Outcome State Fault Refusal :=
  .next (s.only (.rawFrameReceive psel lane bytes check corrected failed) (s.rawFrame psel lane bytes check corrected failed))
/-- JESD_MULTIBLOCK_RECEIVE (R517). -/
def execJesdMultiblockReceive (die link : Nat) (lanes : List (List Byte)) (crcOk : Bool) (s : State) : Host.Outcome State Fault Refusal :=
  .next (s.only (.jesdMultiblockReceive die link lanes crcOk) (s.jesdMultiblock die link lanes crcOk))
/-- ETH_FRAME_RECEIVE (R521). -/
def execEthFrameReceive (psel : Nat) (bytes : List Byte) (fcs corrected : Nat) (s : State) : Host.Outcome State Fault Refusal :=
  .next (s.only (.ethFrameReceive psel bytes fcs corrected) (s.ethFrame psel bytes fcs corrected))
/-- LANE_STAGE_ADVANCE (R528). -/
def execLaneStageAdvance (l : Nat) (inverted : Bool) (word : BitVec 64) (s : State) : Host.Outcome State Fault Refusal :=
  .next (s.only (.laneStageAdvance l inverted word) (s.laneAdvance l inverted word))
/-- LANE_DROP (R529). -/
def execLaneDrop (l k : Nat) (s : State) : Host.Outcome State Fault Refusal :=
  .next (s.only (.laneDrop l k) (s.laneDrop l k))
/-- SLIP_TEST_DONE (R531). -/
def execSlipTestDone (l : Nat) (words : List (BitVec 64)) (s : State) : Host.Outcome State Fault Refusal :=
  .next (s.only (.slipTestDone l words) (s.slipDone l words))
/-- SYSREF_EDGE (R518). -/
def execSysrefEdge (d phase : Nat) (s : State) : Host.Outcome State Fault Refusal :=
  .next (s.only (.sysrefEdge d phase) (s.sysref d phase))
/-- LASER_LOSS (R540). -/
def execLaserLoss (e power : Nat) (s : State) : Host.Outcome State Fault Refusal :=
  .next (s.only (.laserLoss e power) (s.laserLost e power))
/-- LASER_RECOVERY (R540). -/
def execLaserRecovery (e power : Nat) (s : State) : Host.Outcome State Fault Refusal :=
  .next (s.only (.laserRecovery e power) (s.laserBack e power))
/-- CHECKER_LOCK (R538). -/
def execCheckerLock (l : Nat) (s : State) : Host.Outcome State Fault Refusal :=
  .next (s.only (.checkerLock l) (s.checkerLocks l))
/-- LAN_PRBS_LO_READ (R545). -/
def execLanPrbsLoRead (l : Nat) (bits : Bool) (counted : Nat) (s : State) : Host.Outcome State Fault Refusal :=
  .next (s.only (.lanPrbsLoRead l bits counted) (s.prbsRead l bits counted))

end Sys2Proof.Machine
end

