-- ==== Sys2Proof/Machine/Settings.lean ====
section
/-! DEFINITION. The settings store (R659 to R664): records, what a commit captures, the commit, and what boot applies. -/

namespace Sys2Proof.Machine

/-- A settings record as it is stored and exchanged: header, body, padding to a multiple of 8 (R659). -/
def recordBytes (kind : Nat) (body : List Byte) : List Byte :=
  [BitVec.ofNat 8 kind, 1, 0, 0] ++ leBytes 4 body.length ++ body ++ zeroBytes (pad8 body.length - body.length)

/-- Records of one die in increasing kind. -/
def recordsBytes (m : AMap (List Byte)) : List Byte := m.foldl (fun b e => b ++ recordBytes e.1 e.2) []

/-- Parse records that follow one another. -/
def parseRecords : Nat → List Byte → AMap (List Byte)
  | 0, _ => []
  | n + 1, b =>
    if b.length < 8 then []
    else
      let len := fieldLE b 4 4
      mapSet (parseRecords n (b.drop (8 + pad8 len))) (fieldLE b 0 1) (bytesAt b 8 len)

/-- The committed records of die `d`. -/
def State.committed (s : State) (d : Nat) : AMap (List Byte) :=
  (s.sys.settings.filter (fun e => decide (e.1 / 8 = d))).map (fun e => (e.1 % 8, e.2))

/-- A record that exists only when its body holds something (R660). -/
def bodyIf (k : Nat) (b : List Byte) : AMap (List Byte) := if b.isEmpty then [] else [(k, b)]

/-- The body of words at the given registers. -/
def State.wordsAt (s : State) (as : List Nat) : List Byte := as.foldl (fun b a => b ++ leBytes 4 (s.reg a).toNat) []

/-- Registers of the TB_TRIM record, in order (R660). -/
def trimRegs : List Nat :=
  (List.range 4).map (fun t => aTb t 0x08) ++ [aTim 0x20004, aTim 0x20024, aTim 0x2000C]
    ++ (List.range 64).map (fun w => aTim (0x20100 + 4 * w))

/-- Registers of the BUCKET record of die `d`. -/
def bucketRegs (d : Nat) : List Nat := (List.range 5).map (fun k => aFlt d (0x100 + 0x10 * k))

/-- Calibration words of TRIG_IN `n`. -/
def calRegs (n : Nat) : List Nat := (List.range 64).map (fun w => (tdcRegs n).2 + 4 * w)

/-- Lanes of die `d`, by LSEL. -/
def dieLanes (d : Nat) : List Nat := (List.range 16).map (16 * d + ·) ++ (List.range 64).map (32 + 64 * d + ·)
/-- Groups of die `d`. -/
def dieGroups (d : Nat) : List Nat := [2 * d, 2 * d + 1] ++ (List.range 8).map (4 + 8 * d + ·)

/-- What STORE_SETTINGS captures of captured kind `k` on die `d` (R660). -/
def State.capture (s : State) (d k : Nat) : AMap (List Byte) :=
  match k with
  | 0 => bodyIf 0 ((dieLanes d).foldl (fun b l =>
      if s.flag (aLane l 4) 17 then b else b ++ (s.lane l).eq) [])
  | 1 => bodyIf 1 ((dieGroups d).foldl (fun b g => b ++ mapGetD s.lan.maps g []) [])
  | 2 => bodyIf 2 ((List.range 4).foldl (fun b i =>
      let n := 4 * d + i
      if s.flag (tdcRegs n).1 29 then
        b ++ [BitVec.ofNat 8 n, 0, 0, 0] ++ leBytes 2 (s.field ((tdcRegs n).1 + 4) 15 0) ++ [0, 0] ++ s.wordsAt (calRegs n)
      else b) [])
  | 3 => if d = 0 then [(3, s.wordsAt trimRegs)] else []
  | 4 => [(4, s.wordsAt (bucketRegs d))]
  | 5 => if d = 0 then [(5, s.wordsAt [aPwr 0 8])] else []
  | _ => []

/-! ### Host records (R661, R662) -/

/-- A well-formed SECURITY body. -/
def securityOk (b : List Byte) : Bool :=
  let n := fieldLE b 1 1
  decide (b.length = 392) && decide (fieldLE b 0 1 ≤ 1) && decide (n ≤ 8) && decide (fieldLE b 2 1 < 32)
    && allZero (bytesAt b 3 5) && allZero (b.drop (8 + 48 * n))

/-- A well-formed PCIE body. -/
def pcieOk (b : List Byte) : Bool := decide (b.length = 8) && decide (fieldLE b 0 1 ≤ 1) && allZero (b.drop 1)

/-- The record of kind `k` at the head of the host buffer, and what follows it; the padded SECURITY body is followed by its
204-byte authorisation. -/
def hostRecord (k : Nat) (b : List Byte) : Option (List Byte × List Byte × List Byte) :=
  let len := fieldLE b 4 4
  let body := bytesAt b 8 len
  let aft := if k = 6 then 204 else 0
  let n := 8 + pad8 len
  if 8 ≤ b.length ∧ fieldLE b 0 1 = k ∧ fieldLE b 1 1 = 1 ∧ fieldLE b 2 2 = 0 ∧ n + aft ≤ b.length
      ∧ (if k = 6 then securityOk body else pcieOk body) ∧ allZero (bytesAt b (8 + len) (n - 8 - len)) then
    some (body, bytesAt b n aft, b.drop (n + aft))
  else none

/-- The host records that RMASK selects: bodies of kinds 6 and 7, and the authorisation; none when one is missing, surplus
or malformed. -/
def hostRecords (rmask : Nat) (b : List Byte) : Option (AMap (List Byte) × List Byte) :=
  if rmask.testBit 6 then
    match hostRecord 6 b with
    | none => none
    | some (sec, auth, r) =>
      if rmask.testBit 7 then
        match hostRecord 7 r with
        | some (pc, _, []) => some ([(6, sec), (7, pc)], auth)
        | _ => none
      else if r.isEmpty then some ([(6, sec)], auth) else none
  else if rmask.testBit 7 then
    match hostRecord 7 b with
    | some (pc, _, []) => some ([(7, pc)], [])
    | _ => none
  else some ([], [])

/-- The bytes of DEVICE_ID. -/
def State.deviceId (s : State) : List Byte := beBytes 16 s.hw.deviceId.toNat

/-- Key hashes of a SECURITY body. -/
def keyHashes (b : List Byte) : List (List Byte) := (List.range (fieldLE b 1 1)).map (fun i => bytesAt b (8 + 48 * i) 48)

/-- The authorisation of a SECURITY body (R661). -/
def State.authorised (s : State) (body auth : List Byte) : Bool :=
  let keys := keyHashes (mapGetD s.sys.settings 6 [])
  keys.isEmpty || (decide (fieldLE auth 0 2 = 1) && decide (fieldLE auth 4 4 = 196)
    && keys.contains (sha384 (bytesAt auth 8 97))
    && ecdsaVerify (sha384 (s.deviceId ++ leBytes 8 s.sys.seq ++ body)) (bytesAt auth 8 97) (bytesAt auth 0x6C 48)
      (bytesAt auth 0x9C 48))

/-- STORE_SETTINGS runs (R662). -/
def State.storing (s : State) : Bool := s.ops.any (fun o => decide (o.opcode = 0x41))

/-- Check of STORE_SETTINGS (R661, R662). DEDUCED: log entry 72. -/
def State.storeCheck (s : State) (h : CmdHdr) (rmask : Nat) : Option (Nat × Nat) :=
  let hr := hostRecords rmask (bytesAt (s.hostInput h) 0 h.hostLen)
  let signed := match hr with
    | some (m, auth) => (match mapGet m 6 with | some b => s.authorised b auth | none => true)
    | none => true
  if 256 ≤ rmask then some (stRange, det618 1)
  else if !signed then some (stOwner, det618 3)
  else if s.storing then some (stState, det618 4)
  else if hr.isNone ∨ hostShort h 0 then some (stRange, det618 5)
  else none

/-- The records of die `d` after the commit: the committed ones with the selected kinds replaced. -/
def State.newRecords (s : State) (d rmask : Nat) (host : AMap (List Byte)) : AMap (List Byte) :=
  let keep := (s.committed d).filter (fun e => !rmask.testBit e.1)
  (List.range 8).foldl (fun m k =>
    if rmask.testBit k then
      (s.capture d k ++ (if d = 0 then host.filter (fun e => decide (e.1 = k)) else [])).foldl (fun m e => mapSet m e.1 e.2) m
    else m) keep

/-- What the accepted command carries to its last step: the new records of die 0 and of die 1. -/
def State.storeImage (s : State) (h : CmdHdr) (rmask : Nat) : List Byte :=
  let host := match hostRecords rmask (bytesAt (s.hostInput h) 0 h.hostLen) with | some (m, _) => m | none => []
  let b0 := recordsBytes (s.newRecords 0 rmask host)
  leBytes 4 b0.length ++ b0 ++ recordsBytes (s.newRecords 1 rmask host)

/-- The records of die `d` in such an image. DEDUCED: log entry 72. -/
def storeRecords (b : List Byte) (d : Nat) : AMap (List Byte) :=
  let n := fieldLE b 0 4
  if d = 0 then parseRecords 8 (bytesAt b 4 n) else parseRecords 8 (b.drop (4 + n))

/-- Settings of a die put into the committed map. -/
def State.putSettings (s : State) (d : Nat) (m : AMap (List Byte)) : State :=
  let keep := s.sys.settings.filter (fun e => !decide (e.1 / 8 = d))
  { s with sys := { s.sys with settings := m.foldl (fun a e => mapSet a (8 * d + e.1) e.2) keep } }

/-- The inactive banks of die 1 and then of die 0 are written, read back and checked (R662); `good` is that check. DEDUCED: log entry 72. -/
def State.storeEnd (s : State) (b : List Byte) (good : Bool) : State × Nat :=
  let q := s.sys.seq + 1
  let s := [1, 0].foldl (fun (s : State) d =>
    let st := aNvs d 0
    let k := 1 - s.field st 29 29
    let s := s.addField st 16 0 1
    if good then
      let s := { s with sys := { s.sys with banks := mapSet s.sys.banks (2 * d + k) ⟨q, storeRecords b d⟩ } }
      (s.putSettings d (storeRecords b d)).setField st 29 29 k
    else { s with sys := { s.sys with banks := mapErase s.sys.banks (2 * d + k) } }) s
  if good then ({ s with sys := { s.sys with seq := q } }, stOK) else (s, stFault)

/-- Records that READ_SETTINGS returns (R664). -/
def State.readSettings (s : State) (rmask : Nat) : List Byte :=
  (maskList 8 rmask).foldl (fun b k => [0, 1].foldl (fun b d =>
    match mapGet (s.committed d) k with
    | some x => b ++ recordBytes k x
    | none => b) b) []

/-! ### Boot (R660, R663) -/

/-- The Crowns select the highest SEQ whose bank is valid on both dies (R663); the PCIE record sets the host link. -/
def State.selectBanks (s : State) : State :=
  let bankOf := fun (d q : Nat) => [0, 1].find? (fun k => match mapGet s.sys.banks (2 * d + k) with
    | some b => decide (b.seq = q) | none => false)
  let seqs := (s.sys.banks.filter (fun e => decide (e.1 < 2))).map (fun e => e.2.seq)
  let common := seqs.filter (fun q => (bankOf 1 q).isSome)
  match common.foldl (fun (m : Option Nat) q => match m with | some x => some (max x q) | none => some q) none with
  | none => (s.setFlag (aNvs 0 0) 30 true).setFlag (aNvs 1 0) 30 true
  | some q =>
    let s := [0, 1].foldl (fun s d =>
      let k := (bankOf d q).getD 0
      let recs := match mapGet s.sys.banks (2 * d + k) with | some b => b.recs | none => []
      (s.putSettings d recs).setField (aNvs d 0) 29 29 k) s
    let two := decide (fieldLE (mapGetD s.sys.settings 7 []) 0 1 = 1)
    { s with sys := { s.sys with seq := q, twoX8 := two } }

/-- Words of a record body into registers. -/
def State.putRegs (s : State) (as : List Nat) (b : List Byte) : State :=
  (List.range as.length).foldl (fun s i => s.setReg (as.getD i 0) (BitVec.ofNat 32 (fieldLE b (4 * i) 4))) s

/-- Apply a bank's lane maps (record 1) to the lanes. -/
def State.applyMaps (s : State) (b : List Byte) : State :=
  { s with lan := { s.lan with maps := (chunks 8 21 b).foldl (fun m e => mapSet m (fieldLE e 0 1) e) s.lan.maps } }

/-- Apply one calibration table of a bank (record 2): offset, LUT and the valid bit of its TDC. -/
def State.applyCal (s : State) (e : List Byte) : State :=
  let n := fieldLE e 0 1
  ((s.setReg ((tdcRegs n).1 + 4) (BitVec.ofNat 32 (fieldLE e 4 2))).putRegs (calRegs n) (e.drop 8)).setFlag
    (tdcRegs n).1 29 true

/-- Apply the bank of a die: lane maps, calibration tables and error buckets (records 1, 2 and 4). -/
def State.applyDie (s : State) (d : Nat) : State :=
  let m := s.committed d
  let s := (chunks 264 5 (mapGetD m 2 [])).foldl State.applyCal (s.applyMaps (mapGetD m 1 []))
  match mapGet m 4 with | some b => s.putRegs (bucketRegs d) b | none => s

/-- Apply the servo trims of the package (record 3). -/
def State.applyTrims (s : State) (b : List Byte) : State :=
  let s := (List.range 4).foldl (fun s t => s.manadjWrite t (BitVec.ofNat 32 (fieldLE b (4 * t) 4))) s
  s.putRegs (trimRegs.drop 4) (b.drop 16)

/-- Apply the security record (6): the record itself and each port's lock. -/
def State.applySec (s : State) (b : List Byte) : State :=
  let s := { s with sys := { s.sys with settings := mapSet s.sys.settings secKey b } }
  (List.range 5).foldl (fun s i => s.setFlag (aCtl (0x100 + 0x20 * i)) 30 ((fieldLE b 2 1).testBit i)) s

/-- The records applied at boot (R437, R489, R562, R660, R666). -/
def State.applySettings (s : State) : State :=
  let s := (s.applyDie 0).applyDie 1
  let m := s.committed 0
  let s := match mapGet m 3 with | some b => s.applyTrims b | none => s
  let s := match mapGet m 5 with | some b => s.putRegs [aPwr 0 8] b | none => s
  match mapGet m 6 with | some b => s.applySec b | none => s

end Sys2Proof.Machine
end

