-- ==== Sys2Proof/Machine/Cmd.lean ====
section
/-! DEFINITION. What a Gliniril command is by its table row: header, opcode, class, the partition it names (R622), and when
its regions and firmware domain can serve it (R656, R668). -/

namespace Sys2Proof.Machine

/-- Header, opcode and named partition of a Gliniril command (R622); none for an event. -/
def cmdInfo : Instr → Option (CmdHdr × Nat × Option Nat)
  | .identify h => some (h, 0x01, none)
  | .query h _ _ => some (h, match h.unknown with | some o => o.toNat | none => 0x02, none)
  | .bind h p _ _ _ => some (h, 0x10, some p)
  | .unbind h p _ => some (h, 0x11, some p)
  | .stageImage h p _ _ _ _ => some (h, 0x12, some p)
  | .load h p _ _ _ _ => some (h, 0x13, some p)
  | .startAt h p _ _ _ => some (h, 0x20, some p)
  | .pause h p => some (h, 0x21, some p)
  | .saveState h p _ => some (h, 0x22, some p)
  | .restoreState h p _ => some (h, 0x23, some p)
  | .resume h p _ => some (h, 0x24, some p)
  | .setModeAtScaleSet h p _ _ _ => some (h, 0x25, some p)
  | .setModeAtTrigger h p _ _ _ => some (h, 0x25, some p)
  | .setModeAtSeeds h p _ _ _ _ => some (h, 0x25, some p)
  | .setModeAtCancel h p => some (h, 0x25, some p)
  | .arm h p _ => some (h, 0x30, some p)
  | .disarm h p _ => some (h, 0x31, some p)
  | .forceTrigger h _ => some (h, 0x32, none)
  | .scrub h _ _ _ _ _ _ => some (h, 0x40, none)
  | .storeSettings h _ => some (h, 0x41, none)
  | .readSettings h _ => some (h, 0x42, none)
  | .eyeScan h _ _ => some (h, 0x50, none)
  | .laneCtlSetMode h _ _ _ _ | .laneCtlUp h _ _ _ _ | .laneCtlDown h _ _ _ _ | .laneCtlSlip h _ _ _ _
  | .laneCtlTest h _ _ _ _ | .laneCtlInject h _ _ _ _ | .laneCtlSetEq h _ _ _ _ | .laneCtlSetMap h _ _ _ _
  | .laneCtlSetClass h _ _ _ _ | .laneCtlSetOut h _ _ _ _ | .laneCtlSetJesd h _ _ _ _ => some (h, 0x51, none)
  | .setWakeTol h p _ => some (h, 0x52, if p < 16 then some p else none)
  | .counterRead h _ _ _ => some (h, 0x60, none)
  | .auditFetch h p _ _ _ => some (h, 0x61, some p)
  | .mittenPair h _ _ _ _ => some (h, 0x70, none)
  | .mittenPairDissolve h => some (h, 0x70, none)
  | .barrier h _ _ _ _ => some (h, 0x71, none)
  | .bufWrite h _ => some (h, 0xF0, none)
  | .bufRead h => some (h, 0xF1, none)
  | _ => none

/-- Package-wide commands (R622). -/
def opPackage (op : Nat) : Bool := decide (op ∈ [0x01, 0x41, 0x42, 0x50, 0x51, 0x60, 0x70, 0x71])
/-- Commands of class W or S (R622). -/
def opLong (op : Nat) : Bool := decide (op ∈ [0x12, 0x13, 0x20, 0x21, 0x22, 0x23, 0x24, 0x25, 0x40, 0x41, 0x50, 0x71])
/-- Commands that need the lead Crown (R656). -/
def opCrown (op : Nat) : Bool := decide (op ∈ [0x41, 0x13, 0x25])
/-- Commands that wake nothing (R668). -/
def opQuiet (op : Nat) : Bool := decide (op ∈ [0x02, 0x61, 0x52])

/-- A Gliniril command with its header changed. -/
def mapHdr (hd : CmdHdr → CmdHdr) : Instr → Instr
  | .identify h => .identify (hd h)
  | .query h a b => .query (hd h) a b
  | .bind h a b c d => .bind (hd h) a b c d
  | .unbind h a b => .unbind (hd h) a b
  | .stageImage h a b c d e => .stageImage (hd h) a b c d e
  | .load h a b c d e => .load (hd h) a b c d e
  | .startAt h a b c d => .startAt (hd h) a b c d
  | .pause h a => .pause (hd h) a
  | .saveState h a b => .saveState (hd h) a b
  | .restoreState h a b => .restoreState (hd h) a b
  | .resume h a b => .resume (hd h) a b
  | .setModeAtScaleSet h a b c d => .setModeAtScaleSet (hd h) a b c d
  | .setModeAtTrigger h a b c d => .setModeAtTrigger (hd h) a b c d
  | .setModeAtSeeds h a b c d e => .setModeAtSeeds (hd h) a b c d e
  | .setModeAtCancel h a => .setModeAtCancel (hd h) a
  | .arm h a b => .arm (hd h) a b
  | .disarm h a b => .disarm (hd h) a b
  | .forceTrigger h a => .forceTrigger (hd h) a
  | .scrub h a b c d e f => .scrub (hd h) a b c d e f
  | .storeSettings h a => .storeSettings (hd h) a
  | .readSettings h a => .readSettings (hd h) a
  | .eyeScan h a b => .eyeScan (hd h) a b
  | .laneCtlSetMode h a b c d => .laneCtlSetMode (hd h) a b c d
  | .laneCtlUp h a b c d => .laneCtlUp (hd h) a b c d
  | .laneCtlDown h a b c d => .laneCtlDown (hd h) a b c d
  | .laneCtlSlip h a b c d => .laneCtlSlip (hd h) a b c d
  | .laneCtlTest h a b c d => .laneCtlTest (hd h) a b c d
  | .laneCtlInject h a b c d => .laneCtlInject (hd h) a b c d
  | .laneCtlSetEq h a b c d => .laneCtlSetEq (hd h) a b c d
  | .laneCtlSetMap h a b c d => .laneCtlSetMap (hd h) a b c d
  | .laneCtlSetClass h a b c d => .laneCtlSetClass (hd h) a b c d
  | .laneCtlSetOut h a b c d => .laneCtlSetOut (hd h) a b c d
  | .laneCtlSetJesd h a b c d => .laneCtlSetJesd (hd h) a b c d
  | .setWakeTol h a b => .setWakeTol (hd h) a b
  | .counterRead h a b c => .counterRead (hd h) a b c
  | .auditFetch h a b c d => .auditFetch (hd h) a b c d
  | .mittenPair h a b c d => .mittenPair (hd h) a b c d
  | .mittenPairDissolve h => .mittenPairDissolve (hd h)
  | .barrier h a b c d => .barrier (hd h) a b c d
  | .bufWrite h a => .bufWrite (hd h) a
  | .bufRead h => .bufRead (hd h)
  | c => c

/-- A command without what the outside world supplies when it is taken: host memory as read. -/
def bare (c : Instr) : Instr := mapHdr (fun h => { h with input := [], hostErr := false }) c
/-- Two commands are the same submission. DEDUCED: log entry 7. -/
def sameCmd (a b : Instr) : Bool := decide (bare a = bare b)

/-- A ready command that no dispatcher cycle has completed names partition `p`. -/
def State.held (s : State) (p : Nat) : Bool :=
  allPorts.any (fun q => (s.port q).ready.any (fun c => match cmdInfo c with
    | some (_, op, some r) => decide (r = p) && !opQuiet op
    | _ => false))

/-! ### Power states (R665 to R668) -/

/-- Wake time of a power state in µs (R665). -/
def wakeTime (l : Nat) : Nat := if l = 0 then 0 else if l = 1 then 2 else if l = 2 then 150 else if l = 3 then 4000 else 120000
/-- The package's tolerance (R666). -/
def State.pkgTol (s : State) : Nat := (s.reg (aPwr 0 8)).toNat
/-- A partition's tolerance. -/
def State.partTol (s : State) (p : Nat) : Nat :=
  let t := (s.reg (aPwr 0 (0x100 + 4 * p))).toNat
  if t = 2 ^ 32 - 1 then s.pkgTol else t
/-- A region's tolerance. -/
def State.regionTol (s : State) (r : Nat) : Nat :=
  match s.regionPart r with | some p => s.partTol p | none => s.pkgTol
/-- State of the package (R672). -/
def State.pkgState (s : State) : Nat := s.field (aPwr 0 0) 31 29
/-- Set the power state of a region; a fused region is absent (R4): its field of PWR_REGION stays 0, and it takes no part in entries
and wakes. DESIGN CHOICE: log entry 101. -/
def State.setPower (s : State) (r l : Nat) : State := if s.isFused r then s else s.setField (aPwr (r / 8) 4) (3 * (r % 8) + 2) (3 * (r % 8)) l
/-- Partitions that hold a region. -/
def State.partsOn (s : State) : List Nat := (s.parts.filter (fun e => decide (e.2.state ≠ .none))).map (·.1)
/-- Deepest package state of P3 and P4 that a tolerance allows. -/
def pkgFit (t : Nat) : Nat := if 120000 ≤ t then 4 else if 4000 ≤ t then 3 else 0
/-- Deepest region state of P1 and P2 that a tolerance allows. -/
def regionFit (t : Nat) : Nat := if 150 ≤ t then 2 else if 2 ≤ t then 1 else 0
/-- The least tolerance in force on the package. -/
def State.leastTol (s : State) : Nat := s.partsOn.foldl (fun t p => min t (s.partTol p)) s.pkgTol

/-- A partition is idle for P1 and P2, or, where `deep`, for P1 only (R667). -/
def State.partIdle (s : State) (p : Nat) (deep : Bool) : Bool :=
  let pt := s.part p
  !s.held p && !s.ops.any (fun o => decide (o.part = some p))
    && (decide (pt.state = .none ∨ pt.state = .bound ∨ pt.state = .loaded ∨ pt.state = .paused ∨ pt.state = .stopped)
      || (deep && decide (pt.state = .running) && (match mapGet s.deep p with
        | some x => x.pass.isNone && x.queue.isEmpty
        | none => false)))

/-- A region enters P1 or P2 (R667). -/
def State.regionEntry (s : State) (r l : Nat) : State :=
  let idle := match s.regionPart r with | some p => s.partIdle p (decide (l = 1)) | none => true
  if 15 < r ∨ l = 0 ∨ 2 < l ∨ l ≤ s.regionPower r ∨ s.regionTol r < wakeTime l ∨ !idle ∨ s.sys.waking.toNat.testBit r then s
  else s.setPower r l

end Sys2Proof.Machine
end

