-- ==== Sys2Proof/Machine/System.lean ====
section
/-! DEFINITION. Boot and firmware images (R470, R649 to R651), Brim containment (R653 to R655), Crown lock-step (R656), debug
unlock and the JTAG TAP (R657, R728), flash (R729, R730), thermal sensors (R495, R669, R734) and power states (R665 to R668). -/

namespace Sys2Proof.Machine

/-! ### Firmware images (R651, R729) -/

/-- Offset and length of slot `i` of the Crown patch (kind 0) or the Brim image (kind 1). -/
def slotPlace (kind i : Nat) : Nat × Nat :=
  if kind = 0 then (0x200000 * i, 0x200000) else (0x1000000 * (i + 1), 0x1000000)

/-- The signed message of a slot, its version, and its trailer. -/
def State.slotParts (s : State) (kind i : Nat) : List Byte × Nat × List Byte :=
  let (o, _) := slotPlace kind i
  let h := memRead s.sys.flash o 32
  let len := fieldLE h 12 4
  (memRead s.sys.flash o (32 + len), fieldLE h 8 4, memRead s.sys.flash (o + pad8 (32 + len)) 204)

/-- A slot verifies (R651, R729): its header fits its place, its key is Moard's, its signature holds, its version is allowed. UNVERIFIED: log entry 38. -/
def State.slotOk (s : State) (kind i : Nat) : Bool :=
  let (o, n) := slotPlace kind i
  let h := memRead s.sys.flash o 32
  decide (fieldLE h 0 4 = 0x54534C46 ∧ fieldLE h 4 1 = kind ∧ pad8 (32 + fieldLE h 12 4) + 204 ≤ n)
    && (let (m, v, t) := s.slotParts kind i
        decide (fieldLE t 0 2 = 1 ∧ fieldLE t 4 4 = 196 ∧ (Config.minVersion kind).toNat ≤ v)
        && decide (sha384 (bytesAt t 8 97) = beBytes 48 Config.firmwareKey.toNat)
        && ecdsaVerify (sha384 m) (bytesAt t 8 97) (bytesAt t 0x6C 48) (bytesAt t 0x9C 48))

/-- The slot that runs: the highest version that verifies (R651). DEDUCED: log entry 65. -/
def State.bestSlot (s : State) (kind : Nat) : Option Nat :=
  match s.slotOk kind 0, s.slotOk kind 1 with
  | true, true => some (if (s.slotParts kind 0).2.1 < (s.slotParts kind 1).2.1 then 1 else 0)
  | true, false => some 0
  | false, true => some 1
  | false, false => none

/-! ### Resets and boot (R470, R648, R649) -/

/-- BOOT_STATE of both dies' CRN blocks (R649). -/
def bootCode : Boot → Nat
  | .fill => 0 | .crown => 1 | .memory => 2 | .brim => 3 | .ready => 4 | .failMem => 0xE | .failFw => 0xF

/-- The boot phase changes. -/
def State.setBoot (s : State) (b : Boot) : State :=
  let s := { s with sys := { s.sys with boot := b } }
  (s.setField (aCrn 0 0) 31 28 (bootCode b)).setField (aCrn 1 0) 31 28 (bootCode b)

/-- Cold reset (R648): everything but the settings store, the flash and what lies outside the package. DESIGN CHOICE: log entry 42. DESIGN CHOICE: log entry 43. -/
def State.coldReset (s : State) : State :=
  let r := State.reset
  { r with
    pending := s.pending
    hw := s.hw
    free := s.free
    ports := s.ports.filterMap (fun e => if e.2.host.isEmpty then none else some (e.1, { port0 with host := e.2.host }))
    sys := { r.sys with banks := s.sys.banks, flash := s.sys.flash, pins := { r.sys.pins with flashReq := s.sys.pins.flashReq } } }

/-- The instruction register takes `ir`; pins driven by boundary scan are let go. -/
def State.tapLoad (s : State) (ir : BitVec 8) : State :=
  { s with sys := { s.sys with tap := { s.sys.tap with ir := ir, driven := none, highz := false } } }

/-- The on-die SRAM fill completes; the Crown patch is verified and the settings banks are selected (R470, R649).
The release of RESET_N loads IDCODE (R728). DEDUCED: log entry 69. -/
def State.sramFilled (s : State) : State :=
  if s.sys.boot ≠ .fill then s
  else
    let s := ({ s with sys := { s.sys with pins := { s.sys.pins with resetLow := false } } }).tapLoad 0x02
    let s := (s.setFlag (aFlt 0 4) 31 true).setFlag (aFlt 1 4) 31 true
    match s.bestSlot 0 with
    | none => s.setBoot .failFw
    | some i =>
      let v := (s.slotParts 0 i).2.1
      let s := [0, 1].foldl (fun s d => (s.setFlag (aCrn d 0) 27 (decide (i = 1))).setReg (aCrn d 4) (BitVec.ofNat 32 v)) s
      s.selectBanks.setBoot .crown

/-- Stack training ends (R470, R472). -/
def State.stacksTrained (s : State) (trained : List Bool) : State :=
  if s.sys.boot ≠ .crown then s
  else
    let ok := fun (i : Nat) => trained.getD i false
    let s := (List.range 4).foldl (fun s i => if ok i then s.setFlag (aMem (i / 2) (0x100 * (i % 2))) 31 true else s) s
    s.setBoot (if (List.range 4).all ok then .memory else .failMem)

/-- The stacked-memory fill completes; the Brim image is verified and the Brim cores are released (R470, R649). -/
def State.memFilled (s : State) : State :=
  if s.sys.boot ≠ .memory then s
  else
    let s := [0, 1].foldl (fun s d =>
      let s := (s.setFlag (aFlt d 4) 30 true).setField (aFlt d 4) 6 0 100
      (s.setFlag (aMem d 0) 30 true).setFlag (aMem d 0x100) 30 true) s
    match s.bestSlot 1 with
    | none => s.setBoot .failFw
    | some i =>
      let (m, v, _) := s.slotParts 1 i
      let s := [0, 1].foldl (fun s d =>
        let s := (s.setReg (aBrm d 0) (BitVec.ofNat 32 v))
        (List.range 4).foldl (fun s c => s.setFlag (aBrm d (0x10 + 4 * c)) 29 (decide (i = 1))) s) s
      let dg := sha384 m
      let cores := (List.range 8).map (fun k => (k, (⟨s.now, [], false⟩ : BrimCore)))
      { s with sys := { s.sys with brimDigest := [(0, dg), (1, dg)], cores := cores } }.setBoot .brim

/-- Boot reaches READY (R649): the settings records are applied, and the dispatcher takes commands. -/
def State.readyNow (s : State) : State :=
  if s.sys.boot ≠ .brim then s else (s.applySettings.setBoot .ready).irqCause 4

/-! ### Brim cores (R653 to R655) -/

/-- One second in lattice cycles. -/
def oneSecond : Nat := 1250000000

/-- BRM_CORE[c]. -/
def aCore (d c : Nat) : Nat := aBrm d (0x10 + 4 * c)
/-- STATE of a core: 0 RUNNING, 1 RESTARTING, 2 HELD, 3 DEBUG_HALT. -/
def State.coreState (s : State) (d c : Nat) : Nat := s.field (aCore d c) 31 30
/-- Core `c` of die `d`. -/
def State.core (s : State) (d c : Nat) : BrimCore := mapGetD s.sys.cores (4 * d + c) ⟨0, [], false⟩
/-- Replace it. -/
def State.putCore (s : State) (d c : Nat) (x : BrimCore) : State :=
  { s with sys := { s.sys with cores := mapSet s.sys.cores (4 * d + c) x } }
/-- The Brim cores run firmware. -/
def State.brimUp (s : State) : Bool := decide (s.sys.boot = .brim ∨ s.sys.boot = .ready)

/-- A restart begins: counted, and kept for the limit of R655. DEDUCED: log entry 67. -/
def State.coreRestart (s : State) (d c : Nat) : State :=
  let x := s.core d c
  ((s.setField (aCore d c) 31 30 1).addField (aCore d c) 15 8 1).putCore d c { x with restarts := (s.now :: x.restarts).take 3 }

/-- The Crown holds a core and restarts it, or holds it for 1 s where this would be its fourth restart within 1 s. -/
def State.coreHold (s : State) (d c : Nat) : State :=
  let s := s.fault d ⟨0x13, .report, none, Config.noUnit.toNat, false, c, 0, 0⟩
  if ((s.core d c).restarts.filter (fun t => decide (s.now < t + oneSecond))).length < 3 then s.coreRestart d c
  else s.setField (aCore d c) 31 30 2

/-- A core misses 10 ms of reports (R654). A halted core is exempt (R657). -/
def State.brimLate (s : State) (d c : Nat) : State :=
  if s.brimUp ∧ d < 2 ∧ c < 4 ∧ s.coreState d c = 0 then s.coreHold d c else s

/-- A blocked access of a core (R653). -/
def State.brimBlocked (s : State) (d c : Nat) : State :=
  if s.brimUp ∧ d < 2 ∧ c < 4 ∧ s.coreState d c = 0 then (s.addField (aCore d c) 7 0 1).coreHold d c else s

/-- Operations whose steps run on core `c` of die `d`. -/
def State.coreOps (s : State) (d c : Nat) : List Op := s.ops.filter (fun o => decide (o.agent = some c ∧ d ∈ o.dies))

/-- A restart ends (R654, R730): with the Brim memory spoilt the image is reloaded from flash, where the digest allows it. DEDUCED: log entry 67. -/
def State.brimRestarted (s : State) (d c : Nat) (memOk : Bool) : State :=
  if s.coreState d c ≠ 1 ∨ 1 < d ∨ 3 < c ∨ (!memOk ∧ s.sys.pins.flashReq) then s
  else
    let dg := mapGetD s.sys.brimDigest d []
    let slot := bitOf (s.flag (aCore d c) 29)
    if memOk || decide (sha384 (s.slotParts 1 slot).1 = dg) then
      ((s.setField (aCore d c) 31 30 0).putCore d c { s.core d c with reported := s.now }).irqCause 4
    else
      let s := (s.setField (aCore d c) 31 30 2).putCore d c { s.core d c with stale := true }
      (s.coreOps d c).foldl (fun s o => s.finishOp o stFault 0 0) s

/-- The 1 s hold of R655 ends. -/
def State.brimReleased (s : State) (d c : Nat) : State :=
  if s.coreState d c = 2 ∧ !(s.core d c).stale ∧ d < 2 ∧ c < 4 then s.coreRestart d c else s

/-- A debugger halts a core (R657). -/
def State.brimHalt (s : State) (d c : Nat) : State :=
  if s.field (aCrn 0 8) 31 30 = 2 ∧ s.coreState d c = 0 ∧ s.brimUp ∧ d < 2 ∧ c < 4 then s.setField (aCore d c) 31 30 3 else s

/-- A debugger resumes a core, which takes a sampling interrupt that waited (R685). -/
def State.brimResume (s : State) (d c : Nat) : State :=
  if s.field (aCrn 0 8) 31 30 = 2 ∧ s.coreState d c = 3 ∧ d < 2 ∧ c < 4 then
    let s := (s.setField (aCore d c) 31 30 0).putCore d c { s.core d c with reported := s.now }
    let s := (s.cnt.sampleIrq.filter (fun e => decide (e.1 = 4 * d + c))).foldl (fun (s : State) e =>
      s.setReg (aCnt d (0x3080 + 0x100 * c)) (BitVec.ofNat 32 e.2)) s
    { s with cnt := { s.cnt with sampleIrq := s.cnt.sampleIrq.filter (fun e => !decide (e.1 = 4 * d + c)) } }
  else s

/-! ### Crown lock-step (R656) -/

/-- The Crown of die `d` has stopped. DEDUCED: log entry 67. -/
def State.crownStopped (s : State) (d : Nat) : Bool := s.flag (aFlt d 0) 30

/-- A command leaves its port with FAULT. -/
def State.faultReady (s : State) (p : Port) (f : Nat → Bool) : State :=
  let x := s.port p
  let gone := x.ready.filter (fun c => match cmdInfo c with | some (_, op, _) => f op | none => false)
  let stays := fun (c : Instr) => match cmdInfo c with | some (_, op, _) => !f op | none => true
  let s := s.putPort p { x with ready := x.ready.filter stays, queued := x.queued && (match x.ready.head? with | some c => stays c | none => false) }
  gone.foldl (fun s c => match cmdInfo c with | some (h, op, _) => s.complete h op stFault 0 0 | none => s) s

/-- The Crown cores diverge (R656). A second divergence within 1 s leaves the Crown stopped, and held commands fail. -/
def State.crownDiverges (s : State) (d digest : Nat) : State :=
  if 1 < d ∨ s.crownStopped d then s
  else
    let s := s.fault d ⟨0x12, .device, none, Config.noUnit.toNat, false, digest, 0, 0⟩
    let s := s.setFlag (aFlt d 0) 30 true
    let again := match mapGet s.sys.diverged d with | some t => decide (s.now < t + oneSecond) | none => false
    let s := { s with sys := { s.sys with diverged := mapSet s.sys.diverged d s.now } }
    if again then
      let s := { s with sys := { s.sys with crownDead := mapSet s.sys.crownDead d true } }
      if d = 0 then allPorts.foldl (fun s p => s.faultReady p opCrown) s else s
    else s

/-- A restarted Crown clears CROWN_STOPPED and starts a fresh scrub pass (R656). -/
def State.crownBack (s : State) (d : Nat) : State :=
  if s.crownStopped d ∧ !mapGetD s.sys.crownDead d false then
    let s := (s.setFlag (aFlt d 0) 30 false).addReg (aCrn d 0xC) 1
    { s with flt := { s.flt with scrubLast := mapSet s.flt.scrubLast d s.now } }
  else s

/-! ### Debug unlock and the TAP (R657, R728) -/

/-- GLIN_CHALLENGE: the identifier and a fresh nonce, unless a failed response blocks it. UNVERIFIED: log entry 40. DEDUCED: log entry 68. -/
def State.challenge (s : State) : State :=
  let s := s.tapLoad 0x10
  if s.sys.blocked then { s with readBytes := [] }
  else
    let (n, s) := s.nextFree
    let x := beBytes 32 (Config.nonce n).toNat
    { s with sys := { s.sys with nonce := some x }, readBytes := s.deviceId ++ x }

/-- A well-formed response (R657, step 3). DEDUCED: log entry 68. -/
def responseOk (b : List Byte) : Bool :=
  decide (b.length = 200) && decide (fieldLE b 0 1 = 1 ∨ fieldLE b 0 1 = 2) && allZero (bytesAt b 1 3) && allZero (bytesAt b 101 3)

/-- The bytes that a response signs. -/
def State.debugMessage (s : State) (nonce : List Byte) (level : Byte) : List Byte :=
  [0x44#8, 0x42, 0x47, 0x31] ++ s.deviceId ++ nonce ++ [level]

/-- The response opens the requested level. -/
def State.responseHolds (s : State) (b : List Byte) : Bool :=
  responseOk b && (s.ownerKeys.isEmpty || (match s.sys.nonce with
    | some n => s.ownerKeys.contains (sha384 (bytesAt b 4 97))
        && ecdsaVerify (sha384 (s.debugMessage n (b.getD 0 0))) (bytesAt b 4 97) (bytesAt b 104 48) (bytesAt b 152 48)
    | none => false))

/-- GLIN_RESPONSE: the lead Crown checks it (R657); while that Crown is stopped nothing comes of it. DEDUCED: log entry 68. -/
def State.response (s : State) (b : List Byte) : State :=
  let s := s.tapLoad 0x11
  if s.crownStopped 0 then s
  else if s.responseHolds b then s.setField (aCrn 0 8) 31 30 (fieldLE b 0 1)
  else
    let s := s.addField (aCrn 0 8) 15 0 1
    { s with sys := { s.sys with blocked := true } }

/-- IDCODE (R728). UNVERIFIED: log entry 41. -/
def State.idcode (s : State) : Nat :=
  (match s.hw.stepping with | .a1 => 1 | .b0 => 2) * 2 ^ 28 + (match s.hw.grade with | .kh16 => 0x4B16 | .kh12 => 0x4B12) * 2 ^ 12
    + Config.jtagMaker.toNat * 2 + 1

/-- A boundary-scan instruction whose condition is RESET_N low acts as BYPASS otherwise (R728). DEDUCED: log entry 69. -/
def State.scanInstr (s : State) (ir : BitVec 8) (f : Tap → Tap) : State :=
  if s.sys.pins.resetLow then
    let s := s.tapLoad ir
    { s with sys := { s.sys with tap := f s.sys.tap } }
  else s.tapLoad 0xFF

/-- The outputs are driven from the boundary register, which then captures the pins. DEDUCED: log entry 69. -/
def drivePins (pins : List Bool) (t : Tap) : Tap := { t with driven := some t.boundary, boundary := pins }

/-! ### Thermal sensors (R495, R669, R733, R734) -/

/-- The die's sensors are read. DEDUCED: log entry 66. -/
def State.thermal (s : State) (d : Nat) (temps : List Int) : State :=
  if 1 < d ∨ temps = [] then s
  else
    let hot := temps.foldl max (temps.headD 0)
    let w := aPwr d 0
    let s := s.setField w 15 8 (min 255 hot.toNat)
    let warn := s.flag w 28
    let s := if 90 ≤ hot ∧ !warn then (s.setFlag w 28 true).irqCause 3
      else if hot < 87 then s.setFlag w 28 false else s
    let held := s.flag (aFlt d 0) 31
    if 100 ≤ hot ∧ !held ∧ !s.crownStopped d then
      let k := (temps.findIdx? (fun t => decide (100 ≤ t))).getD 0
      let s := s.fault d ⟨0xB, .stop, none, Config.noUnit.toNat, false, k, 0, 0⟩
      let s := s.setFlag (aFlt d 0) 31 true
      (s.parts.filter (fun e => partOnDie e.2 d)).foldl (fun s e =>
        if e.2.state = .stopped ∨ e.2.state = .loading then s else s.stopPartition e.1 3) s
    else if hot < 90 ∧ held then s.setFlag (aFlt d 0) 31 false
    else s

/-- A sensor reaches 115 °C: THERMTRIP_N falls (R734). -/
def State.tripPin (s : State) : State := { s with sys := { s.sys with pins := { s.sys.pins with thermtrip := true } } }

/-! ### The package's power states (R665 to R668) -/

/-- A lane that a power state keeps awake: in use, or its port serves a servo, the transparent clock or the comparator. -/
def State.laneServes (s : State) (l : Nat) : Bool :=
  let p := s.lanePsel l
  s.laneInUse l || (List.range 4).any (fun t => s.srvOn t 3 && decide (s.field (aTb t 0) 27 20 = p))
    || (s.flag (aTim 0x40000) 31 && (s.flag (aTim (0x40100 + 4 * p)) 31
      || (List.range 96).any (fun q => s.flag (aTim (0x40100 + 4 * q)) 31 && decide (s.field (aTim (0x40100 + 4 * q)) 6 0 = p))))

/-- The package is idle for P3, or for P4 (R667). -/
def State.pkgIdle (s : State) (l : Nat) : Bool :=
  s.partsOn.all (fun p => s.partIdle p false) && s.cap.groups.all (fun e => !e.2.armed) && s.ops.isEmpty
    && allPorts.all (fun p => (s.port p).ready.isEmpty) && s.flt.zeroFills.isEmpty
    && (List.range 160).all (fun x => !((decide (32 ≤ x) || decide (l = 4)) && s.laneServes x))

/-- The package enters P3 or P4 (R665, R667). DEDUCED: log entry 71. -/
def State.pkgEntry (s : State) (l : Nat) : State :=
  if (l ≠ 3 ∧ l ≠ 4) ∨ l ≤ s.pkgState ∨ s.leastTol < wakeTime l ∨ !s.pkgIdle l ∨ s.sys.wakingPkg then s
  else
    let s := s.setField (aPwr 0 0) 31 29 l
    let s := (List.range 16).foldl (fun s r => s.setPower r 2) s
    let s := (List.range 4).foldl (fun s i => s.setFlag (aMem (i / 2) (0x100 * (i % 2))) 29 true) s
    if l = 4 then (List.range 160).foldl (fun s x => s.laneFall x 0) s else s

/-- The package begins to wake. DEDUCED: log entry 71. -/
def State.wakePkg (s : State) : State :=
  if s.pkgState = 0 then s else { s with sys := { s.sys with wakingPkg := true } }

/-- The regions of a mask that are not in P0 begin to wake. -/
def State.wakeRegions (s : State) (rs : List Nat) : State :=
  let m := (rs.filter (fun r => decide (s.regionPower r ≠ 0))).foldl (fun v r => v ||| 2 ^ r) s.sys.waking.toNat
  { s with sys := { s.sys with waking := BitVec.ofNat 16 m } }

/-- A command waits on any port. -/
def State.anyReady (s : State) : Bool := allPorts.any (fun p => !(s.port p).ready.isEmpty)

/-- A wake ends (R668): a region reaches P0, or the deepest state that a lowered tolerance allows; so does the package. DEDUCED: log entry 71. -/
def State.wakeDone (s : State) : Option Nat → State
  | some r =>
    if !s.sys.waking.toNat.testBit r then s
    else
      let fit := regionFit (s.regionTol r)
      let called := match s.regionPart r with
        | some p => s.held p || (match mapGet s.deep p with | some x => !x.queue.isEmpty | none => false)
        | none => false
      let s := s.setPower r (if called || decide (s.regionPower r ≤ fit) then 0 else fit)
      { s with sys := { s.sys with waking := s.sys.waking &&& ~~~(BitVec.ofNat 16 (2 ^ r)) } }
  | none =>
    if !s.sys.wakingPkg then s
    else
      let was := s.pkgState
      let fit := pkgFit s.leastTol
      let quiet := allPorts.all (fun p => (s.port p).ready.all (fun c => match cmdInfo c with
        | some (_, op, _) => decide (op = 0x52) | none => true))
      let l := if quiet ∧ fit < was then fit else 0
      let s := { s with sys := { s.sys with wakingPkg := false } }
      let s := s.setField (aPwr 0 0) 31 29 l
      let s := if was = 4 then (List.range 160).foldl (fun s x => s.laneSettle x) s else s
      if l = 0 then
        let s := (List.range 4).foldl (fun s i => s.setFlag (aMem (i / 2) (0x100 * (i % 2))) 29 false) s
        (List.range 16).foldl (fun s r => s.setPower r 0) s
      else s

/-! ### Meanings -/

/-- COLD_RESET (R648). -/
def execColdReset (s : State) : Host.Outcome State Fault Refusal := .next s.coldReset
/-- SRAM_FILL_DONE (R470). DESIGN CHOICE: log entry 3. -/
def execSramFillDone (s : State) : Host.Outcome State Fault Refusal := .next s.sramFilled
/-- STACK_TRAINING_DONE (R472). -/
def execStackTrainingDone (trained : List Bool) (s : State) : Host.Outcome State Fault Refusal :=
  .next (s.only (.stackTrainingDone trained) (s.stacksTrained trained))
/-- MEM_FILL_DONE (R470). -/
def execMemFillDone (s : State) : Host.Outcome State Fault Refusal := .next s.memFilled
/-- BOOT_READY (R649). -/
def execBootReady (s : State) : Host.Outcome State Fault Refusal := .next s.readyNow
/-- MAILBOX_REPORT (R654). -/
def execMailboxReport (d c : Nat) (s : State) : Host.Outcome State Fault Refusal :=
  .next (s.only (.mailboxReport d c) (if s.brimUp ∧ d < 2 ∧ c < 4 ∧ s.coreState d c = 0 then s.putCore d c { s.core d c with reported := s.now } else s))
/-- BRIM_WATCHDOG (R654). -/
def execBrimWatchdog (d c : Nat) (s : State) : Host.Outcome State Fault Refusal :=
  .next (s.only (.brimWatchdog d c) (s.brimLate d c))
/-- BRIM_ACCESS_VIOLATION (R653). -/
def execBrimAccessViolation (d c : Nat) (s : State) : Host.Outcome State Fault Refusal :=
  .next (s.only (.brimAccessViolation d c) (s.brimBlocked d c))
/-- BRIM_RESTART_DONE (R654). -/
def execBrimRestartDone (d c : Nat) (memOk : Bool) (s : State) : Host.Outcome State Fault Refusal :=
  .next (s.only (.brimRestartDone d c memOk) (s.brimRestarted d c memOk))
/-- BRIM_HOLD_EXPIRY (R655). -/
def execBrimHoldExpiry (d c : Nat) (s : State) : Host.Outcome State Fault Refusal :=
  .next (s.only (.brimHoldExpiry d c) (s.brimReleased d c))
/-- BRIM_DEBUG_HALT (R657). -/
def execBrimDebugHalt (d c : Nat) (s : State) : Host.Outcome State Fault Refusal :=
  .next (s.only (.brimDebugHalt d c) (s.brimHalt d c))
/-- BRIM_DEBUG_RESUME (R657, R685). -/
def execBrimDebugResume (d c : Nat) (s : State) : Host.Outcome State Fault Refusal :=
  .next (s.only (.brimDebugResume d c) (s.brimResume d c))
/-- CROWN_LOCKSTEP (R656). -/
def execCrownLockstep (d : Nat) (digest : Word) (s : State) : Host.Outcome State Fault Refusal :=
  .next (s.only (.crownLockstep d digest) (s.crownDiverges d digest.toNat))
/-- CROWN_RESTART_DONE (R656). -/
def execCrownRestartDone (d : Nat) (s : State) : Host.Outcome State Fault Refusal :=
  .next (s.only (.crownRestartDone d) (s.crownBack d))
/-- GLIN_CHALLENGE (R657). -/
def execGlinChallenge (s : State) : Host.Outcome State Fault Refusal := .next s.challenge
/-- GLIN_RESPONSE (R657). -/
def execGlinResponse (b : List Byte) (s : State) : Host.Outcome State Fault Refusal := .next (s.response b)
/-- GLIN_LOCK (R657, R728). -/
def execGlinLock (s : State) : Host.Outcome State Fault Refusal := .next ((s.tapLoad 0x12).setField (aCrn 0 8) 31 30 0)
/-- DEBUG_BLOCK_EXPIRY (R657). -/
def execDebugBlockExpiry (s : State) : Host.Outcome State Fault Refusal := .next { s with sys := { s.sys with blocked := false } }
/-- EXTEST (R728). -/
def execExtest (pins : List Bool) (s : State) : Host.Outcome State Fault Refusal := .next (s.scanInstr 0x00 (drivePins pins))
/-- EXTEST_PULSE (R728). -/
def execExtestPulse (pins : List Bool) (s : State) : Host.Outcome State Fault Refusal := .next (s.scanInstr 0x05 (drivePins pins))
/-- EXTEST_TRAIN (R728). -/
def execExtestTrain (pins : List Bool) (s : State) : Host.Outcome State Fault Refusal := .next (s.scanInstr 0x06 (drivePins pins))
/-- SAMPLE/PRELOAD (R728). -/
def execSamplePreload (pins : List Bool) (s : State) : Host.Outcome State Fault Refusal :=
  let s := s.tapLoad 0x01
  .next { s with sys := { s.sys with tap := { s.sys.tap with boundary := pins } } }
/-- IDCODE (R728). -/
def execIdcode (s : State) : Host.Outcome State Fault Refusal :=
  .next { s.tapLoad 0x02 with readData := BitVec.ofNat 32 s.idcode }
/-- CLAMP (R728). -/
def execClamp (s : State) : Host.Outcome State Fault Refusal :=
  .next (s.scanInstr 0x03 (fun t => { t with driven := some t.boundary }))
/-- HIGHZ (R728). -/
def execHighz (s : State) : Host.Outcome State Fault Refusal := .next (s.scanInstr 0x04 (fun t => { t with highz := true }))
/-- BYPASS (R728). -/
def execBypass (s : State) : Host.Outcome State Fault Refusal := .next (s.tapLoad 0xFF)
/-- TRST_N (R728): the TAP resets, and its instruction is IDCODE. -/
def execTrstN (s : State) : Host.Outcome State Fault Refusal := .next (s.tapLoad 0x02)
/-- FLASH_REQUEST (R730). DEDUCED: log entry 70. -/
def execFlashRequest (s : State) : Host.Outcome State Fault Refusal :=
  .next { s with sys := { s.sys with pins := { s.sys.pins with flashReq := true, flashGnt := true } } }
/-- FLASH_RELEASE (R730): with what the board management controller has written. DEDUCED: log entry 70. -/
def execFlashRelease (written : List (Nat × List Byte)) (s : State) : Host.Outcome State Fault Refusal :=
  .next { s with sys := { s.sys with
    pins := { s.sys.pins with flashReq := false, flashGnt := false }
    flash := if s.sys.pins.flashReq then written.foldl (fun m e => memWrite m e.1 e.2) s.sys.flash else s.sys.flash } }
/-- THERMAL_SAMPLE (R669, R495). -/
def execThermalSample (d : Nat) (temps : Temps) (s : State) : Host.Outcome State Fault Refusal :=
  .next (s.only (.thermalSample d temps) (s.thermal d temps))
/-- THERMTRIP (R734). -/
def execThermtrip (d sensor : Nat) (s : State) : Host.Outcome State Fault Refusal :=
  .next (s.only (.thermtrip d sensor) s.tripPin)
/-- REGION_POWER_ENTRY (R667). -/
def execRegionPowerEntry (r l : Nat) (s : State) : Host.Outcome State Fault Refusal :=
  .next (s.only (.regionPowerEntry r l) (s.regionEntry r l))
/-- PACKAGE_POWER_ENTRY (R667). -/
def execPackagePowerEntry (l : Nat) (s : State) : Host.Outcome State Fault Refusal :=
  .next (s.only (.packagePowerEntry l) (s.pkgEntry l))
/-- WAKE_COMPLETE (R668). -/
def execWakeComplete (r : Option Nat) (s : State) : Host.Outcome State Fault Refusal :=
  .next (s.only (.wakeComplete r) (s.wakeDone r))

end Sys2Proof.Machine
end

