-- ==== Sys2Proof/Machine/Integrity.lean ====
section
/-! DEFINITION. Repairs, leaky buckets, periodic and commanded scrubs (R473 to R480, R487 to R493). -/

namespace Sys2Proof.Machine

/-! ### Authoritative sources (R473, R474) -/

/-- Offset of each record's body in an image, in record order. -/
def bodyPlaces (o : Nat) : List ImgRec → List (ImgRec × Nat)
  | [] => []
  | r :: rs => (r, o + 16) :: bodyPlaces (o + 16 + r.body.length) rs

/-- Sections whose records may have set a byte, the latest written first, with the context half each went into. DEDUCED: log entry 49. -/
def sectionsBack (im : Loaded) : Nat → Nat → Nat → List (Nat × Nat)
  | 0, k, h => [(k, h)]
  | n + 1, k, h =>
    match (List.range im.nsect).find? (fun j => decide (j ≠ k ∧ k ≠ 0) && decide (im.succ j = k)) with
    | some j => (k, h) :: sectionsBack im n j (if im.prefetchAt j then 1 - h else h)
    | none => [(k, h)]

/-- Sections written into partition `p`'s regions, the latest first. DEDUCED: log entry 49. -/
def State.sectionsOf (s : State) (p : Nat) (im : Loaded) : List (Nat × Nat) :=
  let h := (s.part p).half
  match mapGet s.deep p with
  | some x =>
    let l := sectionsBack im im.nsect x.section_ h
    if x.pfReady then (im.succ x.section_, 1 - h) :: l else l
  | none => [(0, h)]

/-- Staged bytes at `dst`, as their good copies hold them. -/
def State.stagedBytes (s : State) (p dst : Nat) : List Byte :=
  match (s.imageBytes p dst).2 with
  | some b => b
  | none =>
    match (s.part p).stagedAt dst with
    | some x => s.stackRead (2 * partDie (s.part p)) (partBase (s.part p) + dst) x.len
    | none => []

/-- Body places of the staged image or scale set at `dst`. -/
def State.placesAt (s : State) (p dst : Nat) : List (ImgRec × Nat) :=
  let b := s.stagedBytes p dst
  bodyPlaces (iRecOff b) (imgRecs b).1

/-- The record serves the bound template. -/
def serves (im : Loaded) (r : ImgRec) : Bool := decide (r.template = 0xFF ∨ r.template = im.template)

/-- Staged files whose records stand in bank `b`, the latest first (R291, R402, R473). -/
def Partition.bankFiles (pt : Partition) (im : Loaded) (b : Nat) : List Nat :=
  let sets := pt.sets.reverse
  if b = pt.gen % 2 then sets ++ [im.dst]
  else match pt.change with
    | some c => if c.kind = 0 then c.settings :: (sets ++ [im.dst]) else sets.drop 1 ++ [im.dst]
    | none => sets.drop 1 ++ [im.dst]

/-- Offset in partition `p`'s allocation of the byte that cluster SRAM byte `a` of cluster `k` came from. DEDUCED: log entry 49. -/
def State.sramSource (s : State) (p : Nat) (im : Loaded) (k a : Nat) : Option Nat :=
  (s.sectionsOf p im).findSome? (fun e =>
    ((im.of tySram e.1).findSome? (fun r =>
      let lo := fieldLE r.body 0 4
      if 64 * im.region r + r.cluster = k ∧ lo ≤ a ∧ a < lo + fieldLE r.body 4 4 then
        some (im.dst + fieldLE r.body 8 8 + (a - lo)) else none)).or
    ((im.of tyOperand e.1).findSome? (fun r =>
      let u := im.unitOf r
      let lo := uByte u (0x480 * (2 * e.2 + fieldLE r.body 0 1))
      if uKey u = k ∧ lo ≤ a ∧ a < lo + 0x480 then some (im.dst + fieldLE r.body 8 8 + (a - lo)) else none)))

/-- Where entry `e` of bank `b` of cluster `k`'s rescale table came from. -/
def State.rescaleSource (s : State) (p : Nat) (im : Loaded) (k b e : Nat) : Option Nat :=
  let sec := ((s.sectionsOf p im).headD (0, 0)).1
  ((s.part p).bankFiles im b).findSome? (fun dst =>
    (s.placesAt p dst).findSome? (fun q =>
      let lo := fieldLE q.1.body 0 2
      if q.1.typ = tyRescale ∧ serves im q.1 = true ∧ q.1.section_ = sec ∧ 64 * im.region q.1 + q.1.cluster = k
          ∧ lo ≤ e ∧ e < lo + fieldLE q.1.body 2 2 then some (dst + q.2 + 8 + 16 * (e - lo)) else none))

/-- Where entry `e` of bank `b` of die `d`'s input quantiser table came from. -/
def State.inqSource (s : State) (p : Nat) (im : Loaded) (d b e : Nat) : Option Nat :=
  ((s.part p).bankFiles im b).findSome? (fun dst =>
    (s.placesAt p dst).findSome? (fun q =>
      let lo := fieldLE q.1.body 2 2
      if q.1.typ = tyInq ∧ serves im q.1 = true ∧ fieldLE q.1.body 0 1 = d ∧ lo ≤ e ∧ e < lo + fieldLE q.1.body 4 2 then
        some (dst + q.2 + 16 + 16 * (e - lo)) else none))

/-- Where byte `a` of the wide-weight store came from. -/
def State.wideSource (s : State) (p : Nat) (im : Loaded) (a : Nat) : Option Nat :=
  let g := a / 2 ^ 23
  ((s.part p).bankFiles im (a / 2 ^ 22 % 2)).findSome? (fun dst =>
    (s.placesAt p dst).findSome? (fun q =>
      let b := q.1.body
      let lo := fieldLE b 0x38 8
      let o := a % 2 ^ 22
      let n := fieldLE b 0x28 4
      if q.1.typ = tyGauntlet ∧ serves im q.1 = true ∧ 4 * fieldLE b 0 1 + fieldLE b 2 1 = g
          ∧ lo ≤ o ∧ o < lo + n + fieldLE b 0x34 4 then
        some (dst + (if o < lo + n then fieldLE b 0x20 8 + (o - lo) else fieldLE b 0x2C 8 + (o - lo - n))) else none))

/-- Configuration words in force on partition `p`: register, value, its record and its offset in the body. -/
def State.cfgWords (s : State) (p : Nat) (im : Loaded) : List (Nat × Nat × ImgRec × Nat) :=
  let sec := ((mapGet s.deep p).map (·.section_)).getD 0
  let unit := fun (k : Nat) (u : ImgRec) =>
    let offs := [0, 4, 8] ++ (ruCtxs u).foldl (fun l c => l ++ [0x10 + 12 * c, 0x14 + 12 * c, 0x18 + 12 * c]) []
    ((s.unitWords im u).zip offs).map (fun e => (e.1.1 + k, e.1.2, u, e.2))
  let next := match mapGet s.deep p with
    | some x => if x.pfReady then (im.of tyUnit (im.succ sec)).foldl (fun l u => l ++ (unit 8 u).drop 3) [] else []
    | none => []
  next ++ (im.of tyUnit sec).foldl (fun l u => l ++ unit 0 u) []
    ++ (im.of tySwslot sec).foldl (fun l r => l ++ (List.range 512).filterMap (fun i =>
      let w := fieldLE r.body (4 * i) 4
      if w.testBit 31 then some (aSwSlot (64 * im.region r + r.cluster) i, w, r, 4 * i) else none)) []
    ++ (im.of tyDfslot sec).foldl (fun l r => l ++ (dfEntries r.body).filterMap (fun e =>
      (im.relocDf (im.region r) e).map (fun x =>
        (aDfSlot (im.region r) e.f e.ch, 2 ^ 31 + x.e.src * 2 ^ 22 + x.e.dst * 2 ^ 13, r, 4 * (20 * e.f + e.ch))))) []

/-- Die of a row as `RepairReq` names it. -/
def rowDie (kind key : Nat) : Nat :=
  match kind with
  | 0 => key / 2 ^ 14 / 512
  | 1 => key / 8192 / 512
  | 2 => key / 8192
  | 3 => addrDie key
  | _ => key / 2 ^ 18 / 4

/-- The loaded partition whose image a row serves. -/
def State.rowPart (s : State) (kind key : Nat) : Option (Nat × Loaded) :=
  match rowRegion kind key with
  | some r => (s.loadedParts.find? (fun e => e.2.1.regions.toNat.testBit r)).map (fun e => (e.1, e.2.2))
  | none => (s.loadedParts.find? (fun e =>
      if kind = 2 then (s.inqSource e.1 e.2.2 (key / 8192) (key / 4096 % 2) (key % 4096)).isSome
      else (List.range 32).any (fun i => (s.wideSource e.1 e.2.2 (32 * key + i)).isSome))).map (fun e => (e.1, e.2.2))

/-- Offset in the allocation of the source of each byte of a row; none for a byte that no record sets. -/
def State.rowSource (s : State) (kind key p : Nat) (im : Loaded) : List (Option Nat) :=
  match kind with
  | 0 => (List.range 32).map (fun i => s.sramSource p im (key / 2 ^ 14) (32 * (key % 2 ^ 14) + i))
  | 1 => (List.range 16).map (fun i => (s.rescaleSource p im (key / 8192) (key / 4096 % 2) (key % 4096)).map (· + i))
  | 2 => (List.range 16).map (fun i => (s.inqSource p im (key / 8192) (key / 4096 % 2) (key % 4096)).map (· + i))
  | 3 =>
    match (s.cfgWords p im).find? (fun e => decide (e.1 = key)) with
    | some e =>
      match (s.placesAt p im.dst).find? (fun q => decide (q.1 = e.2.2.1)) with
      | some q => (List.range 4).map (fun i => some (im.dst + q.2 + e.2.2.2 + i))
      | none => []
    | none => []
  | _ => (List.range 32).map (fun i => s.wideSource p im (32 * key + i))

/-! ### Repair (R475 to R479) -/

/-- Rewrite copy A's unit from copy B (R476 step 5). -/
def State.copyBack (s : State) (d byte : Nat) : State :=
  s.stackWrite (2 * d) byte (s.stackRead (2 * d + 1) byte 32)

/-- Read one unit of the staged copies of die `d`: copy A, then copy B; the second result is none when both are bad. A bad
copy A is rewritten from copy B. -/
def State.sourceUnit (s : State) (d p byte : Nat) : State × Option (List Byte) :=
  let (s, bad) := s.unitRead true (2 * d) byte (some p)
  if !bad then (s, some (s.stackRead (2 * d) byte 32))
  else
    let (s, bad2) := s.unitRead true (2 * d + 1) byte (some p)
    if bad2 then (s, none) else (s.copyBack d byte, some (s.stackRead (2 * d + 1) byte 32))

/-- Good bytes of a row from its sources; none when both copies of one of them fail. -/
def State.sourceBytes (s : State) (d p : Nat) (os : List (Option Nat)) : State × Option (List Byte) :=
  let base := partBase (s.part p)
  let units := dedup (os.filterMap (fun o => o.map (fun x => (base + x) / 32)))
  let (s, m) := units.foldl (fun (a : State × Option (AMap (List Byte))) u =>
    let (s, b) := a.1.sourceUnit d p (32 * u)
    (s, match a.2, b with | some m, some x => some (mapSet m u x) | _, _ => none)) (s, some [])
  (s, m.map (fun m => os.map (fun o => match o with
    | some x => (mapGetD m ((base + x) / 32) []).getD ((base + x) % 32) 0
    | none => 0#8)))

/-- Write a row's good bytes. -/
def State.rowWrite (s : State) (kind key : Nat) (bs : List Byte) (word : Nat) : State :=
  let s : State := match kind with
    | 0 => s.sramWrite (key / 2 ^ 14) (32 * (key % 2 ^ 14)) bs
    | 1 => { s with lat := { s.lat with rescale := mapPut s.lat.rescale key (BitVec.ofNat 128 (leNat bs)) 0 } }
    | 2 => { s with lat := { s.lat with inq := mapPut s.lat.inq key (BitVec.ofNat 128 (leNat bs)) 0 } }
    | 3 => s.setReg key (BitVec.ofNat 32 word)
    | _ => { s with gau := { s.gau with wide := memWrite s.gau.wide (32 * key) bs } }
  s.rowsWritten (fun k j => decide (k = kind ∧ j = key))

/-- DETAIL of a fault in a row (R496). UNVERIFIED: log entry 34. -/
def rowDetail (kind key : Nat) : Nat :=
  match kind with
  | 0 => 32 * (key % 2 ^ 14)
  | 1 => 2 ^ 31 + key % 4096
  | 2 => 2 ^ 31 + key % 4096
  | 3 => cfgOffset key
  | _ => Config.noDetail.toNat

/-- Unit that a row belongs to. -/
def rowUnit (kind key : Nat) : Nat :=
  match kind with
  | 0 =>
    let b := key % 2 ^ 14 / 512
    32 * (key / 2 ^ 14) + (if b < 16 then b else 16 + (b - 16) / 4)
  | _ => Config.noUnit.toNat

/-- Repair one row (R476, R479); the second result says whether it is good again. DEDUCED: log entry 48. -/
def State.repairRow (s : State) (kind key : Nat) : State × Bool :=
  let d := rowDie kind key
  let pl := s.rowPart kind key
  let (s, bs) := match pl with
    | some (p, im) => s.sourceBytes d p (s.rowSource kind key p im)
    | none => (s, some (zeroBytes (if kind = 1 ∨ kind = 2 then 16 else 32)))
  let word := match pl with
    | some (p, im) => (((s.cfgWords p im).find? (fun e => decide (e.1 = key))).map (·.2.1)).getD 0
    | none => 0
  match bs with
  | some b => (((s.rowWrite kind key b word).bucketAdd d 0 1).addField (aFlt d 0x18) 15 0 1, true)
  | none =>
    let s := s.fault d ⟨8, .taint, pl.map (·.1), rowUnit kind key, false, rowDetail kind key, 0, 0⟩
    let s := (s.addReg (aFlt d 0x1C) 1).setFlag (aFlt d 0) 29 true
    let q := (mapGetD s.flt.repairs d []).filter (fun r => !decide (r.kind = kind ∧ r.key = key))
    ({ s with flt := { s.flt with repairs := mapPut s.flt.repairs d q []
                                  damaged := mapSet s.flt.damaged (8 * key + kind) true } }, false)

/-- REPAIR: the fault manager of die `d` performs the oldest queued repair. DEDUCED: log entry 48. -/
def State.repair (s : State) (d : Nat) : State :=
  match mapGetD s.flt.repairs d [] with
  | [] => s
  | r :: q =>
    if s.crownStopped d then s
    else
      let s := { s with flt := { s.flt with repairs := mapPut s.flt.repairs d q [] } }
      (s.repairRow r.kind r.key).1

/-! ### Leaky buckets (R488) -/

/-- BUCKET_LEAK: INTERVAL microseconds have passed since the last leak. -/
def State.bucketLeak (s : State) (d k : Nat) : State :=
  let iv := s.field (aFlt d (0x100 + 0x10 * k)) 15 0
  let a := aFlt d (0x104 + 0x10 * k)
  if 5 ≤ k ∨ 2 ≤ d ∨ iv = 0 ∨ s.field a 15 0 = 0 then s
  else
    let s := s.setField a 15 0 (s.field a 15 0 - 1)
    { s with flt := { s.flt with bktLast := mapSet s.flt.bktLast (8 * d + k) (s.now / 1250) } }

/-! ### Scrubs (R490 to R493) -/

/-- Row `row` of cluster `k` is writable state (R166). -/
def State.rowWritable (s : State) (k row : Nat) : Bool :=
  let b := row / 512
  let u := 32 * k + (if b < 16 then b else 16 + (b - 16) / 4)
  let o := 32 * row - uByte u 0
  mapGetD s.lat.wrRows (2 ^ 14 * k + row) false
    || (match s.uKind u with
      | 2 => decide (0x7000 ≤ o ∧ o < 0x9000)
      | 4 => true
      | 5 => true
      | 6 => true
      | _ => false)

/-- Rows of the read-only structures of the die, other than cluster SRAM rows, that show a mismatch. -/
def State.badTables (s : State) (f : Nat → Nat → Bool) : List (Nat × Nat) :=
  let tag := fun (k : Nat) (m : AMap Bool) => m.map (fun e => (k, e.1))
  (tag 1 s.flt.rescaleBad ++ tag 2 s.flt.inqBad ++ tag 3 s.flt.cfgBad ++ tag 4 s.flt.wideBad).filter (fun e => f e.1 e.2)

/-- Cluster SRAM rows that show a mismatch, each once. -/
def State.badRows (s : State) (f : Nat → Bool) : List Nat :=
  dedup ((s.lat.sramBad.map (fun e => e.1 / 32)).filter f)

/-- The row's region holds loaded content, or the row belongs to a die's tables. -/
def State.rowLoaded (s : State) (kind key : Nat) : Bool :=
  match rowRegion kind key with
  | some r => decide (s.regionMode r ≠ 0)
  | none => true

/-- The periodic scrub meets a row: it is logged under R475, and repaired unless it is queued or damaged. -/
def State.scrubRow (s : State) (kind key : Nat) : State :=
  let d := rowDie kind key
  let known := (mapGetD s.flt.repairs d []).any (fun r => decide (r.kind = kind ∧ r.key = key))
  if mapGetD s.flt.damaged (8 * key + kind) false then s
  else
    let p := (s.rowPart kind key).map (·.1)
    let s := s.roFault d (if kind = 3 then 2 else 1) kind key (rowDetail kind key) (rowUnit kind key) p 0
    if known then s else (s.repairRow kind key).1

/-- SCRUB_PASS: a pass of the periodic scrub of die `d` completes. DEDUCED: log entry 47. -/
def State.scrubPass (s : State) (d : Nat) : State :=
  if !s.flag (aFlt d 0x10) 31 || s.crownStopped d then s
  else
    let rows := ((s.badRows (fun k => decide (k / 2 ^ 14 / 512 = d) && !s.rowWritable (k / 2 ^ 14) (k % 2 ^ 14))).map (fun k => (0, k)))
      ++ s.badTables (fun k j => decide (rowDie k j = d))
    let s := (rows.filter (fun e => s.rowLoaded e.1 e.2)).foldl (fun s e => s.scrubRow e.1 e.2) s
    let s := s.addReg (aFlt d 0x14) 1
    { s with flt := { s.flt with scrubLast := mapSet s.flt.scrubLast d s.now } }

/-- The running summary of a SCRUB (R493). -/
structure ScrubSum where
  bytes : Nat
  found : Nat
  corr  : Nat
  rep   : Nat
  unrep : Nat
  first : Nat × Nat
  last  : Nat × Nat
  deriving DecidableEq, Repr

/-- The 64 bytes of a summary. -/
def ScrubSum.toBytes (x : ScrubSum) (complete repair : Bool) : List Byte :=
  leBytes 8 x.bytes ++ leBytes 4 x.found ++ leBytes 4 x.corr ++ leBytes 4 x.rep ++ leBytes 4 x.unrep ++ leBytes 8 x.first.1
    ++ leBytes 8 x.last.1 ++ leBytes 4 x.first.2 ++ leBytes 4 x.last.2 ++ leBytes 4 (bitOf complete + 2 * bitOf repair) ++ zeroBytes 12

/-- A summary from its bytes. -/
def ScrubSum.ofBytes (b : List Byte) : ScrubSum :=
  ⟨fieldLE b 0 8, fieldLE b 8 4, fieldLE b 0xC 4, fieldLE b 0x10 4, fieldLE b 0x14 4, (fieldLE b 0x18 8, fieldLE b 0x28 4),
   (fieldLE b 0x20 8, fieldLE b 0x2C 4)⟩

/-- An error at an address; `how` is 0 corrected, 1 rewritten, 2 left in place. -/
def ScrubSum.note (x : ScrubSum) (how addr loc : Nat) : ScrubSum :=
  let x := if x.found = 0 then { x with first := (addr, loc) } else x
  let x := { x with found := x.found + 1, last := (addr, loc) }
  if how = 0 then { x with corr := x.corr + 1 } else if how = 1 then { x with rep := x.rep + 1 } else { x with unrep := x.unrep + 1 }

/-- Partitions whose allocation the range of 4 KiB units meets, and those whose armed capture ring does. -/
def State.rangeOwners (s : State) (base len : Nat) : List Nat :=
  (s.parts.filter (fun e => unitsMeet base len (16384 * e.2.allocBase) (16384 * e.2.allocSize))).map (·.1)
    ++ (s.cap.groups.filter (fun e => e.2.armed && unitsMeet base len (16384 * e.2.ringBase) (16384 * e.2.ringSize))).map (fun e => e.2.part)

/-- Check of SCRUB (R491, R618). -/
def State.scrubCheck (s : State) (h : CmdHdr) (space stks : Nat) (regions : BitVec 16) (base len : Nat) : Option (Nat × Nat) :=
  let rs := maskList 16 regions.toNat
  if 2 ≤ space ∨ 16 ≤ stks then some (stRange, det618 1)
  else if space = 0 then
    (if (s.rangeOwners base len).any (fun p => decide ((s.part p).owner ≠ some h.port)) then some (stOwner, det618 3)
     else if 48 * 2 ^ 18 < base + len ∨ hostShort h 64 = true then some (stRange, det618 5) else none)
  else if rs.any (fun r => match s.regionPart r with | some p => decide ((s.part p).owner ≠ some h.port) | none => false) then
    some (stOwner, det618 3)
  else if rs.any (fun r => s.isFused r || (s.regionPart r).isNone) || hostShort h 64 then some (stRange, det618 5)
  else none

/-- Byte `b` of a stack lies in a staged copy. -/
def State.inStaged (s : State) (b : Nat) : Bool :=
  s.parts.any (fun e => e.2.staged.any (fun x => decide (partBase e.2 + x.dst ≤ b ∧ b < partBase e.2 + x.dst + x.len)))

/-- An error left in place is reported (R496). DEDUCED: log entry 48. -/
def State.scrubLeft (s : State) (d addr : Nat) : State :=
  s.fault d ⟨0x14, .report, none, Config.noUnit.toNat, false, addr % 2 ^ 32, 0, 0⟩

/-- A scrub reads one unit of stack `k` that shows an error (R483, R492). DEDUCED: log entry 47. -/
def State.scrubUnit (s : State) (repair : Bool) (k u : Nat) (x : ScrubSum) : State × ScrubSum :=
  let b := 32 * u
  let corr := decide (mapGet s.flt.memBad (2 ^ 31 * k + u) = some .corrected)
  let (s, bad) := s.unitRead true k b none
  let staged := s.inStaged b
  let outside := (s.rangeOwners (b / 4096) 1).isEmpty
  if corr then
    (if repair && (staged || outside) then s.stackWrite k b (s.stackRead k b 32) else s, x.note 0 b k)
  else if bad && repair && staged then
    let o := if k % 2 = 0 then k + 1 else k - 1
    let (s, bad2) := s.unitRead true o b none
    if bad2 then (s.scrubLeft (k / 2) b, x.note 2 b k)
    else (((s.stackWrite k b (s.stackRead o b 32)).bucketAdd (k / 2) 0 1).addField (aFlt (k / 2) 0x18) 15 0 1, x.note 1 b k)
  else (s.scrubLeft (k / 2) b, x.note 2 b k)

/-- Cluster SRAM byte address and location of a row for a summary. -/
def rowPlace (kind key : Nat) : Nat × Nat :=
  match kind with
  | 0 => (32 * (key % 2 ^ 14), key / 2 ^ 14 / 64 * 256 + key / 2 ^ 14 % 64)
  | 1 => (0, key / 8192 / 64 * 256 + key / 8192 % 64)
  | _ => (0, (match rowRegion kind key with | some r => r | none => 0) * 256)

/-- A scrub reads one row that shows a mismatch (R492). DEDUCED: log entry 47. -/
def State.scrubTableRow (s : State) (repair : Bool) (kind key : Nat) (x : ScrubSum) : State × ScrubSum :=
  let (a, loc) := rowPlace kind key
  let ro := !(decide (kind = 0) && s.rowWritable (key / 2 ^ 14) (key % 2 ^ 14))
  if repair && ro && !mapGetD s.flt.damaged (8 * key + kind) false then
    let (s, ok) := s.repairRow kind key
    if ok then (s, x.note 1 a loc) else (s.scrubLeft (rowDie kind key) a, x.note 2 a loc)
  else (s.scrubLeft (rowDie kind key) a, x.note 2 a loc)

/-- Bytes (SPACE 0) or rows (SPACE 1) that a SCRUB has to check in each named stack or region. -/
def scrubTotal (space len : Nat) : Nat := if space = 0 then 4096 * len else 2 ^ 20

/-- One step of a SCRUB (R492): it checks at least 1 MiB in each stack or 64 rows in each region. Gives the new progress and
summary. -/
def State.scrubStep (s : State) (repair : Bool) (space stks : Nat) (regions : BitVec 16) (base len : Nat) (o : Op) (i : StepIn) :
    State × Nat × ScrubSum :=
  let x := ScrubSum.ofBytes o.buf
  let total := scrubTotal space len
  let n := if i.last then total else max i.amount (if space = 0 then 2 ^ 20 else 64)
  let hi := min total (o.done + n)
  if space = 0 then
    let ks := maskList 4 stks
    let x := { x with bytes := x.bytes + ks.length * (hi - o.done) }
    let s := ks.foldl (fun (s : State) k => s.bestEffort k (4096 * base + o.done) (hi - o.done)) s
    let r := ks.foldl (fun (a : State × ScrubSum) k =>
      (a.1.badUnits k (4096 * base + o.done) (hi - o.done)).foldl (fun (a : State × ScrubSum) u => a.1.scrubUnit repair k u a.2) a) (s, x)
    (r.1, hi, r.2)
  else
    let rs := maskList 16 regions.toNat
    let inStep := fun (key : Nat) => decide (key / 2 ^ 20 ∈ rs ∧ o.done ≤ key % 2 ^ 20 ∧ key % 2 ^ 20 < hi)
    let x := { x with bytes := x.bytes + 32 * rs.length * (hi - o.done) }
    let rows := (s.badRows inStep).map (fun k => (0, k))
    let tabs := if hi = total then s.badTables (fun k j => match rowRegion k j with | some r => decide (r ∈ rs) | none => false) else []
    let r := (rows ++ tabs).foldl (fun (a : State × ScrubSum) e => a.1.scrubTableRow repair e.1 e.2 a.2) (s, x)
    (r.1, hi, r.2)

/-! ### Meanings -/

def execRepair (die : Nat) (s : State) : Host.Outcome State Fault Refusal :=
  .next (s.only (.repair die) (s.repair die))
def execBucketLeak (die bucket : Nat) (s : State) : Host.Outcome State Fault Refusal :=
  .next (s.only (.bucketLeak die bucket) (s.bucketLeak die bucket))
def execScrubPass (die : Nat) (s : State) : Host.Outcome State Fault Refusal :=
  .next (s.only (.scrubPass die) (s.scrubPass die))

end Sys2Proof.Machine
end

