-- ==== Sys2Proof/Machine/Counters.lean ====
section
/-! DEFINITION. Performance counters and check-value units as software drives them (R673 to R696), and COUNTER_READ (R628,
R681). -/

namespace Sys2Proof.Machine

/-! ### Counters (R673 to R685) -/

/-- Register block of counter `n` of a die: die counter `n` below 64, else core counter `(n - 64) % 8` of core `(n - 64) / 8`. -/
def aCounter (d n : Nat) : Nat :=
  if n < 64 then cntCfg d n else aCnt d (0x3000 + 0x100 * ((n - 64) / 8) + 0x10 * ((n - 64) % 8))

/-- Value of counter `n` of die `d`. -/
def State.counter (s : State) (d n : Nat) : Nat := (mapGetD s.cnt.val (256 * d + n) 0).toNat
/-- Set it. -/
def State.putCounter (s : State) (d n v : Nat) : State :=
  { s with cnt := { s.cnt with val := mapPut s.cnt.val (256 * d + n) (BitVec.ofNat 48 v) 0 } }

/-- Read of a counter's LO register (R678, R694). -/
def State.cntValLoRead (s : State) (d n : Nat) : State :=
  if 2 ≤ d ∨ 96 ≤ n then s.readOut 0
  else s.latchRead (aCounter d n + 4) (aCounter d n + 8) (s.counter d n) (s.counter d n / 2 ^ 32)

/-- Write of a counter's LO register: both halves stand (R678). -/
def State.cntValLoWrite (s : State) (d n : Nat) (w : Word) : State :=
  if 2 ≤ d ∨ 96 ≤ n then s
  else s.putCounter d n (w.toNat + 2 ^ 32 * s.field (aCounter d n + 8) 15 0)

/-- CNT_CTL[SNAP] (R679). -/
def State.cntSnap (s : State) (d : Nat) : State :=
  if 2 ≤ d then s
  else
    let put := fun (s : State) (a v : Nat) => (s.setReg a (BitVec.ofNat 32 v)).setReg (a + 4) (BitVec.ofNat 32 (v / 2 ^ 32))
    let s := put s (aCnt d 4) (s.cycle d)
    let s := (List.range 64).foldl (fun s k => put s (aCnt d (0x2000 + 8 * k)) (s.counter d k)) s
    (List.range 32).foldl (fun s k => put s (aCnt d (0x2200 + 8 * k)) (s.counter d (64 + k))) s

/-- The user page of partition `p` on die `d` is live for an access through link `l` (R680). -/
def State.pageLive (s : State) (l d p : Nat) : Bool :=
  s.flag (aCnt d 0xC) p && decide ((s.part p).owner = some (if l = 0 then Port.pcieA else Port.pcieB))
    && decide ((s.part p).state ≠ .none)

/-- CNT_UP_CTL[p][SNAP] through link `l` (R680). -/
def State.cntUpSnap (s : State) (l d p : Nat) : State :=
  if 2 ≤ d ∨ 16 ≤ p ∨ !s.pageLive l d p then s
  else
    let put := fun (s : State) (a v : Nat) => (s.setReg a (BitVec.ofNat 32 v)).setReg (a + 4) (BitVec.ofNat 32 (v / 2 ^ 32))
    let s := put s (aCnt d (0x10008 + 0x1000 * p)) (s.cycle d)
    (List.range 64).foldl (fun s k =>
      let c := cntCfg d k
      let v := if s.flag c 31 ∧ s.flag c 28 ∧ s.field c 27 24 = p then s.counter d k else 0
      put s (aCnt d (0x10100 + 0x1000 * p + 8 * k)) v) s

/-- CNT_SMP_POP (R684). -/
def State.cntSmpPop (s : State) (d : Nat) : State :=
  { s with cnt := { s.cnt with samples := mapPut s.cnt.samples d ((mapGetD s.cnt.samples d []).drop 1) [] } }

/-- Core counter `j` (`8c + i`) of die `d` adds `n` occurrences; on a wrap it reloads or wraps, sets CNT_BOVF, signals its
sampling interrupt and carries to a chained counter (R677, R683, R685). `fuel` bounds the chain. -/
def State.addCore (s : State) (d : Nat) (pc : Word) : Nat → Nat → Nat → State
  | 0, _, _ => s
  | fuel + 1, j, n =>
    let a := aCounter d (64 + j)
    let c := s.counter d (64 + j)
    if c + n < 2 ^ 48 then s.putCounter d (64 + j) (c + n)
    else
      let smp := s.flag a 29
      let p := if s.reg (a + 0xC) = 0 then 2 ^ 32 else (s.reg (a + 0xC)).toNat
      let s := s.putCounter d (64 + j) (if smp then min (2 ^ 48 - 1) (c + n - p) else (c + n) % 2 ^ 48)
      let s := s.setFlag (aCnt d 0x18) j true
      let core := 4 * d + j / 8
      let s : State := if !smp then s
        else if s.coreState d (j / 8) = 3 then
          { s with cnt := { s.cnt with sampleIrq := s.cnt.sampleIrq ++ [(core, pc.toNat)] } }
        else s.setReg (aCnt d (0x3080 + 0x100 * (j / 8))) pc
      if j % 8 < 7 ∧ s.flag (a + 0x10) 31 ∧ s.flag (a + 0x10) 30 then State.addCore s d pc fuel (j + 1) 1 else s

/-- COUNTER_WRAP: an enabled counter adds `n` occurrences of its event, of a unit, or of a core at an instruction. DEDUCED: log entry 55. -/
def State.counterWrap (s : State) (d k : Nat) (core : Bool) (n unit : Nat) (pc : Word) : State :=
  if 2 ≤ d ∨ s.flag (aCnt d 0) 1 = true then s
  else if core then
    (if 32 ≤ k ∨ !s.flag (aCounter d (64 + k)) 31 ∨ (k % 8 ≠ 0 ∧ s.flag (aCounter d (64 + k)) 30 = true) then s
     else s.addCore d pc 8 k n)
  else if 64 ≤ k ∨ !s.flag (cntCfg d k) 31 ∨ (k ≠ 0 ∧ s.flag (cntCfg d k) 30 = true) then s
  else s.addCount d { occ0 with unit := unit } 64 k (min n 65535)

/-- Check of COUNTER_READ (R618, R628, R681). MASK selects die counters, BMASK core counters. -/
def State.counterReadCheck (s : State) (h : CmdHdr) (pkg : Bool) (d mask bmask : Nat) : Option (Nat × Nat) :=
  let own := fun (k : Nat) =>
    let c := cntCfg d k
    let p := s.field c 27 24
    s.flag c 31 && s.flag c 28 && decide ((s.part p).owner = some h.port) && s.flag (aCnt d 0xC) p
  let n := ((maskList 64 mask).length + (maskList 32 bmask).length + 1) * 8
  if 2 ≤ d then some (stRange, det618 1)
  else if !pkg && !(decide (bmask = 0) && (maskList 64 mask).all own) then some (stOwner, det618 2)
  else if hostShort h n then some (stRange, det618 5)
  else none

/-- Values that COUNTER_READ writes (R628). -/
def State.counterBytes (s : State) (d mask bmask : Nat) : List Byte :=
  (maskList 64 mask).foldl (fun b k => b ++ leBytes 8 (s.counter d k)) []
    ++ (maskList 32 bmask).foldl (fun b k => b ++ leBytes 8 (s.counter d (64 + k))) [] ++ leBytes 8 (s.cycle d)

/-! ### Check-value units (R686 to R696) -/

/-- CHK register of software unit `u`. -/
def aUnitChk (d u o : Nat) : Nat := aChk d (0x40 * u + o)

/-- A 64-bit LO and HI pair. -/
def State.pair (s : State) (a : Nat) : Nat := (s.reg a).toNat + 2 ^ 32 * (s.reg (a + 4)).toNat

/-- CHK_CMD[START] (R688, R690). DEDUCED: log entry 55. -/
def State.chkStart (s : State) (d u : Nat) : State :=
  let c := aUnitChk d u 0
  let w := s.field c 30 24
  if 2 ≤ d ∨ 4 ≤ u then s
  else if w < 8 ∨ 64 < w then s.setFlag (aUnitChk d u 0x34) 30 true
  else
    let fold := s.field c 21 20
    let f := s.pair (aUnitChk d u 0x1C)
    let init := (if fold = 1 then s.pair (aUnitChk d u 0xC) ^^^ f else s.pair (aUnitChk d u 0xC)) % 2 ^ w
    let r := if fold = 2 then crcBytes w (s.pair (aUnitChk d u 4) % 2 ^ w) (s.flag c 23) init (leBytes 8 f) else init
    let s := { s with cnt := { s.cnt with chk := mapSet s.cnt.chk (4 * d + u) (BitVec.ofNat 64 r) } }
    (s.setFlag (aUnitChk d u 0x34) 31 true).setField (aUnitChk d u 0x34) 23 0 0

/-- A write of CHK_DATA (R690). -/
def State.chkData (s : State) (d u : Nat) (w : Word) : State :=
  if 2 ≤ d ∨ 4 ≤ u then s
  else if !s.flag (aUnitChk d u 0x34) 31 then s.setFlag (aUnitChk d u 0x34) 29 true
  else
    let c := aUnitChk d u 0
    let n := s.field c 19 18 + 1
    let wd := s.field c 30 24
    let r := crcBytes wd (s.pair (aUnitChk d u 4) % 2 ^ wd) (s.flag c 23) (mapGetD s.cnt.chk (4 * d + u) 0).toNat (leBytes n w.toNat)
    ({ s with cnt := { s.cnt with chk := mapSet s.cnt.chk (4 * d + u) (BitVec.ofNat 64 r) } }).addField (aUnitChk d u 0x34) 23 0 n

/-- CHK_CMD[FINISH] (R690): the result stands in CHK_RES, at key `16 + 4d + u`. DEDUCED: log entry 55. -/
def State.chkFinish (s : State) (d u : Nat) : State :=
  if 2 ≤ d ∨ 4 ≤ u ∨ !s.flag (aUnitChk d u 0x34) 31 then s
  else
    let c := aUnitChk d u 0
    let r := crcFinal (s.field c 30 24) (s.flag c 22) (s.pair (aUnitChk d u 0x14)) (mapGetD s.cnt.chk (4 * d + u) 0).toNat
    let s := { s with cnt := { s.cnt with chk := mapSet (mapErase s.cnt.chk (4 * d + u)) (16 + 4 * d + u) (BitVec.ofNat 64 r) } }
    s.setFlag (aUnitChk d u 0x34) 31 false

/-- CHK_RES as FINISH left it. -/
def State.chkRes (s : State) (d u : Nat) : Nat := (mapGetD s.cnt.chk (16 + 4 * d + u) 0).toNat

/-- Read of CHK_RES_LO (R696). -/
def State.chkResLoRead (s : State) (d u : Nat) : State :=
  if 2 ≤ d ∨ 4 ≤ u then s.readOut 0
  else s.latchRead (aUnitChk d u 0x2C) (aUnitChk d u 0x30) (s.chkRes d u) (s.chkRes d u / 2 ^ 32)

/-- Number of the open batch of partition `p`'s chain, or of the next to open (R696). -/
def State.openBatchNo (s : State) (p : Nat) : Nat :=
  match mapGet s.chains p with
  | none => 0
  | some c => match c.batches.getLast? with
    | some b => if b.closing then c.nextNo else b.no
    | none => c.nextNo

/-- Read of CHK_AUD_BATCH_LO (R696). -/
def State.chkAudBatchLoRead (s : State) (p : Nat) : State :=
  if 16 ≤ p then s.readOut 0
  else s.latchRead (aChk 0 (0x10004 + 0x10 * p)) (aChk 0 (0x10008 + 0x10 * p)) (s.openBatchNo p) (s.openBatchNo p / 2 ^ 32)

/-! ### Meanings -/

def execCntValLoRead (die counter : Nat) (s : State) : Host.Outcome State Fault Refusal :=
  .next (s.only (.cntValLoRead die counter) (s.cntValLoRead die counter))
def execCntValLoWrite (die counter : Nat) (value : Word) (s : State) : Host.Outcome State Fault Refusal :=
  .next (s.only (.cntValLoWrite die counter value) (s.cntValLoWrite die counter value))
def execCntSnap (die : Nat) (s : State) : Host.Outcome State Fault Refusal :=
  .next (s.only (.cntSnap die) (s.cntSnap die))
def execCntUpSnap (link die part : Nat) (s : State) : Host.Outcome State Fault Refusal :=
  .next (s.only (.cntUpSnap link die part) (s.cntUpSnap link die part))
def execCntSmpPop (die : Nat) (s : State) : Host.Outcome State Fault Refusal :=
  .next (s.only (.cntSmpPop die) (s.cntSmpPop die))
def execCounterWrap (die counter : Nat) (core : Bool) (n unit : Nat) (pc : Word) (s : State) : Host.Outcome State Fault Refusal :=
  .next (s.only (.counterWrap die counter core n unit pc) (s.counterWrap die counter core n unit pc))
def execChkStart (die unit : Nat) (s : State) : Host.Outcome State Fault Refusal :=
  .next (s.only (.chkStart die unit) (s.chkStart die unit))
def execChkDataWrite (die unit : Nat) (data : Word) (s : State) : Host.Outcome State Fault Refusal :=
  .next (s.only (.chkDataWrite die unit data) (s.chkData die unit data))
def execChkFinish (die unit : Nat) (s : State) : Host.Outcome State Fault Refusal :=
  .next (s.only (.chkFinish die unit) (s.chkFinish die unit))
def execChkResLoRead (die unit : Nat) (s : State) : Host.Outcome State Fault Refusal :=
  .next (s.only (.chkResLoRead die unit) (s.chkResLoRead die unit))
def execChkAudBatchLoRead (part : Nat) (s : State) : Host.Outcome State Fault Refusal :=
  .next (s.only (.chkAudBatchLoRead part) (s.chkAudBatchLoRead part))

end Sys2Proof.Machine
end

