-- ==== Sys2Proof/Machine/Audit.lean ====
section
/-! DEFINITION. AUDIT_FETCH and the closing of batches (R357 to R362), the Mitten comparator (R363 to R375, R602), barriers
(R343 to R347, R604). -/

namespace Sys2Proof.Machine

/-! ### AUDIT_FETCH (R362) -/

/-- Batch number that names the latest closed batch. -/
def latestBatch : Nat := 2 ^ 64 - 1

/-- AUDIT_FETCH. A refusal leaves the open batch as it was. DEDUCED: log entry 57. -/
def State.auditFetch (s : State) (h : CmdHdr) (p : Nat) (close heads : Bool) (batch : Nat) : CmdRes :=
  if 16 ≤ p then refusal s stRange (det618 1)
  else if (s.part p).owner ≠ some h.port then refusal s stOwner (det618 3)
  else
    let holds := match mapGet s.chains p with
      | some c => (match c.batches.getLast? with | some b => !b.closing && !b.entries.isEmpty | none => false)
      | none => false
    let t := if close && holds then (s.auditClosing p false).closeReady p else s
    match mapGet t.chains p with
    | none => refusal s stRange (det618 5)
    | some c =>
      match (if batch = latestBatch then c.closed.head? else c.closed.find? (fun b => decide (b.no = batch))) with
      | none => refusal s stRange (det618 5)
      | some b =>
        let lost := b.content.isNone
        let ct := if heads then [] else b.content.getD []
        let bad := !heads && !lost && (b.parity || mapGetD t.flt.auditBad (2 ^ 20 * p + b.no) false)
        if hostShort h (160 + ct.length) then refusal s stRange (det618 5)
        else
          let reply := b.header ++ b.prevHead ++ b.head ++ leBytes 4 (bitOf lost + 2 * bitOf bad) ++ leBytes 4 ct.length ++ zeroBytes 24 ++ ct
          let t := t.hostWrite h reply
          let t := if bad then t.fault 0 ⟨0x10, .report, some p, Config.noUnit.toNat, false, b.no % 2 ^ 32, 0, 0⟩ else t
          let t := if heads || lost then t
            else t.putChain p { c with closed := c.closed.map (fun x => if x.no = b.no then { x with fetched := true } else x) }
          (t, stOK, 0, ct.length)

/-! ### The comparator (R363 to R370) -/

/-- Drop every record of partition `p`. DEDUCED: log entry 58. -/
def State.mitDrop (s : State) (p : Nat) : State :=
  let keep := fun (l : List MittenRec) => l.filter (fun r => decide (r.part ≠ p))
  { s with mit := { s.mit with toSend := keep s.mit.toSend, localRecs := keep s.mit.localRecs, peerRecs := keep s.mit.peerRecs
                               lost := s.mit.lost.filter (fun e => decide (e.1 ≠ p)) } }

/-- The digest and template index of partition `p`'s image go to the peer: at pairing and after every LOAD (R365). The spec gives the
exchange no message; State keeps what was sent. DESIGN CHOICE: log entry 105. -/
def State.mitAnnounce (s : State) (p : Nat) : State :=
  match mapGet s.mit.pairs p, (s.part p).image with
  | some _, some im => { s with mit := { s.mit with sent := mapSet s.mit.sent p (bytesAt im.digest 0 48, im.template) } }
  | _, _ => s

/-- The records of a suspended pair are not compared (R365). -/
def State.mitRefresh (s : State) (p : Nat) : State := if s.mitActive p then s else s.mitDrop p

/-- Check of MITTEN_PAIR with EN = 1 (R363, R602). -/
def State.mitCheck (s : State) (h : CmdHdr) (link peer : Nat) (pairs : List (Nat × Nat)) : Option (Nat × Nat) :=
  if 32 ≤ link ∨ 4096 ≤ peer ∨ 16 < pairs.length ∨ pairs.any (fun e => decide (16 ≤ e.1 ∨ 16 ≤ e.2)) then some (stRange, det618 1)
  else if pairs.any (fun e => decide ((s.part e.1).owner ≠ some h.port)) then some (stOwner, det618 3)
  else if (s.flag (aMit 0) 31 = true ∧ s.field (aMit 0) 11 0 ≠ peer) ∨ pairs.any (fun e => decide ((s.part e.1).state ≠ .loaded)) = true then
    some (stState, det618 4)
  else if 48 < s.linkL link ∨ (16 ≤ link ∧ 32 < s.linkL link) then some (stRange, det618 5)
  else none

/-- MITTEN_PAIR with EN = 1 takes effect (R363, R364): a pair that the new list keeps goes on. -/
def State.mitPair (s : State) (stop : Bool) (link peer : Nat) (pairs : List (Nat × Nat)) : State :=
  let new := pairs.foldl (fun m e => mapSet m e.1 e.2) []
  let gone := (s.mit.pairs.filter (fun e => decide (mapGet new e.1 ≠ some e.2))).map (·.1)
  let s := gone.foldl (fun s p => s.mitDrop p) s
  let s := { s with mit := { s.mit with pairs := new, peer := s.mit.peer.filter (fun e => decide (e.1 ∉ gone))
                                        sent := s.mit.sent.filter (fun e => decide (e.1 ∉ gone)) } }
  let s := new.foldl (fun s e => s.mitAnnounce e.1) s
  (((s.setFlag (aMit 0) 31 true).setFlag (aMit 0) 30 stop).setField (aMit 0) 16 12 link).setField (aMit 0) 11 0 peer

/-- The package's pair dissolves: no record is kept, nothing is logged (R364). -/
def State.mitDissolve (s : State) : State :=
  { s.setReg (aMit 0) 0 with mit := ⟨[], [], [], [], [], [], []⟩ }

/-- Body of the dissolution notice (R602). -/
def dissolution : List Byte := listSet (zeroBytes 128) 40 0xFF#8

/-- MITTEN_PAIR (R363). -/
def State.mittenPair (s : State) (h : CmdHdr) (stop : Bool) (link peer : Nat) (pairs : List (Nat × Nat)) : CmdRes :=
  match s.mitCheck h link peer pairs with
  | some e => refusal s e.1 e.2
  | none => (s.mitPair stop link peer pairs, stOK, 0, 0)

/-- MITTEN_PAIR_DISSOLVE (R364). -/
def State.mittenDissolve (s : State) (h : CmdHdr) : CmdRes :=
  if !s.flag (aMit 0) 31 then refusal s stState (det618 4)
  else if s.mit.pairs.any (fun e => decide ((s.part e.1).owner ≠ some h.port)) then refusal s stOwner (det618 3)
  else
    let n := s.field (aMit 0) 16 12
    let m : SvcMsg := ⟨3, s.field (aMit 0) 11 0, 0, dissolution⟩
    ((s.svcSend n m).mitDissolve, stOK, 0, 0)

/-- Body of a comparison record (R596, R602). -/
def recBody (r : MittenRec) : List Byte :=
  leBytes 2 r.stream ++ zeroBytes 6 ++ bytesAt r.tag 0 24 ++ leBytes 8 r.check.toNat ++ [BitVec.ofNat 8 r.part] ++ zeroBytes 23
    ++ (List.range 16).foldl (fun b i => b ++ leBytes 4 (r.sigs.getD i 0).toNat) []

/-- A record from its body, for local partition `p`. -/
def bodyRec (p cycle : Nat) (b : List Byte) : MittenRec :=
  ⟨p, fieldLE b 0 2, fieldLE b 24 6, bytesAt b 8 24, BitVec.ofNat 64 (fieldLE b 32 8),
   (List.range 16).map (fun i => BitVec.ofNat 32 (fieldLE b (64 + 4 * i) 4)), cycle⟩

/-- A divergence (R368, R370, R375). -/
def State.mitDiverge (s : State) (p stream seq cause mask : Nat) (ours peers : List (BitVec 32)) : State :=
  let stop := s.flag (aMit 0) 30
  let s := s.addReg (aMit 0x20) 1
  let s := s.firstRecord (aMit 0x100) (cause * 2 ^ 28 + p * 2 ^ 24 + seq / 2 ^ 32) (firstOrder 0 stream seq)
    ([(aMit 0x104, seq % 2 ^ 32), (aMit 0x108, stream * 2 ^ 16 + mask)]
      ++ (List.range 16).map (fun i => (aMit (0x110 + 4 * i), (ours.getD i 0).toNat))
      ++ (List.range 16).map (fun i => (aMit (0x150 + 4 * i), (peers.getD i 0).toNat)))
  let s := s.auditCtrl p 0x0B stream seq (mask + cause * 2 ^ 16) [] [] []
  let s := (s.fault 0 ⟨0x0C, if stop then .stop else .report, some p, Config.noUnit.toNat, false, mask, stream, seq⟩).irqCause 2
  if stop ∧ (s.part p).state ≠ .stopped then s.stopOn 0 p 4 else s

/-- Compare a local record with the peer's (R368). -/
def State.mitCompare (s : State) (a b : MittenRec) : State :=
  let s := s.addReg (aMit 0x28) 1
  let mask := (List.range 16).foldl (fun m i => if a.sigs.getD i 0 = b.sigs.getD i 0 then m else m + 2 ^ i) 0
  if tagMasked a.tag ≠ tagMasked b.tag then s.mitDiverge a.part a.stream a.seq 0 mask a.sigs b.sigs
  else if a.check ≠ b.check then s.mitDiverge a.part a.stream a.seq 1 mask a.sigs b.sigs
  else if mask ≠ 0 then s.mitDiverge a.part a.stream a.seq 2 mask a.sigs b.sigs
  else s

/-- Two records are of one event. -/
def sameEvent (a b : MittenRec) : Bool := decide (a.part = b.part ∧ a.stream = b.stream ∧ a.seq = b.seq)

/-- MITTEN_RECORD_SEND: the oldest record formed goes to the peer, and meets the peer's where that waits (R366). -/
def State.mitSend (s : State) : State :=
  match s.mit.toSend with
  | [] => s
  | r :: rest =>
    let s := { s with mit := { s.mit with toSend := rest } }
    if !s.mitActive r.part then s
    else
      let s := s.svcSend (s.field (aMit 0) 16 12) ⟨3, s.field (aMit 0) 11 0, 0, recBody r⟩
      match s.mit.peerRecs.find? (sameEvent r) with
      | some b => ({ s with mit := { s.mit with peerRecs := s.mit.peerRecs.erase b } }).mitCompare r b
      | none => { s with mit := { s.mit with localRecs := s.mit.localRecs ++ [r] } }

/-- A comparison record of the peer for local partition `p` (R368, R369). DEDUCED: log entry 58. -/
def State.mitTake (s : State) (p : Nat) (b : List Byte) : State :=
  let r := bodyRec p s.now b
  let key := (p, r.stream, r.seq)
  if !s.mitActive p then s
  else if key ∈ s.mit.lost then { s with mit := { s.mit with lost := s.mit.lost.erase key } }
  else
    match s.mit.localRecs.find? (sameEvent r) with
    | some a => ({ s with mit := { s.mit with localRecs := s.mit.localRecs.erase a } }).mitCompare a r
    | none => { s with mit := { s.mit with peerRecs := s.mit.peerRecs ++ [r] } }

/-- MITTEN: a received message is compared, dissolves the pair, or is discarded (R364, R602). -/
def State.mittenMsg (s : State) (d i : Nat) : State :=
  let n := linkNo d i
  match s.svcTake n 3 with
  | none => s
  | some (m, s) =>
    if !s.flag (aMit 0) 31 || decide (s.field (aMit 0) 16 12 ≠ n) then s
    else if m.body = dissolution then s.mitDissolve
    else
      match s.mit.pairs.find? (fun e => decide (e.2 = fieldLE m.body 40 1)) with
      | some e => s.mitTake e.1 m.body
      | none => s

/-- MIT_WAIT in cycles (R372). DEDUCED: log entry 58. -/
def State.mitWait (s : State) : Nat := max 64 (s.field (aMit 4) 15 0)

/-- MITTEN_WAIT_EXPIRY: MIT_WAIT cycles have passed since a local release without the peer's record (R369); the
records of a suspended pair are dropped (R365). -/
def State.mitExpiry (s : State) : State :=
  match s.mit.localRecs.find? (fun r => decide (r.cycle + s.mitWait ≤ s.now)) with
  | none => s
  | some r =>
    let s := { s with mit := { s.mit with localRecs := s.mit.localRecs.erase r, lost := s.mit.lost ++ [(r.part, r.stream, r.seq)] } }
    if !s.mitActive r.part then s.mitDrop r.part
    else (s.addReg (aMit 0x24) 1).mitDiverge r.part r.stream r.seq 3 0xFFFF r.sigs []

/-- DIGEST_EXCHANGE: the peer's load digest and template index arrive (R365). -/
def State.digestExchange (s : State) (p : Nat) (dg : List Byte) (t : Nat) : State :=
  match mapGet s.mit.pairs p with
  | none => s
  | some _ => ({ s with mit := { s.mit with peer := mapSet s.mit.peer p (bytesAt dg 0 48, t) } }).mitRefresh p

/-! ### Barriers (R343 to R347) -/

/-- A time-base value in units of 2^-16 ns. -/
def time16Of (v : TimeVal) : Nat := (v.sec * 1000000000 + v.ns) * 65536 + v.frac

/-- Check of BARRIER (R344). DEDUCED: log entry 59. -/
def State.barrierCheck (s : State) (tb : Nat) (at_ : TimeVal) (v : Nat) : Option (Nat × Nat) :=
  if 4 ≤ tb then some (stRange, det618 1)
  else if s.parts.any (fun e => partLive e.2) ∨ s.barrier.isSome = true then some (stState, det618 4)
  else if v % 4096 ≠ 0 ∨ 2 ^ 64 ≤ v ∨ 1000000000 ≤ at_.ns then some (stRange, det618 5)
  else if !s.tbLocked tb ∨ time16Of at_ < (s.tb tb).t / 2 ^ 32 + 50000 * 65536 then some (stTiming, det618 6)
  else none

/-- BARRIER_RELEASE: the named time base has reached the release instant (R345, R347, R567, R604). DEDUCED: log entry 59. -/
def State.barrierGo (s : State) : State :=
  match s.barrier with
  | none => s
  | some b =>
    if (s.tb b.tb).t / 2 ^ 32 < b.at_ then s
    else
      let s := ({ s.setCounts b.v with barrier := none }).wylBarrier
      let s := (s.parts.filter (fun e => decide (e.2.state ≠ .none))).foldl (fun (s : State) e =>
        s.auditPush e.1 ⟨false, 0, 0, 0, ctrlEntry 0x08 0 0 (s.cycle 0) (b.id % 2 ^ 32 + b.tb * 2 ^ 32) (timeBytes (timeOf16 b.at_)) [] [] []⟩) s
      match s.ops.find? (fun o => decide (o.opcode = 0x71#8)) with
      | some o => s.finishOp o stOK 0 0
      | none => s

/-! ### Meanings -/

def execBatchClose (part : Nat) (s : State) : Host.Outcome State Fault Refusal :=
  .next (s.only (.batchClose part) (s.closeReady part))
def execMittenRecordSend (s : State) : Host.Outcome State Fault Refusal := .next s.mitSend
def execMitten (die link : Nat) (s : State) : Host.Outcome State Fault Refusal :=
  .next (s.only (.mitten die link) (s.mittenMsg die link))
def execMittenWaitExpiry (s : State) : Host.Outcome State Fault Refusal := .next s.mitExpiry
def execDigestExchange (part : Nat) (digest : List Byte) (template : Nat) (s : State) : Host.Outcome State Fault Refusal :=
  .next (s.only (.digestExchange part digest template) (s.digestExchange part digest template))
def execBarrierRelease (s : State) : Host.Outcome State Fault Refusal := .next s.barrierGo

end Sys2Proof.Machine
end

