-- ==== Sys2Proof/Machine/RegRead.lean ====
section
/-! DEFINITION. What a register reads as (R9 to R14, R47, R650, R697 to R701): the stored word, and the fields that report
other state laid over it, block by block. -/

namespace Sys2Proof.Machine

/-- The port is enabled (R614). -/
def State.portEn (s : State) : Port → Bool
  | .pcieA => s.sys.linkA
  | .pcieB => s.sys.linkB && s.sys.twoX8
  | .wyile => s.flag (aWyl 0 4) 31
  | .smbus => decide (s.sys.boot = .ready)
  | .jtag => decide (s.field (aCrn 0 8) 31 30 ≠ 0)

/-- Port of code minus 1. -/
def portAt (i : Nat) : Port := allPorts.getD i .jtag

/-- Index of the element of an array of `n` elements from `b`, `st` bytes apart, whose word at `w` lies at offset `o`. -/
def elemAt (o b st n w : Nat) : Option Nat :=
  if b ≤ o ∧ (o - b) % st = w ∧ (o - b) / st < n then some ((o - b) / st) else none

/-- Operations that share step agent `a` of die `d`. -/
def State.agentOps (s : State) (d a : Nat) : List Op := s.ops.filter (fun o => decide (o.agent = some a ∧ d ∈ o.dies))
/-- Operations in progress of a port. -/
def State.portOps (s : State) (p : Port) : List Op := s.ops.filter (fun o => decide (o.port = p))

/-- CTL_STATUS (R643). -/
def State.ctlStatus (s : State) : Nat :=
  bitOf (decide (s.sys.boot = .ready)) * 2 ^ 31 + bitOf s.sys.twoX8 * 2 ^ 30 + s.ops.length * 2 ^ 16

/-- CTL registers (R642 to R646). A step is whole within one command, so none runs when an agent's register is read. DEDUCED: log entry 24. -/
def State.peekCtl (s : State) (d o w : Nat) : Nat :=
  if o = 0 ∧ d = 0 then s.ctlStatus
  else
    match elemAt o 0x100 0x20 5 0, elemAt o 0x100 0x20 5 4, elemAt o 0x2000 4 4 0 with
    | some i, _, _ => if d = 0 then w % 2 ^ 31 + bitOf (s.portEn (portAt i)) * 2 ^ 31 else 0
    | _, some i, _ => if d = 0 then
        bitsOf w 27 27 * 2 ^ 27 + (s.portOps (portAt i)).length * 2 ^ 28 + min 255 (s.port (portAt i)).ready.length * 2 ^ 8
      else 0
    | _, _, some a => (s.agentOps d a).length * 2 ^ 8
    | _, _, _ => w

/-- SEQ_PART_STATUS[p] of die `d` (R251). -/
def State.partStatus (s : State) (d p : Nat) : Nat :=
  let pt := s.part p
  match pt.image with
  | some im => if !partOnDie pt d then 0
      else 2 ^ 31 + bitOf pt.relaxed * 2 ^ 30 + bitOf (decide (im.kind = 1) && im.elastic) * 2 ^ 29 + bitOf pt.hung * 2 ^ 28
        + im.template * 2 ^ 16 + im.profile
  | none => if partOnDie pt d then bitOf pt.relaxed * 2 ^ 30 + bitOf pt.hung * 2 ^ 28 else 0

/-- SEQ_PART_CTL[p] (R328). -/
def State.partCtl (s : State) (p : Nat) : Nat :=
  let pt := s.part p
  pt.regions.toNat * 2 ^ 16 + (match pt.owner with | some q => portCode q | none => 0) * 2 ^ 13 + pstateCode pt.state * 2 ^ 10
    + pt.epoch.toNat * 2 ^ 8 + bitOf pt.change.isSome * 2 ^ 7 + bitOf pt.saved * 2 ^ 6

/-- SEQ_PART_ALLOC[p] (R329). -/
def State.partAlloc (s : State) (p : Nat) : Nat := (s.part p).allocBase * 2 ^ 16 + (s.part p).allocSize
/-- SEQ_PART_BND_LO[p] (R330). -/
def State.bndLo (s : State) (p : Nat) : Nat := match (s.part p).change with | some c => c.n % 2 ^ 32 | none => 0
/-- What SEQ_PART_BND_HI[p] latches. -/
def State.bndHi (s : State) (p : Nat) : Nat :=
  match (s.part p).change with | some c => c.kind * 2 ^ 30 + c.stream * 2 ^ 16 + c.n / 2 ^ 32 | none => 0

/-- SEQ_DEEP_CTL[p] (R407). -/
def State.deepCtl (s : State) (p : Nat) : Nat :=
  match mapGet s.deep p with
  | none => 0
  | some x => if ((s.part p).image.map (·.kind)) ≠ some 1 then 0
      else x.par.pmax * 2 ^ 19 + x.section_ * 2 ^ 13 + bitOf x.swap * 2 ^ 12 + bitOf x.pass.isSome * 2 ^ 11 + bitOf x.pfReady * 2 ^ 10
/-- SEQ_DEEP_Q[p]. -/
def State.deepQ (s : State) (p : Nat) : Nat :=
  match mapGet s.deep p with
  | none => 0
  | some x => if ((s.part p).image.map (·.kind)) ≠ some 1 then 0 else x.queue.length * 2 ^ 16 + x.passN

/-- SEQ registers (R247 to R255, R327 to R330, R405 to R409). -/
def State.peekSeq (s : State) (d o w : Nat) : Nat :=
  if o = 0 then (match s.hw.stepping with | .a1 => 0x00A1 | .b0 => 0x00B0) * 2 ^ 16
  else if o = 8 then s.cycle d
  else if o = 0x10 then bitsOf w 31 16 * 2 ^ 16 + min 65535 (if d = 0 then s.seq.ops0 else s.seq.ops1)
  else if o = 0x600 then w + bitOf (s.eligibleDie d) * 2 ^ 30
  else
    match elemAt o 0x100 4 16 0 with
    | some p => s.partStatus d p
    | none =>
      if 0x400 ≤ o ∧ o < 0x500 then
        let p := (o - 0x400) / 16
        match o % 16 with
        | 0 => s.partCtl p
        | 4 => s.partAlloc p
        | 8 => s.bndLo p
        | _ => if (s.part p).change.isSome then w else 0
      else
        match elemAt o 0x700 16 16 0, elemAt o 0x700 16 16 4 with
        | some p, _ => s.deepCtl p
        | _, some p => s.deepQ p
        | _, _ => w

/-- The monitor of layer slot `l` has switched to the new scale set (R136, R311): it has performed its first operation of the boundary
instance or a later one. -/
def State.monSwitched (s : State) (l : Layer) : Bool :=
  let pt := s.part l.part
  match pt.change with
  | some c => decide (c.kind = 0) && c.boundary.isSome
      && l.work.any (fun w => (!w.seen.isEmpty || decide (0 < w.finals))
        && (match s.inst w.inst with | some x => !x.old | none => false))
  | none => false

/-- Limits in force at a monitor, in the order and sizes of R283. -/
def State.monLimits (s : State) (k : Nat) : List Byte :=
  match mapGet s.gau.layers k with
  | none => zeroBytes 16
  | some l => if (s.part l.part).gen % 2 = bitOf (s.monSwitched l) then l.lim0 else l.lim1

/-- SCL registers (R132 to R136). -/
def State.peekScl (s : State) (d o w : Nat) : Nat :=
  match elemAt o 0x100 4 8 0 with
  | some n =>
    let pend := match s.regionPart (8 * d + n) with | some p => (s.part p).change.isSome | none => false
    bitsOf w 31 16 * 2 ^ 16 + bitOf pend * 2 + bitsOf w 16 16
  | none =>
    if 0x10000 ≤ o ∧ o < 0x10400 then
      let b := s.monLimits (64 * d + (o - 0x10000) / 16)
      match o % 16 with
      | 0 => fieldLE b 2 2 * 2 ^ 16 + fieldLE b 0 2
      | 4 => fieldLE b 8 4
      | 8 => fieldLE b 12 4
      | _ => fieldLE b 4 2 * 2 ^ 16 + fieldLE b 6 2
    else w

/-- A counter of a layer slot: 0 GAU_LYR_TRIP, 1 GAU_LYR_OVER, 2 GAU_LYR_LAST (R141). -/
def State.layerCount (s : State) (k which : Nat) : Nat :=
  match mapGet s.gau.layers k with
  | none => 0
  | some l => if which = 0 then l.trip.toNat else if which = 1 then l.overs.toNat else (l.nLast.getD 0).toNat

/-- GAU registers (R137 to R141). -/
def State.peekGau (s : State) (d o w : Nat) : Nat :=
  if 0x10000 ≤ o ∧ o < 0x10800 then
    let k := 64 * d + (o - 0x10000) / 32
    match o % 32 with
    | 0 => (match mapGet s.gau.layers k with | some l => l.cfg.toNat | none => 0)
    | 4 => (match mapGet s.gau.layers k with | some l => l.win.toNat | none => 0)
    | 8 => s.layerCount k 0
    | 16 => s.layerCount k 1
    | 24 => s.layerCount k 2
    | _ => w
  else w

/-- LAT registers of physical region `r` (R200 to R207); a fused region reads 0. -/
def State.peekLat (s : State) (r o w : Nat) : Nat :=
  if s.isFused r then 0
  else if o = 0 then w + (s.regionPart r).getD 0 * 2 ^ 20
  else if o = 4 then w + bitOf (s.regionHolds r) * 2 ^ 31 + bitOf (s.regionOn r) * 2 ^ 30
  else if 0x10100 ≤ o ∧ o < 0x50000 ∧ 0x100 ≤ o % 0x1000 ∧ o % 0x1000 < 0x600 then
    let u := unitAddr r ((o - 0x10000) / 0x1000) ((o % 0x1000 - 0x100) / 0x40)
    let x := s.unit u
    match o % 0x40 with
    | 0xC => x.q0.length + x.q1.length * 2 ^ 8 + x.q2.length * 2 ^ 16 + x.q3.length * 2 ^ 24
    | 0x10 => x.actx * 2 ^ 30 + bitOf x.standbyOk * 2 ^ 29 + min 65535 x.fdone
    | _ => w
  else w

/-- FLT registers (R500 to R504). -/
def State.peekFlt (s : State) (d o w : Nat) : Nat :=
  match elemAt o 0x200 4 4 0, mapGetD s.flt.logs d [] with
  | some i, e :: _ => (match i with | 0 => e.w0 | 1 => e.w1 | 2 => e.w2 | _ => e.w3).toNat
  | some _, [] => 0
  | none, _ => if o = 4 then w + bitOf (!s.flt.zeroFills.isEmpty) * 2 ^ 29 else w

/-- CNT registers (R693, R694); `link` is the PCIe link of the access. -/
def State.peekCnt (s : State) (link : Option Nat) (d o w : Nat) : Nat :=
  let smp := mapGetD s.cnt.samples d []
  if o = 0x20 then smp.length
  else if 0x30 ≤ o ∧ o < 0x40 then
    (match smp with
      | [] => 0
      | e :: _ => (match (o - 0x30) / 4 with | 0 => e.w0 | 1 => e.w1 | 2 => e.w2 | _ => e.w3).toNat)
  else if 0x10000 ≤ o then
    (match link with | some l => if s.pageLive l d ((o - 0x10000) / 0x1000) then w else 0 | none => 0)
  else
    match elemAt o 0x1000 0x10 64 4 with
    | some k => s.counter d k
    | none =>
      if 0x3000 ≤ o ∧ o < 0x3400 ∧ o % 0x100 < 0x80 ∧ o % 16 = 4 then s.counter d (64 + 8 * ((o - 0x3000) / 0x100) + o % 0x100 / 16)
      else w

/-- CHK_AUD_PART[p] (R696). -/
def State.audPart (s : State) (p : Nat) : Nat :=
  match mapGet s.chains p with
  | none => 0
  | some c =>
    let live := decide ((s.part p).state ≠ .none)
    let tags := match c.batches.getLast? with | some b => if b.closing then 0 else batchTags b | none => 0
    bitOf live * 2 ^ 31 + (c.closed.filter (fun b => b.content.isSome && !b.fetched)).length * 2 ^ 24 + tags

/-- CHK registers (R695, R696). A verification stream runs within one command, so none is seen. DEDUCED: log entry 24. -/
def State.peekChk (s : State) (d o w : Nat) : Nat :=
  if o < 0x100 then (if o % 0x40 = 0x2C then s.chkRes d (o / 0x40) else w)
  else if 0x10000 ≤ o ∧ o < 0x10100 ∧ d = 0 then
    let p := (o - 0x10000) / 16
    match o % 16 with
    | 0 => s.audPart p
    | 4 => s.openBatchNo p
    | _ => w
  else w

/-- MIT registers (R371 to R374). -/
def State.peekMit (s : State) (o w : Nat) : Nat :=
  if o = 8 then
    bitOf (s.flag (aMit 0) 31 && s.linkUp (s.field (aMit 0) 16 12)) * 2 ^ 31
      + (List.range 16).foldl (fun v p => v + bitOf (s.mitActive p) * 2 ^ p) 0
  else
    match elemAt o 0x40 4 16 0 with
    | some p => (match mapGet s.mit.pairs p with
        | some q => 2 ^ 31 + bitOf (s.mitActive p) * 2 ^ 30 + q
        | none => 0)
    | none => w

/-- CAP_COND_CFG[c] (R466). -/
def condWord (x : Condition) : Nat :=
  let b := x.entry
  ceSource b * 2 ^ 29 + 2 ^ 28 + bitOf (ceFlag b 0) * 2 ^ 27 + bitOf (ceFlag b 1) * 2 ^ 26 + bitOf (ceFlag b 2) * 2 ^ 25
    + bitOf (ceFlag b 3) * 2 ^ 24 + bitOf (ceFlag b 4) * 2 ^ 23 + cePin b % 8 * 2 ^ 20 + x.group * 2 ^ 14 + ceArg b % 64 * 2 ^ 8
    + ceWidth b

/-- CAP_GRP_STATE[g] (R465). -/
def State.grpState (s : State) (g : Nat) : Nat :=
  match mapGet s.cap.groups g with
  | none => 0
  | some x => (if x.streaming then 2 else if x.armed then 1 else 0) * 2 ^ 30 + x.die * 2 ^ 29 + x.part * 2 ^ 20 + x.records.length

/-- CAP_BUDGET: the committed rate in MB/s, rounded up (R427, R461). -/
def State.budgetMB (s : State) : Nat := ceilDiv (1250 * s.budget.1) s.budget.2

/-- CAP registers (R460 to R466). -/
def State.peekCap (s : State) (d o w : Nat) : Nat :=
  if o = 0 then w + bitOf ((s.validStreams 0).any (fun st => s.smapValid 1 st)) * 2 ^ 30
  else if o = 4 then (if d = 0 then s.budgetMB else 0)
  else if 0x100000 ≤ o ∧ o < 0x140000 ∧ o % 16 = 12 then
    let st := (o - 0x100000) / 16
    bitOf (s.smapBad d st) * 2 ^ 31 + min 511 (s.tpe d st)
  else if 0x200000 ≤ o ∧ o < 0x240000 ∧ o % 16 = 4 then mapGetD s.cap.seqHi (16384 * d + (o - 0x200000) / 16) 0
  else if d = 0 then
    match elemAt o 0x10000 0x20 64 0 with
    | some g => s.grpState g
    | none =>
      if 0x20000 ≤ o ∧ o < 0x22000 ∧ o % 32 < 12 then
        (match s.cond ((o - 0x20000) / 32) with
          | none => 0
          | some x =>
            let v := x.settings (s.cycle 0)
            match o % 32 with | 0 => condWord x | 4 => v.1 | _ => v.2)
      else w
  else w

/-- TIM registers of die 0 (R572 to R577). -/
def State.peekTim (s : State) (o w : Nat) : Nat :=
  if o = 4 then s.timStatus
  else if o = 0x20010 then s.tim.ppsTau.getD 0
  else match elemAt o 0x10000 0x100 4 0x34 with
    | some t => (s.tb t).off.toNat
    | none => w

/-- LSEL of the lane whose block lies at offset `o` of LAN (R542). -/
def lanLane (d o : Nat) : Nat := 16 * d + o / 0x1000
/-- LAN registers (R542 to R547). -/
def State.peekLan (s : State) (d o w : Nat) : Nat :=
  if o < 0x10000 then (if o % 0x1000 = 4 then setBits (BitVec.ofNat 32 w) 31 29 (s.stageShown (lanLane d o)) |>.toNat else w)
  else match elemAt o 0x10000 0x20 8 8 with
    | some j => w + bitOf (s.jesdLocked d j) * 2 ^ 31
    | none => w

/-- OPT registers (R548, R549). -/
def State.peekOpt (s : State) (d o w : Nat) : Nat :=
  if o < 0x8000 then
    let e := 8 * d + o / 0x1000
    if o % 0x1000 = 4 then s.engStatus e
    else match elemAt (o % 0x1000) 0x10 4 8 0 with
      | some l => bitsOf w 31 16 * 2 ^ 16 + s.rxPwr (32 + 8 * e + l)
      | none => w
  else if 0x10000 ≤ o ∧ o < 0x50000 ∧ o % 0x1000 = 4 then
    (setBits (BitVec.ofNat 32 w) 31 29 (s.stageShown (32 + 64 * d + (o - 0x10000) / 0x1000))).toNat
  else w

/-- WYL registers (R607 to R613). -/
def State.peekWyl (s : State) (d o w : Nat) : Nat :=
  match elemAt o 0x100 0x40 16 8 with
  | some i => bitsOf w 31 8 * 2 ^ 8 + s.linkFramed (linkNo d i)
  | none => w

/-- MEM registers (R505, R506). -/
def State.peekMem (s : State) (d o w : Nat) : Nat :=
  match elemAt o 0 0x100 2 0x10 with
  | some k => mapGetD s.flt.errAddr (2 * d + k) 0
  | none => w

/-- CRN registers (R671): the debug level is the package's. DEDUCED: log entry 24. -/
def State.peekCrn (s : State) (o w : Nat) : Nat :=
  if o = 8 then s.field (aCrn 0 8) 31 30 * 2 ^ 30 + bitOf s.ownerKeys.isEmpty * 2 ^ 29 + bitsOf w 15 0 else w

/-- NVS registers (R672). -/
def State.peekNvs (s : State) (o w : Nat) : Nat :=
  if o = 0 then w + bitOf s.storing * 2 ^ 31 else if o = 4 then s.sys.seq else w

/-- What the register at BAR0 offset `a` reads as; 0 where none stands (R700). -/
def State.peekWord (s : State) (link : Option Nat) (a : Nat) : Nat :=
  match regRow a with
  | none => 0
  | some _ =>
    let d := addrDie a
    let o := addrOff a
    let w := (s.reg a).toNat
    if s.silent a then 0
    else if o < 0x10000 then s.peekCtl d o w
    else if o < 0x20000 then w
    else if o < 0x30000 then s.peekNvs (o - 0x20000) w
    else if o < 0x40000 then s.peekCrn (o - 0x30000) w
    else if o < 0x100000 then w
    else if o < 0x200000 then s.peekFlt d (o - 0x100000) w
    else if o < 0x300000 then s.peekChk d (o - 0x200000) w
    else if o < 0x400000 then s.peekCnt link d (o - 0x300000) w
    else if o < 0x500000 then s.peekTim (o - 0x400000) w
    else if o < 0x600000 then s.peekMit (o - 0x500000) w
    else if o < 0x700000 then s.peekSeq d (o - 0x600000) w
    else if o < 0x780000 then s.peekScl d (o - 0x700000) w
    else if o < 0x800000 then s.peekGau d (o - 0x780000) w
    else if o < 0xC00000 then s.peekCap d (o - 0x800000) w
    else if o < 0x1000000 then s.peekMem d (o - 0xC00000) w
    else if o < 0x1400000 then s.peekLan d (o - 0x1000000) w
    else if o < 0x1800000 then s.peekOpt d (o - 0x1400000) w
    else if o < 0x2000000 then s.peekWyl d (o - 0x1800000) w
    else if o < 0x4000000 then s.peekLat (8 * d + (o - 0x2000000) / 0x400000) (o % 0x400000) w
    else w

/-- The value of a register as a word. DEDUCED: log entry 46. -/
def State.peek (s : State) (link : Option Nat) (a : Nat) : Word := BitVec.ofNat 32 (s.peekWord link a)

end Sys2Proof.Machine
end

