-- ==== Sys2Proof/Machine/Ports.lean ====
section
/-! DEFINITION. The dispatcher (R614 to R621, R630 to R632): taking a ready command from its port, the checks that every
command meets first, and the places of operations in progress. -/

namespace Sys2Proof.Machine

/-! ### Ready commands (R615, R635) -/

/-- CTL_PORT_STATUS of a port. -/
def aPortStatus (p : Port) : Nat := aCtl (0x104 + 0x20 * (portCode p - 1))

/-- A command becomes ready on its port; a short form that finds 16 ready is discarded (R635). -/
def State.pushReady (s : State) (p : Port) (c : Instr) : State :=
  let x := s.port p
  if !portPcie p && decide (16 ≤ x.ready.length) then s.setFlag (aPortStatus p) 27 true
  else s.putPort p { x with ready := x.ready ++ [c] }

/-- How a command fares in a dispatcher cycle. -/
inductive Taking where
  /-- it is taken -/
  | go
  /-- it stays; `told` says that it reports QUEUED -/
  | wait (told : Bool)
  /-- it is held for a Crown that stays stopped, and completes with FAULT (R656) -/
  | dead
  deriving DecidableEq, Repr

/-- Regions of a named partition that are not in P0 (R668). -/
def State.asleep (s : State) (op : Nat) (part : Option Nat) : List Nat :=
  match part with
  | none => []
  | some p => if opQuiet op then [] else (partRegions (s.part p)).filter (fun r => decide (s.regionPower r ≠ 0))

/-- Whether a command can leave its port, whatever the other ports hold (R616, R617, R630, R637, R656, R668). BUF_WRITE and BUF_READ
are no Gliniril commands (R634): they keep the order of their port, and meet no check of the others. DEDUCED: log entry 7. -/
def State.ownTaking (s : State) (c : Instr) (h : CmdHdr) (op : Nat) (part : Option Nat) : Taking :=
  let x := s.port h.port
  let behind := match x.ready.head? with | some d => !sameCmd d c | none => false
  if behind || decide (s.sys.boot ≠ .ready) || !s.portEn h.port
      || (portPcie h.port && (s.cqFull (portLink h.port) || !x.held.isEmpty))
      || (h.fence && !(s.portOps h.port).isEmpty) then .wait false
  else if 0xF0 ≤ op then .go
  else if s.sys.wakingPkg = true ∨ (s.pkgState ≠ 0 ∧ op ≠ 0x52) then .wait true
  else if opCrown op && s.crownStopped 0 then (if mapGetD s.sys.crownDead 0 false then .dead else .wait true)
  else if opLong op && decide (8 ≤ (s.portOps h.port).length) then .wait true
  else if s.asleep op part ≠ [] then .wait true
  else .go

/-- The dispatcher cycle: 32 control-clock cycles, 40 lattice cycles (R615). -/
def State.dispCycle (s : State) : Nat := s.now / 40

/-- The dispatcher has taken a command from the port in this dispatcher cycle. -/
def State.portTaken (s : State) (p : Port) : Bool := decide ((s.port p).takenAt = some s.dispCycle)

/-- Port `p` holds a command that the dispatcher takes in this dispatcher cycle and has not taken yet. -/
def State.portOffers (s : State) (p : Port) : Bool :=
  !s.portTaken p && (match (s.port p).ready.head? with
    | some c => (match cmdInfo c with
      | some (h, op, part) => decide (h.port = p)
          && (match s.ownTaking c h op part with | .go => true | .dead => true | .wait _ => false)
      | none => false)
    | none => false)

/-- A port before `p` in the order of R41 has a command to be taken first. -/
def State.portBefore (s : State) (p : Port) : Bool :=
  allPorts.any (fun q => decide (portCode q < portCode p) && s.portOffers q)

/-- Whether the dispatcher takes a command (R615): one from each port in a dispatcher cycle, in the port order of R41.
DEDUCED: log entry 7. -/
def State.taking (s : State) (c : Instr) (h : CmdHdr) (op : Nat) (part : Option Nat) : Taking :=
  match s.ownTaking c h op part with
  | .wait q => .wait q
  | r => if s.portTaken h.port || s.portBefore h.port then .wait false else r

/-- The dispatcher takes the oldest ready command of a port. -/
def State.dropHead (s : State) (p : Port) : State :=
  let x := s.port p
  s.putPort p { x with ready := x.ready.drop 1, queued := false, takenAt := some s.dispCycle }

/-- A held command reports QUEUED, once (R620). -/
def State.tellQueued (s : State) (h : CmdHdr) (op : Nat) : State :=
  let x := s.port h.port
  if x.queued then s else (s.putPort h.port { x with queued := true }).interim h op stQueued

/-- The dispatcher meets command `c`: it is taken and `f` performs it, `f`'s argument saying whether it has reported QUEUED,
or it stays ready. DEDUCED: log entry 7. -/
def State.take (s : State) (c : Instr) (f : State → Bool → State) : State :=
  match cmdInfo c with
  | none => s
  | some (h, op, part) =>
    let told := (s.port h.port).queued
    match s.taking c h op part with
    | .go => f (s.dropHead h.port) told
    | .dead => (s.dropHead h.port).complete h op stFault 0 0
    | .wait q =>
      let s := if (s.port h.port).ready.any (fun d => sameCmd d c) then s else s.pushReady h.port c
      if !q then s else (s.wakePkg.wakeRegions (s.asleep op part)).tellQueued h op

/-! ### The checks that come first (R618, R294, R632) -/

/-- CTL_PORT_CFG[PKG] of a port (R644). -/
def State.portPkg (s : State) (p : Port) : Bool := s.flag (aCtl (0x100 + 0x20 * (portCode p - 1))) 30

/-- A LOAD, SAVE_STATE or RESTORE_STATE of the partition is in progress (R632). -/
def State.partBusy (s : State) (p : Nat) : Bool :=
  s.ops.any (fun o => decide (o.part = some p ∧ o.opcode.toNat ∈ [0x13, 0x22, 0x23]))

/-- Steps 1 to 3 of R618, and R632. COUNTER_READ has a step 2 of its own (R681). -/
def State.gate (s : State) (h : CmdHdr) (op : Nat) (part : Option Nat) : Option (Nat × Nat) :=
  if !h.clean || h.unknown.isSome then at618 stRange 1
  else if opPackage op && decide (op ≠ 0x60) && !s.portPkg h.port then at618 stOwner 2
  else match part with
    | none => none
    | some p =>
      if 16 ≤ p then at618 stRange 1
      else if (s.part p).owner ≠ some h.port ∧ ¬(op = 0x10 ∧ (s.part p).state = .none) then at618 stOwner 3
      else if s.partBusy p && !opQuiet op then at618 stState 4
      else none

/-- A taken command meets those checks, and `f` performs it with its header and opcode. -/
def State.vet (s : State) (c : Instr) (f : CmdHdr → Nat → State) : State :=
  match cmdInfo c with
  | none => s
  | some (h, op, part) =>
    match s.gate h op part with
    | some (st, d) => s.complete h op st d 0
    | none => f h op

/-! ### Class I commands -/

/-- Commands that write output to the host buffer in the cycle that takes them. -/
def opWrites (op : Nat) : Bool := decide (op ∈ [0x01, 0x02, 0x42, 0x60, 0x61])

/-- A class I command: `f` gives its effect, status, DETAIL and RESULT. Where the write of its result fails, its effect
stands and host memory does not change (R621). -/
def State.instant (s : State) (c : Instr) (f : State → CmdRes) : State :=
  s.take c (fun s _ => s.vet c (fun h op =>
    if h.hostErr && portPcie h.port && decide (op = 0x30) then s.complete h op stFault 0xFFFF 0
    else
      let (t, st, d, r) := f s
      if h.hostErr && portPcie h.port && opWrites op && decide (st = stOK) then
        (t.putPort h.port { t.port h.port with host := (s.port h.port).host }).complete h op stFault 0xFFFF 0
      else t.complete h op st d r))

/-! ### Operations in progress (R620, R630, R631) -/

/-- The lowest free operation place of a port. -/
def State.freePlace (s : State) (p : Port) : Nat :=
  ((List.range 8).find? (fun i => !s.ops.any (fun o => decide (o.port = p ∧ o.place = i)))).getD 0

/-- The agent of 1 to 3 with the fewest operations on the dies `ds`; the lowest of equal ones. DEDUCED: log entry 19. -/
def State.pickAgent (s : State) (ds : List Nat) : Nat :=
  let load := fun (a : Nat) => (s.ops.filter (fun o => decide (o.agent = some a) && o.dies.any (fun d => decide (d ∈ ds)))).length
  [2, 3].foldl (fun b a => if load a < load b then a else b) 1

/-- Command `c` is accepted: it takes a place with status `st`, and reports it. `told` says that it has reported QUEUED. -/
def State.addOp (s : State) (c : Instr) (st : Nat) (agent : Option Nat) (dies : List Nat) (buf : List Byte) (told : Bool) : State :=
  match cmdInfo c with
  | none => s
  | some (h, op, part) =>
    let o : Op := { port := h.port, place := s.freePlace h.port, cmd := c, hdr := h, opcode := BitVec.ofNat 8 op, part := part,
                    status := BitVec.ofNat 8 st, steps := 0, agent := agent, dies := dies, done := 0, buf := buf, orphan := false }
    let s := { s with ops := s.ops ++ [o] }
    if st = stQueued ∧ told then s else s.interim h op st

/-- A class W or S command: refused by the check `e`, or accepted, `f` performing its acceptance. DEDUCED: log entry 9. -/
def State.begin (s : State) (c : Instr) (e : Option (Nat × Nat)) (f : State → State) : State :=
  match cmdInfo c, e with
  | some (h, op, _), some (st, d) => s.complete h op st d 0
  | _, _ => f s

/-- Replace an operation. -/
def State.putOp (s : State) (o : Op) : State :=
  { s with ops := s.ops.map (fun x => if x.port = o.port ∧ x.place = o.place then o else x) }

end Sys2Proof.Machine
end

