-- ==== Sys2Proof/Machine/Commands.lean ====
section
/-! DEFINITION. The Gliniril commands (R622 to R634) and the steps of long operations (R631 to R633). -/

namespace Sys2Proof.Machine

/-! ### IDENTIFY, QUERY, COUNTER_READ, READ_SETTINGS (R623, R624, R628, R664) -/

/-- Device identifier of the grade (R1). -/
def gradeId : Grade → Nat
  | .kh16 => 0x4B16
  | .kh12 => 0x4B12

/-- The first word of the PCI configuration space, which answers in every boot state (R6, R650): the vendor identifier and the
device identifier of the grade. The spec gives no other word of it. UNVERIFIED: log entry 27. -/
def State.pciIdWord (s : State) : Word := BitVec.ofNat 32 (gradeId s.hw.grade * 2 ^ 16 + Config.vendorId.toNat)

/-- The identity block, as port `p` reads it (R623). UNVERIFIED: log entry 27. -/
def State.identity (s : State) (p : Port) : List Byte :=
  let (st, pr) := match s.hw.stepping with | .a1 => (0x00A1, [0x00A1, 0]) | .b0 => (0x00B0, [0x00A1, 0x00B0])
  leBytes 2 Config.vendorId.toNat ++ leBytes 2 (gradeId s.hw.grade) ++ leBytes 2 st ++ zeroBytes 2
    ++ leBytes 2 (pr.getD 0 0) ++ leBytes 2 (pr.getD 1 0) ++ leBytes 2 s.hw.fused.toNat ++ leBytes 2 s.pkg ++ s.deviceId
    ++ leBytes 4 (s.reg (aCrn 0 4)).toNat ++ leBytes 4 (s.reg (aBrm 0 0)).toNat
    ++ [BitVec.ofNat 8 (bitOf s.sys.twoX8), BitVec.ofNat 8 (portCode p)] ++ zeroBytes 22

/-- The words of QUERY (R624); none for an unknown SEL or PART. -/
def State.queryWords (s : State) (port : Port) (sel part : Nat) : Option (List Nat) :=
  let rd := s.peekWord none
  if sel = 0 then
    some ([rd (aCtl 0), rd (aFlt 0 0), rd (aFlt 1 0), rd (aFlt 0 4), rd (aCap 0 4), rd (aTim 4), rd (aMit 0)]
      ++ (List.range 16).map (fun p => rd (aSeq 0 (0x400 + 16 * p))))
  else if sel = 1 ∧ part < 16 then
    some [s.partCtl part, s.partAlloc part, s.bndLo part, s.bndHi part, rd (aSeq 0 (0x100 + 4 * part)), rd (aSeq 1 (0x100 + 4 * part)),
      rd (aSeq 0 (0x700 + 16 * part)), rd (aSeq 0 (0x704 + 16 * part))]
  else if sel = 2 then
    some ((List.range 8).foldl (fun l i => l ++ (match s.ops.find? (fun o => decide (o.port = port ∧ o.place = i)) with
      | some o => [o.hdr.tag.toNat * 2 ^ 16 + o.opcode.toNat * 2 ^ 8 + o.status.toNat, o.steps]
      | none => [0, 0])) [])
  else none

/-- A class I command that writes `b` to its host buffer. -/
def State.answer (s : State) (h : CmdHdr) (b : List Byte) : CmdRes :=
  if hostShort h b.length then refRange s else (s.hostWrite h b, stOK, 0, b.length)

/-- QUERY. -/
def State.query (s : State) (h : CmdHdr) (sel part : Nat) : CmdRes :=
  match s.queryWords h.port sel part with
  | none => refRange s
  | some ws => s.answer h (ws.foldl (fun b w => b ++ leBytes 4 w) [])

/-- COUNTER_READ (R628, R681). -/
def State.counterRead (s : State) (h : CmdHdr) (d mask bmask : Nat) : CmdRes :=
  match s.counterReadCheck h (s.portPkg h.port) d mask bmask with
  | some (st, det) => refusal s st det
  | none => s.answer h (s.counterBytes d mask bmask)

/-- READ_SETTINGS (R664). -/
def State.readSettingsCmd (s : State) (h : CmdHdr) (rmask : Nat) : CmdRes :=
  if 256 ≤ rmask then refusal s stRange (det618 1) else s.answer h (s.readSettings rmask)

/-- The arm block of an ARM; empty where its range leaves the port buffer (R634). -/
def State.armBlock (s : State) (h : CmdHdr) : List Byte :=
  if !portPcie h.port && decide (65536 < h.hostAddr + h.hostLen) then [] else s.hostInput h

/-! ### SET_WAKE_TOL (R666, R668) -/

/-- The package or a region is in a deeper state than its tolerance allows. -/
def State.tooDeep (s : State) : Bool :=
  if s.pkgState ≠ 0 then decide (s.leastTol < wakeTime s.pkgState)
  else (List.range 16).any (fun r => decide (s.regionTol r < wakeTime (s.regionPower r)))

/-- SET_WAKE_TOL takes effect; `told` says that it has been held before. It stays ready while a state that the tolerance
does not allow, or the package's sleep, ends. DEDUCED: log entry 10. -/
def State.wakeTol (s : State) (c : Instr) (h : CmdHdr) (part tol : Nat) (told : Bool) : State :=
  if part ≠ 0xFF ∧ 16 ≤ part then s.complete h 0x52 stRange (det618 5) 0
  else if part = 0xFF ∧ !s.portPkg h.port then s.complete h 0x52 stOwner (det618 2) 0
  else
    let s := s.setReg (if part = 0xFF then aPwr 0 8 else aPwr 0 (0x100 + 4 * part)) (BitVec.ofNat 32 tol)
    if s.tooDeep ∨ (s.pkgState ≠ 0 ∧ !told) then
      let s := s.wakePkg.wakeRegions (if s.pkgState ≠ 0 then [] else
        (List.range 16).filter (fun r => decide (s.regionTol r < wakeTime (s.regionPower r))))
      let x := s.port h.port
      (s.putPort h.port { x with ready := c :: x.ready, queued := told }).tellQueued h 0x52
    else s.complete h 0x52 stOK 0 0

/-! ### Port buffers (R634) -/

/-- Largest PBUF_LEN of a BUF_WRITE on a port. -/
def bufLimit (p : Port) : Nat := if p = .jtag then 52 else 224

/-- BUF_WRITE and BUF_READ share a port check and a range check. DEDUCED: log entry 13. -/
def bufCheck (h : CmdHdr) (limit : Nat) : Option Nat :=
  if portPcie h.port then some (det618 1)
  else if limit < h.hostLen ∨ 65536 < h.hostAddr + h.hostLen then some (det618 5) else none

/-- BUF_WRITE. DEDUCED: log entry 13. -/
def State.bufWrite (s : State) (h : CmdHdr) (data : List Byte) : State :=
  match bufCheck h (bufLimit h.port) with
  | some d => s.complete h 0xF0 stRange d 0
  | none => (s.hostWrite h (bytesAt data 0 h.hostLen)).complete h 0xF0 stOK 0 0

/-- BUF_READ: the bytes follow its completion entry. DEDUCED: log entry 13. -/
def State.bufRead (s : State) (h : CmdHdr) : State :=
  match bufCheck h 224 with
  | some d => s.complete h 0xF1 stRange d 0
  | none => s.post h.port ⟨h.tag, 0xF1, BitVec.ofNat 8 stOK, 0, 0, h.irq, memRead (s.port h.port).buffer h.hostAddr h.hostLen⟩

/-! ### Acceptance of class W and S commands (R622, R630) -/

/-- Dies of a partition's regions. -/
def partDies (p : Partition) : List Nat := [0, 1].filter (partOnDie p)

/-- A class W command is accepted: it reports QUEUED. DEDUCED: log entry 9. -/
def State.addWait (s : State) (c : Instr) (told : Bool) : State := s.addOp c stQueued none [] [] told

/-- A class S command is accepted on agent 0 of the dies `ds`, or on the least used of agents 1 to 3. DEDUCED: log entry 9. -/
def State.addLong (s : State) (c : Instr) (first : Bool) (ds : List Nat) (buf : List Byte) : State :=
  s.addOp c stStepping (some (if first then 0 else s.pickAgent ds)) ds buf false

/-- Check of STAGE_IMAGE (R474, R625). DESIGN CHOICE: log entry 15. -/
def State.stageCheck (s : State) (h : CmdHdr) (p kind dst len off : Nat) : Option (Nat × Nat) :=
  let pt := s.part p
  let n := h.hostLen
  let prev := pt.staged.find? (fun x => decide (x.dst = dst))
  if pt.staged.any (fun x => x.auth && rangesMeet dst len x.dst x.len)
      || (decide (off ≠ 0) && (match prev with | some x => decide (x.next ≠ off) | none => true)) then at618 stState 4
  else if 2 < kind ∨ dst % 4096 ≠ 0 ∨ partLen pt < dst + len ∨ n = 0 ∨ len < off + n
      ∨ (off ≠ 0 ∧ (prev.map (·.len)) ≠ some len) ∨ (kind = 0 ∧ !portPcie h.port) ∨ (kind = 2 ∧ portPcie h.port)
      ∨ (kind = 1 ∧ (rangesMeet h.hostAddr n dst len ∨ partLen pt < h.hostAddr + n))
      ∨ (kind = 2 ∧ 65536 < h.hostAddr + n) then at618 stRange 5
  else none

/-- Change the staging at `dst` of partition `p`. -/
def State.mapStaged (s : State) (p dst : Nat) (f : Staged → Staged) : State :=
  let pt := s.part p
  s.putPart p { pt with staged := pt.staged.map (fun x => if x.dst = dst then f x else x) }

/-- A chunk of `n` bytes is accepted; one with CHUNK_OFF 0 begins a staging and abandons what it overlays. A STAGE_IMAGE in progress
on an abandoned staging has written its part of it, and ends with FAULT. DESIGN CHOICE: log entry 100. -/
def State.stageBegin (s : State) (p dst len off n : Nat) : State :=
  if off ≠ 0 then s.mapStaged p dst (fun x => { x with next := off + n })
  else
    let gone := s.ops.filter (fun o => match o.cmd with
      | .stageImage _ q _ d n _ => decide (q = p) && rangesMeet dst len d n
      | _ => false)
    let s := gone.foldl (fun s o => s.finishOp o stFault 0 0) s
    let pt := s.part p
    s.putPart p { pt with staged := pt.staged.filter (fun x => !rangesMeet dst len x.dst x.len) ++ [⟨dst, len, n, 0, false, []⟩] }

/-- What LOAD meets at its acceptance: state (R296, R313), a thermal hold (R495), an unfinished staging (R625), tokens
without FLUSH (R304). DEDUCED: log entry 12. -/
def State.loadAccept (s : State) (p img : Nat) (flush : Bool) : Option (Nat × Nat) :=
  let pt := s.part p
  let still := match pt.state with | .bound | .loaded | .paused | .stopped => true | _ => false
  let held := match pt.stagedAt img with | some x => decide (x.done = x.len) | none => false
  if !still || pt.change.isSome || !held || (partRegions pt).any (fun r => s.flag (aFlt (r / 8) 0) 31)
      || (!flush && (partRegions pt).any s.regionHolds) then at618 stState 4
  else none

/-- SET_MODE_AT of a kind whose checks and acceptance `f` makes. -/
def State.modeSet (s : State) (c : Instr) (h : CmdHdr) (p : Nat) (f : State × Option (Nat × Nat)) : State :=
  match f with
  | (t, some (st, d)) => if st = stFault then t.complete h 0x25 st d 0 else s.complete h 0x25 st d 0
  | (t, none) => t.addLong c false (partDies (t.part p)) []

/-- EYE_SCANs that run on a die. -/
def State.scansOn (s : State) (d : Nat) : Nat :=
  (s.ops.filter (fun o => decide (o.opcode = 0x50 ∧ o.status.toNat = stStepping ∧ d ∈ o.dies))).length

/-! ### Steps (R631) -/

/-- An operation can run a step: its agent's core runs on each die, and the Crown where it needs it. DEDUCED: log entry 19. -/
def State.canStep (s : State) (o : Op) : Bool :=
  match o.agent with
  | none => false
  | some a =>
    if a = 4 then !s.crownStopped 0
    else o.dies.all (fun d => decide (s.coreState d a = 0)) && !(decide (o.opcode = 0x13) && decide (o.steps = 0) && s.crownStopped 0)

/-- Host memory fails for a step (R621). DEDUCED: log entry 11. -/
def hostFails (o : Op) (i : StepIn) : Bool := i.hostErr && portPcie o.port

/-- Bytes of the partition's allocation as a copy reads them; none on an error that it cannot pass. -/
def State.sourceRead (s : State) (p o n : Nat) : State × Option (List Byte) :=
  let k := 2 * partDie (s.part p)
  let a := partBase (s.part p) + o
  let r := (s.badUnits k a n).foldl (fun (x : State × Bool) u =>
    let y := x.1.unitRead false k (32 * u) (some p)
    (y.1, x.2 || y.2)) (s, false)
  (r.1, if r.2 then none else some (r.1.stackRead k a n))

/-- The bytes that one step of STAGE_IMAGE takes from its source. -/
def State.stageSource (s : State) (o : Op) (i : StepIn) (p kind : Nat) : State × Option (List Byte) :=
  let rest := o.hdr.hostLen - o.done
  let n := if i.last then rest else min rest (max i.amount (2 ^ 20))
  if kind = 0 then (s, some (i.bytes.take rest))
  else if kind = 1 then s.sourceRead p (o.hdr.hostAddr + o.done) n
  else (s, some (memRead (s.port o.port).buffer (o.hdr.hostAddr + o.done) n))

/-- A chunk of `n` bytes is staged; with the last of them the load digest is held (R287, R305, R625). -/
def State.stageEnd (s : State) (p dst n : Nat) : State :=
  let pt := s.part p
  s.mapStaged p dst (fun x =>
    if x.done + n = x.len then
      let b := s.stackRead (2 * partDie pt) (partBase pt + dst) x.len
      { x with done := x.len, digest := sha384 (b.take (iCover b)) }
    else { x with done := x.done + n })

/-- A chunk fails: the staging waits for it again, where no later chunk has been accepted. DESIGN CHOICE: log entry 15. -/
def State.stageFails (s : State) (p dst off n : Nat) : State :=
  s.mapStaged p dst (fun x => if x.next = off + n then { x with next := off } else x)

/-- A step of STAGE_IMAGE (R474, R625): both copies on both dies. -/
def State.stagingStep (s : State) (o : Op) (i : StepIn) (p kind dst off : Nat) : State :=
  if kind = 0 ∧ hostFails o i then (s.stageFails p dst off o.hdr.hostLen).finishOp o stFault 0xFFFF 0
  else
    let r := s.stageSource o i p kind
    match r.2 with
    | none => (r.1.stageFails p dst off o.hdr.hostLen).finishOp o stFault 0 0
    | some b =>
      let a := partBase (s.part p) + dst + off + o.done
      let s := (List.range 4).foldl (fun (s : State) k => (s.stackWrite k a b).bestEffort k a b.length) r.1
      let e := o.done + b.length
      if e = o.hdr.hostLen then (s.stageEnd p dst e).finishOp o stOK 0 (off + e)
      else s.putOp { o with done := e }

/-- The state that an operation in LOADING gives back. -/
def Op.heldState (o : Op) : PState :=
  match fieldLE o.buf 0 1 with
  | 1 => .bound
  | 3 => .loaded
  | 7 => .stopped
  | _ => .paused

/-- A LOAD ends; the comparator and its peer hear of the image in force (R365). -/
def State.loadDone (s : State) (o : Op) (p st d v : Nat) : State :=
  let s := if st = stOK then s.mitAnnounce p else s
  (s.finishOp o st d v).mitRefresh p

/-- A step of LOAD (R302, R303): the first makes the checks, each further one loads two regions of each die, the last completes
it. `o.done` counts the groups of regions loaded. DEDUCED: log entry 20. -/
def State.loadStep (s : State) (o : Op) (i : StepIn) (p img : Nat) (relaxed flush : Bool) (epoch : Option (BitVec 2)) : State :=
  if o.steps = 1 then
    let r := s.loadBegin p img relaxed epoch
    match r.2 with
    | none => r.1
    | some (st, d) =>
      if st = stFault then r.1.loadDone o p st d 0
      else (r.1.putPart p { r.1.part p with state := o.heldState }).loadDone o p st d 0
  else if i.fault then
    let r := s.loadEnd p img flush true
    r.1.loadDone o p r.2.1 0 r.2.2
  else if o.done < loadGroups (s.part p) then
    let r := s.loadSome p img o.done
    if r.2 then r.1.putOp { o with done := o.done + 1 } else r.1.loadDone o p stFault 0 0
  else
    let r := s.loadEnd p img flush false
    r.1.loadDone o p r.2.1 0 r.2.2

/-- A step of SAVE_STATE; a fault that it cannot pass leaves the areas invalid (R319). -/
def State.saveStep (s : State) (o : Op) (i : StepIn) (p base : Nat) : State :=
  if i.fault then
    ((partDies (s.part p)).foldl (fun s d => s.stackWrite (2 * d) (areaByte (s.part p) base) (zeroBytes 4)) s).finishOp o stFault 0 0
  else if i.last then
    let (s, st) := s.saveEnd p base
    s.finishOp o st 0 0
  else s

/-- A step of RESTORE_STATE; the operation carries the state that a refusal or fault gives back. -/
def State.restoreStep (s : State) (o : Op) (i : StepIn) (p base : Nat) : State :=
  let old := o.heldState
  if i.fault then (s.putPart p { s.part p with state := old }).finishOp o stFault 0 0
  else if i.last then
    let (s, st, d) := s.restoreEnd p base old
    s.finishOp o st d 0
  else s

/-- A step of SET_MODE_AT: the shadow fill ends with MODE_CHANGE_ARM. -/
def State.modeStep (s : State) (o : Op) (i : StepIn) (p : Nat) : State :=
  match (s.part p).change with
  | some c => if i.fault then (s.modeDrop p c).finishOp o stFault 0 0 else s
  | none => s

/-- A step of SCRUB (R491 to R493). -/
def State.scrubOp (s : State) (o : Op) (i : StepIn) (space : Nat) (repair : Bool) (stks regions base len : Nat) : State :=
  let (s, n, x) := s.scrubStep repair space stks (BitVec.ofNat 16 regions) base len o i
  let all := decide (n = scrubTotal space len)
  if all || i.fault then
    if hostFails o i then s.finishOp o stFault 0xFFFF 0
    else
      let good := all && !i.fault
      let s := if o.orphan then s else s.hostWrite o.hdr (x.toBytes good repair)
      s.finishOp o (if good then stOK else stFault) 0 x.found
  else s.putOp { o with done := n, buf := x.toBytes false repair }

/-- A step of STORE_SETTINGS (R662); a failed check ends it with FAULT. -/
def State.storeStep (s : State) (o : Op) (i : StepIn) : State :=
  if i.last ∨ i.fault then
    let (s, st) := s.storeEnd o.buf (!i.fault)
    s.finishOp o st 0 0
  else s

/-- A step of EYE_SCAN (R536, R537): it measures further points. -/
def State.eyeStep (s : State) (o : Op) (i : StepIn) (l : Nat) (g : EyeGrid) : State :=
  if i.fault then s.eyeEnd o l g stFault
  else
    let n := min (i.bytes.length / 4) (gridPoints g - o.done)
    let o := { o with done := o.done + n, buf := o.buf ++ i.bytes.take (4 * n) }
    if o.done = gridPoints g then
      (if hostFails o i then (s.eyeStatus l false o.done).finishOp o stFault 0xFFFF o.done else s.eyeEnd o l g stOK)
    else (s.eyeStatus l true o.done).putOp o

/-- One step of operation `o`, by its command. -/
def State.runStep (s : State) (o : Op) (i : StepIn) : State :=
  let o := { o with steps := o.steps + 1 }
  let s := s.putOp o
  match o.cmd with
  | .stageImage _ p kind dst _ off => s.stagingStep o i p kind dst off
  | .load _ p relaxed flush epoch img => s.loadStep o i p img relaxed flush epoch
  | .saveState _ p base => s.saveStep o i p base
  | .restoreState _ p base => s.restoreStep o i p base
  | .setModeAtScaleSet _ p _ _ _ => s.modeStep o i p
  | .setModeAtTrigger _ p _ _ _ => s.modeStep o i p
  | .setModeAtSeeds _ p _ _ _ _ => s.modeStep o i p
  | .scrub _ space repair stks regions base len => s.scrubOp o i space repair stks regions base len
  | .storeSettings _ _ => s.storeStep o i
  | .eyeScan _ l g => s.eyeStep o i l g
  | _ => s

/-- LONG_OP_STEP: a step agent serves the operation of a port and tag (R631). A waiting EYE_SCAN starts where fewer than
four run on its die (R536). DEDUCED: log entry 19. -/
def State.longStep (s : State) (p : Port) (tag : BitVec 16) (i : StepIn) : State :=
  match s.ops.find? (fun o => decide (o.port = p ∧ o.hdr.tag = tag) && o.agent.isSome) with
  | none => s
  | some o =>
    if !s.canStep o then s
    else if o.status.toNat = stQueued then
      if o.dies.any (fun d => decide (4 ≤ s.scansOn d)) then s
      else
        let o := { o with status := BitVec.ofNat 8 stStepping }
        ((s.putOp o).interim o.hdr o.opcode.toNat stStepping).runStep o i
    else s.runStep o i

/-! ### Meanings: class I -/

def execIdentify (h : CmdHdr) (s : State) : Host.Outcome State Fault Refusal :=
  .next (s.instant (.identify h) (fun s => if hostShort h 64 then refRange s else (s.hostWrite h (s.identity h.port), stOK, 0, 64)))
def execQuery (h : CmdHdr) (sel part : Nat) (s : State) : Host.Outcome State Fault Refusal :=
  .next (s.instant (.query h sel part) (fun s => s.query h sel part))
def execBind (h : CmdHdr) (part : Nat) (regions : BitVec 16) (base size : Nat) (s : State) : Host.Outcome State Fault Refusal :=
  .next (s.instant (.bind h part regions base size) (fun s => s.bindCmd h.port part regions base size))
def execUnbind (h : CmdHdr) (part : Nat) (regions : BitVec 16) (s : State) : Host.Outcome State Fault Refusal :=
  .next (s.instant (.unbind h part regions) (fun s => s.unbindCmd part regions))
def execArm (h : CmdHdr) (part group : Nat) (s : State) : Host.Outcome State Fault Refusal :=
  .next (s.instant (.arm h part group) (fun s => s.armCmd h.port part group (s.armBlock h)))
def execDisarm (h : CmdHdr) (part group : Nat) (s : State) : Host.Outcome State Fault Refusal :=
  .next (s.instant (.disarm h part group) (fun s => s.disarmCmd part group))
def execForceTrigger (h : CmdHdr) (cond : Nat) (s : State) : Host.Outcome State Fault Refusal :=
  .next (s.instant (.forceTrigger h cond) (fun s => s.forceCmd h.port cond))
def execReadSettings (h : CmdHdr) (rmask : Nat) (s : State) : Host.Outcome State Fault Refusal :=
  .next (s.instant (.readSettings h rmask) (fun s => s.readSettingsCmd h rmask))
def execCounterRead (h : CmdHdr) (die mask bmask : Nat) (s : State) : Host.Outcome State Fault Refusal :=
  .next (s.instant (.counterRead h die mask bmask) (fun s => s.counterRead h die mask bmask))
def execAuditFetch (h : CmdHdr) (part : Nat) (close headsOnly : Bool) (batch : Nat) (s : State) : Host.Outcome State Fault Refusal :=
  .next (s.instant (.auditFetch h part close headsOnly batch) (fun s => s.auditFetch h part close headsOnly batch))
def execMittenPair (h : CmdHdr) (stop : Bool) (link peer : Nat) (pairs : List (Nat × Nat)) (s : State) :
    Host.Outcome State Fault Refusal :=
  .next (s.instant (.mittenPair h stop link peer pairs) (fun s => s.mittenPair h stop link peer pairs))
def execMittenPairDissolve (h : CmdHdr) (s : State) : Host.Outcome State Fault Refusal :=
  .next (s.instant (.mittenPairDissolve h) (fun s => s.mittenDissolve h))
def execSetModeAtCancel (h : CmdHdr) (part : Nat) (s : State) : Host.Outcome State Fault Refusal :=
  .next (s.instant (.setModeAtCancel h part) (fun s => s.modeCancel part))
def execLaneCtlSetMode (h : CmdHdr) (tkind target index : Nat) (args : List Byte) (s : State) : Host.Outcome State Fault Refusal :=
  .next (s.instant (.laneCtlSetMode h tkind target index args) (fun s => s.ctlSetMode tkind target args))
def execLaneCtlUp (h : CmdHdr) (tkind target index : Nat) (args : List Byte) (s : State) : Host.Outcome State Fault Refusal :=
  .next (s.instant (.laneCtlUp h tkind target index args) (fun s => s.ctlUp tkind target))
def execLaneCtlDown (h : CmdHdr) (tkind target index : Nat) (args : List Byte) (s : State) : Host.Outcome State Fault Refusal :=
  .next (s.instant (.laneCtlDown h tkind target index args) (fun s => s.ctlDown tkind target))
def execLaneCtlSlip (h : CmdHdr) (tkind target index : Nat) (args : List Byte) (s : State) : Host.Outcome State Fault Refusal :=
  .next (s.instant (.laneCtlSlip h tkind target index args) (fun s => s.ctlSlip tkind target args))
def execLaneCtlTest (h : CmdHdr) (tkind target index : Nat) (args : List Byte) (s : State) : Host.Outcome State Fault Refusal :=
  .next (s.instant (.laneCtlTest h tkind target index args) (fun s => s.ctlTest tkind target args))
def execLaneCtlInject (h : CmdHdr) (tkind target index : Nat) (args : List Byte) (s : State) : Host.Outcome State Fault Refusal :=
  .next (s.instant (.laneCtlInject h tkind target index args) (fun s => s.ctlInject tkind target))
def execLaneCtlSetEq (h : CmdHdr) (tkind target index : Nat) (args : List Byte) (s : State) : Host.Outcome State Fault Refusal :=
  .next (s.instant (.laneCtlSetEq h tkind target index args) (fun s => s.ctlSetEq tkind target args))
def execLaneCtlSetMap (h : CmdHdr) (tkind target index : Nat) (args : List Byte) (s : State) : Host.Outcome State Fault Refusal :=
  .next (s.instant (.laneCtlSetMap h tkind target index args) (fun s => s.ctlSetMap tkind target args))
def execLaneCtlSetClass (h : CmdHdr) (tkind target index : Nat) (args : List Byte) (s : State) : Host.Outcome State Fault Refusal :=
  .next (s.instant (.laneCtlSetClass h tkind target index args) (fun s => s.ctlSetClass tkind target index args))
def execLaneCtlSetOut (h : CmdHdr) (tkind target index : Nat) (args : List Byte) (s : State) : Host.Outcome State Fault Refusal :=
  .next (s.instant (.laneCtlSetOut h tkind target index args) (fun s => s.ctlSetOut h tkind target index args))
def execLaneCtlSetJesd (h : CmdHdr) (tkind target index : Nat) (args : List Byte) (s : State) : Host.Outcome State Fault Refusal :=
  .next (s.instant (.laneCtlSetJesd h tkind target index args) (fun s => s.ctlSetJesd tkind target args))
def execSetWakeTol (h : CmdHdr) (part tol : Nat) (s : State) : Host.Outcome State Fault Refusal :=
  .next (s.take (.setWakeTol h part tol) (fun s told => s.vet (.setWakeTol h part tol)
    (fun _ _ => s.wakeTol (.setWakeTol h part tol) h part tol told)))
def execBufWrite (h : CmdHdr) (data : List Byte) (s : State) : Host.Outcome State Fault Refusal :=
  .next (s.take (.bufWrite h data) (fun s _ => s.vet (.bufWrite h data) (fun _ _ => s.bufWrite h data)))
def execBufRead (h : CmdHdr) (s : State) : Host.Outcome State Fault Refusal :=
  .next (s.take (.bufRead h) (fun s _ => s.vet (.bufRead h) (fun _ _ => s.bufRead h)))

/-! ### Meanings: classes W and S -/

def execStageImage (h : CmdHdr) (part srcKind dst imgLen chunkOff : Nat) (s : State) : Host.Outcome State Fault Refusal :=
  let c := Instr.stageImage h part srcKind dst imgLen chunkOff
  .next (s.take c (fun s _ => s.vet c (fun _ _ => s.begin c (s.stageCheck h part srcKind dst imgLen chunkOff)
    (fun s => (s.stageBegin part dst imgLen chunkOff h.hostLen).addLong c false [0, 1] []))))
def execLoad (h : CmdHdr) (part : Nat) (relaxed flush : Bool) (epoch : Option (BitVec 2)) (img : Nat) (s : State) :
    Host.Outcome State Fault Refusal :=
  let c := Instr.load h part relaxed flush epoch img
  .next (s.take c (fun s _ => s.vet c (fun _ _ => s.begin c (s.loadAccept part img flush)
    (fun s => (s.addLong c true (partDies (s.part part)) [BitVec.ofNat 8 (pstateCode (s.part part).state)]).putPart part
      { s.part part with state := .loading }))))
def execStartAt (h : CmdHdr) (part : Nat) (align : Bool) (t : Nat) (deep : DeepParams) (s : State) : Host.Outcome State Fault Refusal :=
  let c := Instr.startAt h part align t deep
  .next (s.take c (fun s told => s.vet c (fun _ _ => s.begin c (s.startCheck part align t deep)
    (fun s => (s.startBegin part align t deep).addWait c told))))
def execPause (h : CmdHdr) (part : Nat) (s : State) : Host.Outcome State Fault Refusal :=
  let c := Instr.pause h part
  .next (s.take c (fun s told => s.vet c (fun _ _ => s.begin c (if (s.part part).state = .running then none else at618 stState 4)
    (fun s => (s.pauseBegin part).addWait c told))))
def execSaveState (h : CmdHdr) (part base : Nat) (s : State) : Host.Outcome State Fault Refusal :=
  let c := Instr.saveState h part base
  .next (s.take c (fun s _ => s.vet c (fun _ _ => s.begin c (s.saveCheck part base)
    (fun s => s.addLong c false (partDies (s.part part)) []))))
def execRestoreState (h : CmdHdr) (part base : Nat) (s : State) : Host.Outcome State Fault Refusal :=
  let c := Instr.restoreState h part base
  .next (s.take c (fun s _ => s.vet c (fun _ _ => s.begin c (s.restoreCheck part base)
    (fun s => (s.addLong c true (partDies (s.part part)) [BitVec.ofNat 8 (pstateCode (s.part part).state)]).putPart part
      { s.part part with state := .loading }))))
def execResume (h : CmdHdr) (part t : Nat) (s : State) : Host.Outcome State Fault Refusal :=
  let c := Instr.resume h part t
  .next (s.take c (fun s told => s.vet c (fun _ _ => s.begin c (s.resumeCheck part t)
    (fun s => (s.resumeBegin part t).addWait c told))))
def execSetModeAtScaleSet (h : CmdHdr) (part stream n settings : Nat) (s : State) : Host.Outcome State Fault Refusal :=
  let c := Instr.setModeAtScaleSet h part stream n settings
  .next (s.take c (fun s _ => s.vet c (fun _ _ => s.modeSet c h part (s.setModeScale part stream n settings))))
def execSetModeAtTrigger (h : CmdHdr) (part stream n settings : Nat) (s : State) : Host.Outcome State Fault Refusal :=
  let c := Instr.setModeAtTrigger h part stream n settings
  .next (s.take c (fun s _ => s.vet c (fun _ _ => s.modeSet c h part (s.setModeTrigger part stream n settings))))
def execSetModeAtSeeds (h : CmdHdr) (part stream n pmask : Nat) (seeds : List Nat) (s : State) : Host.Outcome State Fault Refusal :=
  let c := Instr.setModeAtSeeds h part stream n pmask seeds
  .next (s.take c (fun s _ => s.vet c (fun _ _ => s.modeSet c h part (s.setModeSeeds part stream n pmask seeds))))
def execScrub (h : CmdHdr) (space : Nat) (repair : Bool) (stks regions base len : Nat) (s : State) :
    Host.Outcome State Fault Refusal :=
  let c := Instr.scrub h space repair stks regions base len
  let ds := [0, 1].filter (fun d => if space = 0 then decide (bitsOf stks (2 * d + 1) (2 * d) ≠ 0)
    else decide (bitsOf regions (8 * d + 7) (8 * d) ≠ 0))
  .next (s.take c (fun s _ => s.vet c (fun _ _ => s.begin c (s.scrubCheck h space stks (BitVec.ofNat 16 regions) base len)
    (fun s => s.addLong c false ds (zeroBytes 64)))))
def execStoreSettings (h : CmdHdr) (rmask : Nat) (s : State) : Host.Outcome State Fault Refusal :=
  let c := Instr.storeSettings h rmask
  let unread := h.hostErr && portPcie h.port && (rmask.testBit 6 || rmask.testBit 7)
  .next (s.take c (fun s _ => s.vet c (fun _ _ => s.begin c (if unread then some (stFault, 0xFFFF) else s.storeCheck h rmask)
    (fun s => s.addOp c stStepping (some 4) [0] (s.storeImage h rmask) false))))
def execEyeScan (h : CmdHdr) (lsel : Nat) (grid : EyeGrid) (s : State) : Host.Outcome State Fault Refusal :=
  let c := Instr.eyeScan h lsel grid
  let d := laneDie lsel
  .next (s.take c (fun s told => s.vet c (fun _ _ => s.begin c (s.eyeCheck h lsel grid)
    (fun s => if s.scansOn d < 4 then (s.eyeStatus lsel true 0).addLong c false [d] []
      else s.addOp c stQueued (some (s.pickAgent [d])) [d] [] told))))
def execBarrier (h : CmdHdr) (tb : Nat) (at_ : TimeVal) (v id : Nat) (s : State) : Host.Outcome State Fault Refusal :=
  let c := Instr.barrier h tb at_ v id
  .next (s.take c (fun s told => s.vet c (fun _ _ => s.begin c (s.barrierCheck tb at_ v)
    (fun s => State.addWait { s with barrier := some ⟨h, tb, time16Of at_, v, id⟩ } c told))))
/-- DEDUCED: log entry 11. DEDUCED: log entry 20. -/
def execLongOpStep (port : Port) (tag : BitVec 16) (step : StepIn) (s : State) : Host.Outcome State Fault Refusal :=
  .next (s.longStep port tag step)

end Sys2Proof.Machine
end

