-- ==== Sys2Proof/Machine/Transport.lean ====
section
/-! DEFINITION. How commands reach a port and completions leave it: descriptors and short forms (R617, R622, R634), the PCIe
rings (R637, R638), SMBus and JTAG transfers (R635, R727, R728), CONTROL messages (R601). -/

namespace Sys2Proof.Machine

/-! ### Descriptors (R617, R622) -/

/-- Parameter fields of a command: offset, bytes, and the bits of the first byte that are not reserved (R622). -/
def paramFields (op : Nat) (d : List Byte) : List (Nat × Nat × Nat) :=
  match op with
  | 0x02 => [(0x10, 2, 255)]
  | 0x10 => [(0x10, 1, 255), (0x12, 6, 255)]
  | 0x11 => [(0x10, 1, 255), (0x12, 2, 255)]
  | 0x12 => [(0x10, 2, 255), (0x18, 24, 255)]
  | 0x13 => [(0x10, 1, 255), (0x11, 1, 7), (0x12, 1, 3), (0x18, 8, 255)]
  | 0x20 => [(0x10, 1, 255), (0x11, 1, 1), (0x18, 8, 255), (0x20, 10, 255), (0x2C, 8, 255)]
  | 0x21 => [(0x10, 1, 255)]
  | 0x22 => [(0x10, 1, 255), (0x12, 2, 255)]
  | 0x23 => [(0x10, 1, 255), (0x12, 2, 255)]
  | 0x24 => [(0x10, 1, 255), (0x18, 8, 255)]
  | 0x25 => [(0x10, 2, 255), (0x12, 1, 1), (0x14, 8, 255)]
      ++ (if fieldLE d 0x11 1 = 2 then [(0x1C, 2, 255), (0x20, 32, 255)] else [(0x20, 8, 255)])
  | 0x30 => [(0x10, 2, 255)]
  | 0x31 => [(0x10, 2, 255)]
  | 0x32 => [(0x11, 1, 255)]
  | 0x40 => [(0x11, 1, 255), (0x12, 1, 1), (0x13, 3, 255), (0x18, 16, 255)]
  | 0x41 => [(0x10, 4, 255)]
  | 0x42 => [(0x10, 4, 255)]
  | 0x50 => [(0x10, 10, 255)]
  | 0x51 => [(0x10, 5, 255), (0x18, 40, 255)]
  | 0x52 => [(0x10, 1, 255), (0x14, 4, 255)]
  | 0x60 => [(0x10, 1, 255), (0x18, 12, 255)]
  | 0x61 => [(0x10, 1, 255), (0x11, 1, 3), (0x18, 8, 255)]
  | 0x70 => [(0x10, 1, 3), (0x11, 4, 255), (0x18, 32, 255)]
  | 0x71 => [(0x10, 1, 255), (0x12, 12, 255), (0x20, 12, 255)]
  | _ => []

/-- Every reserved bit of the header and the parameters is 0 (R618, step 1). DEDUCED: log entry 14. -/
def reservedClear (op : Nat) (d : List Byte) : Bool :=
  decide (fieldLE d 1 1 < 8)
    && (List.range (d.length - 16)).all (fun k =>
      let o := 16 + k
      match (paramFields op d).find? (fun f => decide (f.1 ≤ o ∧ o < f.1 + f.2.1)) with
      | some f => decide (fieldLE d o 1 &&& f.2.2 = fieldLE d o 1)
      | none => decide (fieldLE d o 1 = 0))

/-- LANE_CTL by its OP (R541). DEDUCED: log entry 14. -/
def laneCommand (h : CmdHdr) (op tkind target index : Nat) (args : List Byte) : Instr :=
  match op with
  | 1 => .laneCtlSetMode h tkind target index args
  | 2 => .laneCtlUp h tkind target index args
  | 3 => .laneCtlDown h tkind target index args
  | 4 => .laneCtlSlip h tkind target index args
  | 5 => .laneCtlTest h tkind target index args
  | 6 => .laneCtlInject h tkind target index args
  | 7 => .laneCtlSetEq h tkind target index args
  | 8 => .laneCtlSetMap h tkind target index args
  | 9 => .laneCtlSetClass h tkind target index args
  | 10 => .laneCtlSetOut h tkind target index args
  | 11 => .laneCtlSetJesd h tkind target index args
  | _ => .laneCtlUp { h with clean := false } tkind target index args

/-- The command that a descriptor spells (R617, R622), its reserved bits checked over `d` whole. Bytes of BUF_WRITE follow
its 16-byte header here. An OPCODE, an OP or a KIND that R622 does not have fails step 1 of R618. DEDUCED: log entry 14. -/
def commandOf (port : Port) (d : List Byte) : Instr :=
  let op := fieldLE d 0 1
  let fl := fieldLE d 1 1
  let h : CmdHdr := { port := port, tag := BitVec.ofNat 16 (fieldLE d 2 2), unknown := none, irq := fl.testBit 0, fence := fl.testBit 1
                      interim := fl.testBit 2, clean := reservedClear op d, hostLen := fieldLE d 4 4, hostAddr := fieldLE d 8 8
                      input := [], hostErr := false }
  let f := fieldLE d
  let p := f 0x10 1
  match op with
  | 0x01 => .identify h
  | 0x02 => .query h p (f 0x11 1)
  | 0x10 => .bind h p (BitVec.ofNat 16 (f 0x12 2)) (f 0x14 2) (f 0x16 2)
  | 0x11 => .unbind h p (BitVec.ofNat 16 (f 0x12 2))
  | 0x12 => .stageImage h p (f 0x11 1) (f 0x18 8) (f 0x20 8) (f 0x28 8)
  | 0x13 => .load h p ((f 0x11 1).testBit 0) ((f 0x11 1).testBit 1)
      (if (f 0x11 1).testBit 2 then some (BitVec.ofNat 2 (f 0x12 1)) else none) (f 0x18 8)
  | 0x20 => .startAt h p ((f 0x11 1).testBit 0) (f 0x18 8)
      ⟨f 0x20 2, f 0x22 2, f 0x24 2, f 0x26 2, f 0x28 2, f 0x2C 4, f 0x30 4⟩
  | 0x21 => .pause h p
  | 0x22 => .saveState h p (f 0x12 2)
  | 0x23 => .restoreState h p (f 0x12 2)
  | 0x24 => .resume h p (f 0x18 8)
  | 0x25 =>
    if (f 0x12 1).testBit 0 then .setModeAtCancel h p
    else match f 0x11 1 with
      | 0 => .setModeAtScaleSet h p (f 0x14 2) (f 0x16 6) (f 0x20 8)
      | 1 => .setModeAtTrigger h p (f 0x14 2) (f 0x16 6) (f 0x20 8)
      | 2 => .setModeAtSeeds h p (f 0x14 2) (f 0x16 6) (f 0x1C 2) ((List.range 4).map (fun i => f (0x20 + 8 * i) 8))
      | _ => .setModeAtCancel { h with clean := false } p
  | 0x30 => .arm h p (f 0x11 1)
  | 0x31 => .disarm h p (f 0x11 1)
  | 0x32 => .forceTrigger h (f 0x11 1)
  | 0x40 => .scrub h (f 0x11 1) ((f 0x12 1).testBit 0) (f 0x13 1) (f 0x14 2) (f 0x18 8) (f 0x20 8)
  | 0x41 => .storeSettings h (f 0x10 4)
  | 0x42 => .readSettings h (f 0x10 4)
  | 0x50 => .eyeScan h (f 0x10 2) ⟨f 0x12 1, f 0x13 1, f 0x14 1, f 0x15 1, f 0x16 1, f 0x17 1, f 0x18 1, f 0x19 1⟩
  | 0x51 => laneCommand h p (f 0x11 1) (f 0x12 2) (f 0x14 1) (bytesAt d 0x18 40)
  | 0x52 => .setWakeTol h p (f 0x14 4)
  | 0x60 => .counterRead h p (f 0x18 8) (f 0x20 4)
  | 0x61 => .auditFetch h p ((f 0x11 1).testBit 0) ((f 0x11 1).testBit 1) (f 0x18 8)
  | 0x70 =>
    if p.testBit 0 then
      .mittenPair h (p.testBit 1) (f 0x11 1) (f 0x12 2) ((List.range (min 17 (f 0x14 1))).map (fun i => (f (0x18 + 2 * i) 1, f (0x19 + 2 * i) 1)))
    else .mittenPairDissolve h
  | 0x71 => .barrier h p ⟨f 0x18 6, f 0x14 4, f 0x12 2⟩ (f 0x20 8) (f 0x28 4)
  | 0xF0 => .bufWrite { h with clean := decide (fl < 8) } (d.drop 16)
  | 0xF1 => .bufRead h
  | _ => .query { h with unknown := some (BitVec.ofNat 8 op), clean := false } 0 0

/-- A short form laid out as a descriptor (R634): PBUF_LEN and PBUF_OFF stand in the places of HOST_LEN and HOST_ADDR, and
trailing zero bytes left out are 0. DEDUCED: log entry 17. -/
def shortForm (b : List Byte) : List Byte :=
  b.take 8 ++ bytesAt b 8 4 ++ zeroBytes 4 ++ b.drop 12 ++ zeroBytes (60 - b.length)

/-- A short form arrives on a port; one with no whole header is no short form, and is discarded. -/
def State.submit (s : State) (p : Port) (b : List Byte) : State :=
  if b.length < 12 then s else s.pushReady p (commandOf p (shortForm b))

/-! ### PCIe rings (R637, R638, R645) -/

/-- CTL_SQ_TAIL is written; a value at or above the ring size has no effect. -/
def State.sqTailWrite (s : State) (l tail : Nat) : State :=
  if 2 ≤ l ∨ s.sqSize l ≤ tail % 4096 then s else s.setField (aCtl (0x100C + 0x100 * l)) 11 0 tail

/-- The fetch of the descriptor at CTL_SQ_HEAD ends. -/
def State.descriptorFetched (s : State) (l : Nat) (d : List Byte) : State :=
  let a := aCtl (0x1010 + 0x100 * l)
  let hd := s.field a 11 0
  if 2 ≤ l ∨ !s.portEn (linkPort l) ∨ hd = s.field (aCtl (0x100C + 0x100 * l)) 11 0 then s
  else (s.setField a 11 0 ((hd + 1) % s.sqSize l)).pushReady (linkPort l) (commandOf (linkPort l) (bytesAt d 0 64))

/-- Held completions enter the ring while it has room. -/
def State.drainHeld (s : State) (p : Port) : Nat → State
  | 0 => s
  | fuel + 1 =>
    match (s.port p).held with
    | [] => s
    | c :: cs =>
      if s.cqFull (portLink p) then s
      else State.drainHeld ((s.putPort p { s.port p with held := cs }).cqWrite p c) p fuel

/-- CTL_CQ_HEAD is written. -/
def State.cqHeadWrite (s : State) (l v : Nat) : State :=
  if 2 ≤ l then s
  else
    let s := s.setField (aCtl (0x1030 + 0x100 * l)) 11 0 v
    s.drainHeld (linkPort l) (s.port (linkPort l)).held.length

/-- A reset of a PCIe link's port (R638). The status bits of a cleared mask are 0 (R640). -/
def State.portReset (s : State) (l : Nat) (down : Bool) : State :=
  if 2 ≤ l then s
  else
    let p := linkPort l
    let s := ([0, 4, 8, 0xC, 0x10, 0x20, 0x24, 0x28, 0x2C, 0x30].map (fun o => aCtl (0x1000 + 0x100 * l + o))).foldl
      (fun s a => s.setReg a (regReset a)) s
    let s := (s.setReg (aCtl (0x108 + 0x20 * l)) 0).setReg (aCtl (0x10C + 0x20 * l)) 0
    let s := s.putPort p { s.port p with ready := [], queued := false, held := [], phase := true, msix := [] }
    let s := { s with ops := s.ops.map (fun o => if o.port = p then { o with orphan := true } else o) }
    if !down then s
    else if l = 0 then { s with sys := { s.sys with linkA := false } } else { s with sys := { s.sys with linkB := false } }

/-- A PCIe link trains: link B only where the host link is bifurcated (R614, R641). -/
def State.pcieUp (s : State) (l : Nat) : State :=
  if l = 0 then { s with sys := { s.sys with linkA := true } }
  else if l = 1 ∧ s.sys.twoX8 then { s with sys := { s.sys with linkB := true } }
  else s

/-! ### SMBus and JTAG transfers (R635, R727, R728) -/

/-- The oldest unread completion entry of a short-form port with its data, and the state without it. -/
def State.unreadTake (s : State) (p : Port) : Option (List Byte) × State :=
  let x := s.port p
  match x.unread with
  | [] => (none, s)
  | c :: cs => (some (completionBytes p false c ++ c.extra), s.putPort p { x with unread := cs })

/-- SMBus block write with command code 0x40; a PEC mismatch discards the transfer. DEDUCED: log entry 17. -/
def State.smbusWrite (s : State) (b : List Byte) (pecOk : Bool) : State :=
  if !pecOk ∨ !s.portEn .smbus then s else s.submit .smbus b

/-- SMBus block read with command code 0x41. -/
def State.smbusRead (s : State) : State :=
  if !s.portEn .smbus then s
  else
    let (b, s) := s.unreadTake .smbus
    { s with readBytes := b.getD [] }

/-- GLIN_SUBMIT shifts 64 bytes; without the unlock it acts as BYPASS. DEDUCED: log entry 17. -/
def State.glinSubmit (s : State) (b : List Byte) : State :=
  if !s.portEn .jtag then s.tapLoad 0xFF else (s.tapLoad 0x13).submit .jtag (bytesAt b 0 64)

/-- GLIN_COMPLETE returns 256 bytes: bit 0 says that an entry is present, and the entry follows from byte 1. PRESUMED: log entry 16. -/
def State.glinComplete (s : State) : State :=
  if !s.portEn .jtag then s.tapLoad 0xFF
  else
    let (b, s) := (s.tapLoad 0x14).unreadTake .jtag
    { s with readBytes := match b with | some b => bytesAt (1#8 :: b) 0 256 | none => zeroBytes 256 }

/-! ### CONTROL messages (R601) -/

/-- Messages up to sequence number `k` are acknowledged. -/
def ctlAcked (k : Nat) (l : List (Nat × List Byte)) : List (Nat × List Byte) :=
  if l.any (fun e => decide (e.1 = k)) then (l.dropWhile (fun e => decide (e.1 ≠ k))).drop 1 else l

/-- A message that arrived on link `n` comes from the master. -/
def State.fromMaster (s : State) (n : Nat) : Bool :=
  decide (s.field (aLink n 0) 11 0 = s.master)
    || (s.flag (aWyl 0 (0x20000 + 4 * s.master)) 31 && decide (s.field (aWyl 0 (0x20000 + 4 * s.master)) 4 0 = n))

/-- A CONTROL message is delivered: it acknowledges, and in order it brings one short form. DEDUCED: log entry 18. -/
def State.controlMsg (s : State) (d i : Nat) : State :=
  match s.svcTake (linkNo d i) 2 with
  | none => s
  | some (m, s) =>
    if !s.flag (aWyl 0 4) 31 ∨ !s.fromMaster (linkNo d i) then s.badMsg
    else
      let k := s.wyl.ctl
      let s := { s with wyl := { s.wyl with ctl := { k with unacked := ctlAcked (fieldLE m.body 2 2) k.unacked } } }
      if (fieldLE m.body 4 1).testBit 0 then s
      else
        let q := fieldLE m.body 0 2
        let next := (s.ctlAck + 1) % 2 ^ 16
        let s : State := if q = next then
            State.submit { s with wyl := { s.wyl with ctl := { s.wyl.ctl with accepted := some q } } } .wyile
              (m.body.drop 8)
          else s
        if q = next ∨ (k.accepted.isSome ∧ (next + 2 ^ 16 - 1 - q) % 2 ^ 16 < 2 ^ 15) then s.ctlPut (ctlHead s.wyl.ctl.nextSeq s.ctlAck true) else s

/-- Unacknowledged messages are sent again. DEDUCED: log entry 18. -/
def State.controlResend (s : State) (d i : Nat) : State :=
  if s.ctlLink = some (linkNo d i) ∧ s.flag (aWyl 0 4) 31 then s.wyl.ctl.unacked.foldl (fun s e => s.ctlPut e.2) s else s

/-! ### Meanings -/

def execCtlSqTailWrite (link tail : Nat) (s : State) : Host.Outcome State Fault Refusal :=
  .next (s.only (.ctlSqTailWrite link tail) (s.sqTailWrite link tail))
def execDescriptorFetch (link : Nat) (desc : List Byte) (s : State) : Host.Outcome State Fault Refusal :=
  .next (s.only (.descriptorFetch link desc) (s.descriptorFetched link desc))
def execCtlCqHeadWrite (link head : Nat) (s : State) : Host.Outcome State Fault Refusal :=
  .next (s.only (.ctlCqHeadWrite link head) (s.cqHeadWrite link head))
def execPortReset (link : Nat) (linkDown : Bool) (s : State) : Host.Outcome State Fault Refusal :=
  .next (s.only (.portReset link linkDown) (s.portReset link linkDown))
def execPcieLinkUp (link : Nat) (s : State) : Host.Outcome State Fault Refusal :=
  .next (s.only (.pcieLinkUp link) (s.pcieUp link))
def execSmbusBlockWrite (bytes : List Byte) (pecOk : Bool) (s : State) : Host.Outcome State Fault Refusal :=
  .next (s.only (.smbusBlockWrite bytes pecOk) (s.smbusWrite bytes pecOk))
def execSmbusBlockRead (s : State) : Host.Outcome State Fault Refusal := .next s.smbusRead
def execGlinSubmit (bytes : List Byte) (s : State) : Host.Outcome State Fault Refusal :=
  .next (s.only (.glinSubmit bytes) (s.glinSubmit bytes))
def execGlinComplete (s : State) : Host.Outcome State Fault Refusal := .next s.glinComplete
def execControl (die link : Nat) (s : State) : Host.Outcome State Fault Refusal :=
  .next (s.only (.control die link) (s.controlMsg die link))
def execControlResend (die link : Nat) (s : State) : Host.Outcome State Fault Refusal :=
  .next (s.only (.controlResend die link) (s.controlResend die link))

end Sys2Proof.Machine
end

