-- ==== Sys2Proof/Machine/RegWrite.lean ====
section
/-! DEFINITION. Register accesses (R9 to R14, R702): writes under the access codes and with the behaviour that their rules
give, reads that clear, and reads of a LO register that latch HI. -/

namespace Sys2Proof.Machine

/-- PCIe link of an agent. -/
def agentLink : Agent → Option Nat
  | .pcieA => some 0
  | .pcieB => some 1
  | _ => none

/-- Register blocks that a Brim core may access (R653): LAN, OPT, TIM, CNT, BRM and the TDC calibration words of CAP. DEDUCED: log entry 52. -/
def brimBlock (o : Nat) : Bool :=
  decide ((0x1000000 ≤ o ∧ o < 0x1800000) ∨ (0x300000 ≤ o ∧ o < 0x500000) ∨ (0x40000 ≤ o ∧ o < 0x50000)
    ∨ (0x801000 ≤ o ∧ o < 0x801400))

/-- The agent's access reaches the register (R653). DEDUCED: log entry 52. -/
def agentMay (g : Agent) (a : Nat) : Bool := decide (g ≠ .brim) || brimBlock (addrOff a)

/-! ### The access codes (R11) -/

/-- Rank of an agent among the writes of one cycle: Brim, PCIe A, PCIe B, Crown (R702). -/
def agentRank : Agent → Nat
  | .brim => 1
  | .pcieA => 2
  | .pcieB => 3
  | .crown => 4

/-- What a register holds after a write of `v` under its row's access codes; where a later agent has written it in the same cycle,
only the W1C bits of the write count (R702). -/
def writeUnder (r : RegRow) (crown later : Bool) (old v : Word) : Word :=
  let m := BitVec.ofNat 32 (if later then 0 else if crown then r.rw ||| r.lk else r.rw)
  ((old &&& ~~~m) ||| (v &&& m)) &&& ~~~(v &&& BitVec.ofNat 32 r.w1c)

/-- A first record whose VALID a write has just cleared takes the first happening of its cycle (R12). -/
def State.recordAgain (s : State) (a : Nat) (v : Word) : State :=
  let e := s.regCycle a
  if e.order.isSome && v.toNat.testBit 31 && !e.base.toNat.testBit 31 then s.putRecord a e.fresh e.along else s

/-- Write a register that has no behaviour of its own. What hardware sets in the cycle stays set, and a first record takes the
happenings of the cycle, whichever came first (R12); the writes of several agents stand in the order of R702. DEDUCED: log entry 46. -/
def State.regStore (s : State) (g : Agent) (a : Nat) (v : Word) : State :=
  match regRow a with
  | none => s
  | some r =>
    let e := s.regCycle a
    let later := decide (agentRank g < e.agent)
    let w := writeUnder r (decide (g = .crown)) later (s.reg a) v
    let keep := e.fresh &&& v &&& BitVec.ofNat 32 r.w1c
    let s := (s.setReg a (w ||| keep)).putCycle a
      { e with base := writeUnder r (decide (g = .crown)) later e.base v, agent := max e.agent (agentRank g) }
    if r.w1c.testBit 31 then s.recordAgain a v else s

/-- Largest count since the last read (R249): a read leaves the present count of operations in flight. -/
def State.peakAgain (s : State) (a : Nat) : State :=
  if addrOff a = 0x600010 then
    s.setField a 31 16 (max (s.field a 31 16) (min 65535 (if addrDie a = 0 then s.seq.ops0 else s.seq.ops1)))
  else s

/-- Clear the RC fields of a register that has been read, but for what this cycle has set in them (R12). -/
def State.regClear (s : State) (a : Nat) : State :=
  match regRow a with
  | none => s
  | some r => if r.rc = 0 then s else (s.clearBits a (BitVec.ofNat 32 r.rc)).peakAgain a

/-! ### Reads of LO registers -/

/-- SEQ_CYCLE_LO (R248). -/
def State.seqCycleLo (s : State) (d : Nat) : State :=
  if 2 ≤ d then s.readOut 0 else s.latchRead (aSeq d 8) (aSeq d 0xC) (s.cycle d) (s.cycle d / 2 ^ 32)

/-- GAU_LYR_TRIP_LO, GAU_LYR_OVER_LO, GAU_LYR_LAST_LO of layer slot `l` (R141). -/
def State.gauLyrLo (s : State) (d l k : Nat) : State :=
  if 2 ≤ d ∨ 64 ≤ l ∨ 3 ≤ k then s.readOut 0
  else
    let v := s.layerCount (64 * d + l) k
    let a := aGau d (0x10008 + 0x20 * l + 8 * k)
    s.latchRead a (a + 4) v (v / 2 ^ 32)

/-- SEQ_PART_BND_LO (R330). -/
def State.partBndLo (s : State) (p : Nat) : State :=
  if 16 ≤ p then s.readOut 0 else s.latchRead (aSeq 0 (0x408 + 0x10 * p)) (aSeq 0 (0x40C + 0x10 * p)) (s.bndLo p) (s.bndHi p)

/-- CAP_STRM_SEQ_LO (R463): HI takes the upper half. -/
def State.strmSeqLo (s : State) (d st : Nat) : State :=
  if 2 ≤ d ∨ 16384 ≤ st then s.readOut 0
  else if s.silent (aStrm d st 0) then s.readOut 0
  else
    let v := s.nextSeq d st
    ({ s with cap := { s.cap with seqHi := mapPut s.cap.seqHi (16384 * d + st) (v / 2 ^ 32) 0 } }).readOut v

/-- MEM_ERR_ADDR_LO (R506). -/
def State.memErrAddrLo (s : State) (d k : Nat) : State :=
  if 2 ≤ d ∨ 2 ≤ k then s.readOut 0
  else
    let v := mapGetD s.flt.errAddr (2 * d + k) 0
    s.latchRead (aMem d (0x100 * k + 0x10)) (aMem d (0x100 * k + 0x14)) v (v / 2 ^ 32)

/-- TIM_SRV_OFF_LO (R575). -/
def State.srvOffLo (s : State) (t : Nat) : State :=
  if 4 ≤ t then s.readOut 0 else s.latchRead (aTb t 0x34) (aTb t 0x38) (s.tb t).off.toNat ((s.tb t).off.toNat / 2 ^ 32)

/-- TIM_PPS_TAU_LO (R576). -/
def State.ppsTauLo (s : State) : State :=
  let v := s.tim.ppsTau.getD 0
  s.latchRead (aTim 0x20010) (aTim 0x20014) v (v / 2 ^ 32)

/-- NVS_SEQ_LO (R672). -/
def State.nvsSeqLo (s : State) (d : Nat) : State :=
  if 2 ≤ d then s.readOut 0 else s.latchRead (aNvs d 4) (aNvs d 8) s.sys.seq (s.sys.seq / 2 ^ 32)

/-- LO halves at single offsets or in the layer table: the latched values they read (R12). -/
def State.loFixed (s : State) (d o : Nat) : Option State :=
  if o = 0x600008 then some (s.seqCycleLo d)
  else if 0x790008 ≤ o ∧ o < 0x790800 ∧ o % 8 = 0 ∧ o % 32 ≠ 0 then some (s.gauLyrLo d ((o - 0x790000) / 32) (o % 32 / 8 - 1))
  else if o = 0x20004 then some (s.nvsSeqLo d)
  else if o = 0x420010 ∧ d = 0 then some s.ppsTauLo
  else none

/-- LO halves of the counters, the checksums, the memory controllers and the streams of a die. -/
def State.loElem (s : State) (d o : Nat) : Option State :=
  match elemAt o 0x301004 0x10 64 0, elemAt o 0x20002C 0x40 4 0, elemAt o 0xC00010 0x100 2 0, elemAt o 0xA00000 0x10 16384 0 with
  | some n, _, _, _ => some (s.cntValLoRead d n)
  | _, some u, _, _ => some (s.chkResLoRead d u)
  | _, _, some k, _ => some (s.memErrAddrLo d k)
  | _, _, _, some st => some (s.strmSeqLo d st)
  | none, none, none, none =>
    if 0x303004 ≤ o ∧ o < 0x303400 ∧ o % 0x100 < 0x80 ∧ o % 16 = 4 then
      some (s.cntValLoRead d (64 + 8 * ((o - 0x303000) / 0x100) + o % 0x100 / 16))
    else none

/-- LO halves of the lane test counters, `n` lanes of `0x1000` bytes from `b`, the first being lane `l`. -/
def State.loLane (s : State) (b n l o : Nat) : Option State :=
  match elemAt o (b + 0x44) 0x1000 n 0, elemAt o (b + 0x4C) 0x1000 n 0 with
  | some k, _ => some (s.prbsRead (l + k) false (2 ^ 48))
  | none, some k => some (s.prbsRead (l + k) true (2 ^ 48))
  | none, none => none

/-- LO halves of the package's own registers, all on die 0. -/
def State.loPkg (s : State) (o : Nat) : Option State :=
  match elemAt o 0x600408 0x10 16 0, elemAt o 0x410034 0x100 4 0, elemAt o 0x210004 0x10 16 0 with
  | some p, _, _ => some (s.partBndLo p)
  | _, some t, _ => some (s.srvOffLo t)
  | _, _, some p => some (s.chkAudBatchLoRead p)
  | none, none, none => none

/-- A read of the LO register at die offset `o` of die `d`, where there is one. The count that a checker of a lane has
reached comes only with LAN_PRBS_LO_READ: another read of a counting checker answers a free value. -/
def State.loRead (s : State) (d o : Nat) : Option State :=
  match s.loFixed d o, s.loElem d o with
  | some t, _ => some t
  | none, some t => some t
  | none, none =>
    if 0x1000000 ≤ o ∧ o < 0x1010000 then s.loLane 0x1000000 16 (16 * d) o
    else if 0x1410000 ≤ o ∧ o < 0x1450000 then s.loLane 0x1410000 64 (32 + 64 * d) o
    else if d = 0 then s.loPkg o
    else none

/-! ### Writes with behaviour of their own -/

/-- FLT_LOG_POP (R504). -/
def State.fltPop (s : State) (d : Nat) : State :=
  { s with flt := { s.flt with logs := mapPut s.flt.logs d ((mapGetD s.flt.logs d []).drop 1) [] } }

/-- GAU_CTR_CLR[CLR_TRIP] and GAU_CTR_CLR[CLR_OVER] (R139): every slot of the die. -/
def State.clrLayers (s : State) (d : Nat) (trip overs : Bool) : State :=
  { s with gau := { s.gau with layers := s.gau.layers.map (fun (e : Nat × Layer) =>
      if e.1 / 64 = d then
        (e.1, { e.2 with trip := if trip then 0 else e.2.trip, overs := if overs then 0 else e.2.overs })
      else e) } }

/-- The buckets of a die are held against their thresholds (R488): a level above sets BKT_OVF again, and interrupts. DEDUCED: log entry 50. -/
def State.bucketsCheck (s : State) (d : Nat) : State := (List.range 5).foldl (fun (s : State) k => s.bucketAdd d k 0) s

/-- A write that R415 ignores. -/
def State.mapIgnored (s : State) (d : Nat) : State := s.setFlag (aCap d 0) 31 true

/-- Field entry `f` of die `d` serves a stream in use (R411, R415). -/
def State.fieldInUse (s : State) (d f : Nat) : Bool :=
  (s.validStreams d).any (fun st => s.streamInUse st
    && decide (s.field (aSmap d st 0) 11 0 ≤ f ∧ f ≤ s.field (aSmap d st 0) 11 0 + s.field (aSmap d st 0) 17 14))

/-- CAP_STRM_SEQ_LO is written: both halves stand (R463), unless the stream is in use (R415). -/
def State.strmSeqLoWrite (s : State) (d st : Nat) (v : Word) : State :=
  if 2 ≤ d ∨ 16384 ≤ st then s
  else if s.streamInUse st then s.mapIgnored d
  else s.setSeq d st (v.toNat + 2 ^ 32 * mapGetD s.cap.seqHi (16384 * d + st) 0)

/-- CAP_STRM_SEQ_HI is written: it waits for LO. -/
def State.strmSeqHiWrite (s : State) (d st : Nat) (v : Word) : State :=
  if s.streamInUse st then s.mapIgnored d
  else { s with cap := { s.cap with seqHi := mapPut s.cap.seqHi (16384 * d + st) (v.toNat % 65536) 0 } }

/-- CTL registers (R640, R643 to R645). -/
def State.ctlWrite (s : State) (g : Agent) (o : Nat) (v : Word) : State :=
  let st := s.regStore g o v
  if o = 4 then
    let keep := fun (s : State) hi lo => if getBits v hi lo = 3 then s else s.setField (aCtl 4) hi lo (getBits v hi lo)
    keep (keep s 1 0) 3 2
  else
    match elemAt o 0x100 0x20 5 8, elemAt o 0x100 0x20 5 0xC with
    | some p, _ =>
      if p = 2 then { st with wyl := { st.wyl with ctl := { st.wyl.ctl with told := st.wyl.ctl.told &&& ~~~v } } } else st
    | none, some p => st.setReg (aCtl (0x108 + 0x20 * p)) (st.reg (aCtl (0x108 + 0x20 * p)) &&& st.reg o)
    | none, none =>
      if 0x1000 ≤ o ∧ o < 0x1200 then
        let q := (o - 0x1000) / 0x100
        let p := linkPort q
        if o % 0x100 = 0xC then s.sqTailWrite q v.toNat
        else if o % 0x100 = 0x30 then s.cqHeadWrite q v.toNat
        else if (s.port p).ready.isEmpty && (s.portOps p).isEmpty then st else s
      else st

/-- FLT registers (R488, R501, R504). DEDUCED: log entry 50. -/
def State.fltWrite (s : State) (g : Agent) (d a o : Nat) (v : Word) : State :=
  if o = 0x210 then (if v.toNat.testBit 0 then s.fltPop d else s) else (s.regStore g a v).bucketsCheck d

/-- CNT registers (R678 to R680, R684); `link` is the PCIe link of the access. -/
def State.cntWrite (s : State) (g : Agent) (d a o : Nat) (v : Word) : State :=
  let on := v.toNat.testBit 0
  if o = 0 then (let st := s.regStore g a v; if on then st.cntSnap d else st)
  else if o = 0x40 then (if on then s.cntSmpPop d else s)
  else if 0x10000 ≤ o then
    (match agentLink g with
      | some l => if on && decide (o % 0x1000 = 0) then s.cntUpSnap l d ((o - 0x10000) / 0x1000) else s
      | none => s)
  else
    match elemAt o 0x1000 0x10 64 4 with
    | some n => s.cntValLoWrite d n v
    | none =>
      if 0x3000 ≤ o ∧ o < 0x3400 ∧ o % 0x100 < 0x80 ∧ o % 16 = 4 then
        s.cntValLoWrite d (64 + 8 * ((o - 0x3000) / 0x100) + o % 0x100 / 16) v
      else s.regStore g a v

/-- CHK registers (R688 to R690, R695). -/
def State.chkWrite (s : State) (g : Agent) (d a o : Nat) (v : Word) : State :=
  match elemAt o 0 0x40 4 0x24, elemAt o 0 0x40 4 0x28 with
  | some u, _ => s.chkData d u v
  | none, some u =>
    let s := if v.toNat.testBit 0 then s.chkStart d u else s
    if v.toNat.testBit 1 then s.chkFinish d u else s
  | none, none => s.regStore g a v

/-- TIM registers of die 0 (R553, R555, R556, R565, R574, R576). -/
def State.timWrite (s : State) (g : Agent) (a o : Nat) (v : Word) : State :=
  let op := v.toNat % 4
  if o = 0 then (if v.toNat.testBit 0 then s.timSnap else s)
  else if o = 0x20008 then (if v.toNat.testBit 31 then s.tdcCalStart 8 else s)
  else if o = 0x3000C then
    (if op = 1 ∨ op = 2 then { s with tim := { s.tim with g1Load := op } } else s)
  else
    match elemAt o 0x10000 0x100 4 0, elemAt o 0x10000 0x100 4 8, elemAt o 0x10000 0x100 4 0x18 with
    | some t, _, _ => s.tbCfgWrite t v
    | _, some t, _ => s.manadjWrite t v
    | _, _, some t => if op = 1 then s.tbSet t else if op = 2 then s.tbStep t else if op = 3 then s.tbSetOnPps t else s
    | none, none, none => s.regStore g a v

/-- CAP registers (R415, R416, R437, R463, R464). -/
def State.capWrite (s : State) (g : Agent) (d a o : Nat) (v : Word) : State :=
  if 0x100000 ≤ o ∧ o < 0x140000 then
    let st := (o - 0x100000) / 16
    if s.streamInUse st then s.mapIgnored d
    else
      let was := s.smapValid d st
      let s := s.regStore g a v
      if o % 16 = 0 ∧ s.smapValid d st = true ∧ was = false then s.setSeq d st 0 else s
  else if 0x140000 ≤ o ∧ o < 0x148000 then
    (if s.fieldInUse d ((o - 0x140000) / 8) then s.mapIgnored d else s.regStore g a v)
  else
    match elemAt o 0x200000 0x10 16384 0, elemAt o 0x200000 0x10 16384 4, elemAt o 0x100 0x10 4 0 with
    | some st, _, _ => s.strmSeqLoWrite d st v
    | _, some st, _ => s.strmSeqHiWrite d st v
    | _, _, some n => if v.toNat.testBit 31 then s.tdcCalStart (4 * d + n) else s
    | none, none, none => s.regStore g a v

/-- WYL registers (R607). -/
def State.wylWrite (s : State) (g : Agent) (d a o : Nat) (v : Word) : State :=
  if o = 0 then s.wylPkgWrite v
  else
    match elemAt o 0x100 0x40 16 0, elemAt o 0x100 0x40 16 4 with
    | some i, _ => s.wylCfgWrite (linkNo d i) v
    | none, some i => s.wylLatWrite (linkNo d i) v
    | none, none => s.regStore g a v

/-- A write of a register that stands at BAR0 offset `a`. -/
def State.regWrite (s : State) (g : Agent) (a : Nat) (v : Word) : State :=
  let d := addrDie a
  let o := addrOff a
  if o < 0x10000 then s.ctlWrite g a v
  else if 0x100000 ≤ o ∧ o < 0x200000 then s.fltWrite g d a (o - 0x100000) v
  else if 0x200000 ≤ o ∧ o < 0x300000 then s.chkWrite g d a (o - 0x200000) v
  else if 0x300000 ≤ o ∧ o < 0x400000 then s.cntWrite g d a (o - 0x300000) v
  else if 0x400000 ≤ o ∧ o < 0x500000 then s.timWrite g a (o - 0x400000) v
  else if o = 0x500000 then (if s.flag (aMit 0) 31 then s.regStore g a v else s)
  else if o = 0x780040 then s.clrLayers d (v.toNat.testBit 0) (v.toNat.testBit 1)
  else if 0x800000 ≤ o ∧ o < 0xC00000 then s.capWrite g d a (o - 0x800000) v
  else if 0x1800000 ≤ o ∧ o < 0x2000000 then s.wylWrite g d a (o - 0x1800000) v
  else s.regStore g a v

/-- A write by an agent: where no register stands, or the Brim may not write, it has no effect (R47, R653, R700). DEDUCED: log entry 52. -/
def State.agentWrite (s : State) (g : Agent) (a : Nat) (v : Word) : State :=
  if (regRow a).isSome && agentMay g a then s.regWrite g a v else s

/-! ### Meanings -/

/-- REGISTER_WRITE: an access that is not a 4-byte-aligned 32-bit one is ignored (R10). DEDUCED: log entry 6. -/
def execRegisterWrite (agent : Agent) (addr : Nat) (value : Word) (aligned : Bool) (s : State) : Host.Outcome State Fault Refusal :=
  if 2 ^ 28 ≤ addr then .fault .outsideSpace
  else .next (if aligned then s.agentWrite agent addr value else s)
/-- SEQ_CYCLE_LO_READ. -/
def execSeqCycleLoRead (die : Nat) (s : State) : Host.Outcome State Fault Refusal :=
  .next (s.only (.seqCycleLoRead die) (s.seqCycleLo die))
/-- GAU_LYR_LO_READ. -/
def execGauLyrLoRead (die layer which : Nat) (s : State) : Host.Outcome State Fault Refusal :=
  .next (s.only (.gauLyrLoRead die layer which) (s.gauLyrLo die layer which))
/-- SEQ_PART_BND_LO_READ. -/
def execSeqPartBndLoRead (part : Nat) (s : State) : Host.Outcome State Fault Refusal :=
  .next (s.only (.seqPartBndLoRead part) (s.partBndLo part))
/-- CAP_STRM_SEQ_LO_READ. -/
def execCapStrmSeqLoRead (die stream : Nat) (s : State) : Host.Outcome State Fault Refusal :=
  .next (s.only (.capStrmSeqLoRead die stream) (s.strmSeqLo die stream))
/-- CAP_STRM_SEQ_LO_WRITE. -/
def execCapStrmSeqLoWrite (die stream : Nat) (value : Word) (s : State) : Host.Outcome State Fault Refusal :=
  .next (s.only (.capStrmSeqLoWrite die stream value) (s.strmSeqLoWrite die stream value))
/-- MEM_ERR_ADDR_LO_READ. -/
def execMemErrAddrLoRead (die ctrl : Nat) (s : State) : Host.Outcome State Fault Refusal :=
  .next (s.only (.memErrAddrLoRead die ctrl) (s.memErrAddrLo die ctrl))
/-- TIM_SRV_OFF_LO_READ. -/
def execTimSrvOffLoRead (tb : Nat) (s : State) : Host.Outcome State Fault Refusal :=
  .next (s.only (.timSrvOffLoRead tb) (s.srvOffLo tb))
/-- TIM_PPS_TAU_LO_READ. -/
def execTimPpsTauLoRead (s : State) : Host.Outcome State Fault Refusal := .next s.ppsTauLo
/-- NVS_SEQ_LO_READ. -/
def execNvsSeqLoRead (die : Nat) (s : State) : Host.Outcome State Fault Refusal :=
  .next (s.only (.nvsSeqLoRead die) (s.nvsSeqLo die))
/-- CLR_TRIP. -/
def execClrTrip (die : Nat) (s : State) : Host.Outcome State Fault Refusal :=
  .next (s.only (.clrTrip die) (s.clrLayers die true false))
/-- CLR_OVER. -/
def execClrOver (die : Nat) (s : State) : Host.Outcome State Fault Refusal :=
  .next (s.only (.clrOver die) (s.clrLayers die false true))
/-- FLT_LOG_POP. -/
def execFltLogPop (die : Nat) (s : State) : Host.Outcome State Fault Refusal :=
  .next (s.only (.fltLogPop die) (s.fltPop die))

end Sys2Proof.Machine
end

