-- ==== Sys2Proof/Machine/Bars.lean ====
section
/-! DEFINITION. BAR0 reads, with the SRAM debug aperture (R698 to R706), and host access to stacked memory through BAR2
(R471, R474, R482, R668, R707 to R710). -/

namespace Sys2Proof.Machine

/-! ### The aperture (R703 to R706) -/

/-- The local region that the aperture of die `d` shows to link `l`, as a physical region (R704, R705). -/
def State.apertureRegion (s : State) (l d : Nat) : Option Nat :=
  let a := dieBase d + 0x7FFF000
  let r := 8 * d + s.field a 2 0
  let may := match s.regionPart r with
    | none => true
    | some p => decide ((s.part p).owner = some (linkPort l))
  if s.flag a 31 && !s.isFused r && may then some r else none

/-- An aperture read meets a mismatch: logged, with a repair queued for a read-only row (R706). -/
def State.apertureBad (s : State) (kind key u : Nat) (writable : Bool) : State :=
  let d := rowDie kind key
  let p := match rowRegion kind key with | some r => s.regionPart r | none => none
  if writable then s.fault d ⟨4, .taint, p, u, false, rowDetail kind key, 0, 0⟩
  else s.roFault d 1 kind key (rowDetail kind key) u p 0

/-- The word at aperture offset `o` of region `r` (R703), and whether it reads with a parity mismatch. UNVERIFIED: log entry 39. DEDUCED: log entry 54.
UNVERIFIED: log entry 102. -/
def State.apertureWord (s : State) (r o : Nat) : State × Nat × Bool :=
  if o < 0x2000000 then
    let k := 64 * r + o / 0x80000
    if s.rowHeld k (o % 0x80000 / 32) then
      (let (n, s) := s.nextFree
       (s, bitsOf (Config.holdRow n).toNat (8 * (o % 32) + 31) (8 * (o % 32)), false))
    else
    let (b, bad) := s.sramRead k (o % 0x80000) 4
    let key := 2 ^ 14 * k + o % 0x80000 / 32
    (if bad then s.apertureBad 0 key (rowUnit 0 key) (s.rowWritable k (o % 0x80000 / 32)) else s, leNat b, bad)
  else if o < 0x2800000 then
    let k := 64 * r + (o - 0x2000000) / 0x20000
    let act := match s.regionPart r with | some p => (s.part p).gen % 2 | none => 0
    let e := o % 0x10000 / 16
    let key := 8192 * k + 4096 * (if o % 0x20000 < 0x10000 then act else 1 - act) + e
    let bad := mapGetD s.flt.rescaleBad key false
    (if bad then s.apertureBad 1 key Config.noUnit.toNat false else s,
      bitsOf (mapGetD s.lat.rescale key 0).toNat (8 * (o % 16) + 31) (8 * (o % 16)), bad)
  else if o < 0x3800000 then
    if o % 0x40000 / 0x2000 < 20 then
      let (n, s) := s.nextFree
      (s, (Config.poolWord n).toNat, false)
    else (s, 0, false)
  else if o < 0x3C00000 then
    (s, (mapGetD s.lat.sideCol (2 ^ 14 * (64 * r + (o - 0x3800000) / 0x10000) + o % 0x10000 / 4) 0).toNat, false)
  else (s, 0, false)

/-- The answer to an aperture read: the word, poisoned where a row it lies in has an error. -/
def apertureOut (x : State × Nat × Bool) : State :=
  let t := x.1.readOut x.2.1
  { t with readEnd := if x.2.2 then .poisoned else t.readEnd }

/-- A word of the aperture read through link `l` at BAR0 offset `a`. DEDUCED: log entry 54. -/
def State.apertureRead (s : State) (l a : Nat) : State :=
  match s.apertureRegion l (addrDie a) with
  | none => s.readOut 0
  | some r =>
    apertureOut (s.apertureWord r (addrOff a - 0x4000000))

/-! ### BAR0 reads (R10 to R12, R700) -/

/-- A 32-bit aligned read of BAR0 offset `a` by an agent: the value held before this cycle answers (R12, R702), RC fields
clear, LO registers latch. DEDUCED: log entry 6. -/
def State.barRead (s : State) (g : Agent) (a : Nat) : State :=
  if !agentMay g a || s.silent a then s.readOut 0
  else if 0x4000000 ≤ addrOff a ∧ addrOff a < 0x7FFF000 then
    (match agentLink g with | some l => s.apertureRead l a | none => s.readOut 0)
  else
    match s.loRead (addrDie a) (addrOff a) with
    | some t => t
    | none => (s.regClear a).readOut ((s.readState a).peekWord (agentLink g) a)

/-! ### BAR2 (R707 to R710) -/

/-- Package memory address of a BAR2 offset (R708). -/
def State.bar2Addr (s : State) (l o : Nat) : Nat := 2 ^ 36 * s.field (aCtl 4) (2 * l + 1) (2 * l) + o

/-- Byte `b` of every stack may be reached through link `l` (R709). DEDUCED: log entry 54. -/
def State.bar2May (s : State) (l b : Nat) : Bool :=
  let u := b / 2 ^ 26
  let parts := s.parts.filter (fun e => decide (e.2.allocBase ≤ u ∧ u < e.2.allocBase + e.2.allocSize))
  let rings := s.cap.groups.filter (fun e => e.2.armed && decide (e.2.ringBase ≤ u ∧ u < e.2.ringBase + e.2.ringSize))
  let own := fun (p : Nat) => decide ((s.part p).owner = some (linkPort l))
  parts.any (fun e => own e.1) || rings.any (fun e => own e.2.part) || (parts.isEmpty && rings.isEmpty)

/-- The stacked memory answers BAR2: both fills are done (R471, R472), and the package is awake (R668). -/
def State.bar2Open (s : State) : Bool := s.flag (aFlt 0 4) 30 && s.flag (aFlt 1 4) 30 && decide (s.pkgState = 0)

/-- Unit `u` of stack `k` has a detected error standing (R483). -/
def State.unitBad (s : State) (k u : Nat) : Bool :=
  match mapGet s.flt.memBad (2 ^ 31 * k + u) with | some e => decide (e ≠ MemErr.corrected) | none => false

/-- A read of a unit that has a detected error standing logs PARITY_RW, with no partition, and is counted and logged as
R483 says; the second result says that it has one. -/
def State.bar2Unit (s : State) (k u : Nat) : State × Bool :=
  let bad := s.unitBad k u
  let t : State := if bad then s.fault (k / 2) ⟨4, .taint, none, Config.noUnit.toNat, false, u % 2 ^ 32, 0, 0⟩ else s
  ((t.unitRead false k (32 * u) none).1, bad)

/-- The units that a read of `n` bytes meets with an error standing (R482). -/
def State.bar2Errors (s : State) (k b n : Nat) : State × Bool :=
  (s.badUnits k b n).foldl (fun (a : State × Bool) u => ((a.1.bar2Unit k u).1, a.2 || (a.1.bar2Unit k u).2)) (s, false)

/-- A BAR2 read of `n` bytes. -/
def State.bar2Read (s : State) (k b n : Nat) : State :=
  let data := s.stackRead k b n
  let (s, bad) := (s.bestEffort k b n).bar2Errors k b n
  { s with readBytes := data, readEnd := if bad then .poisoned else .ok }

/-- Runs of consecutive bytes of `bs` from `b` that lie in no staged image (R305, R474), as pieces to write. -/
def State.bar2Pieces (s : State) (b : Nat) : List Byte → List (Nat × List Byte)
  | [] => []
  | x :: xs =>
    let rest := s.bar2Pieces (b + 1) xs
    if s.inStaged b then rest
    else match rest with
      | (c, ys) :: more => if c = b + 1 then (b, x :: ys) :: more else (b, [x]) :: rest
      | [] => [(b, [x])]

/-- A BAR2 write. -/
def State.bar2Write (s : State) (k b : Nat) (bs : List Byte) : State :=
  (s.bar2Pieces b bs).foldl (fun (s : State) e => (s.stackWrite k e.1 e.2).bestEffort k e.1 e.2.length) s

/-- A read that is not performed completes with Unsupported Request. -/
def State.bar2None (s : State) (write : Bool) : State :=
  if write then s else { s with readBytes := [], readEnd := .unsupported }

/-- A host access of `n` bytes through BAR2 of link `l` at offset `o`. -/
def State.bar2 (s : State) (l o : Nat) (w : Option (List Byte)) (n : Nat) : State :=
  let a := s.bar2Addr l o
  let k := a / stackBytes
  let b := a % stackBytes
  let s := if s.pkgState = 0 then s else s.wakePkg
  let n := match w with | some bs => bs.length | none => n
  if !s.bar2Open || decide (stackBytes < b + n) || !s.bar2May l b || !s.bar2May l (b + (n - 1)) then s.bar2None w.isSome
  else match w with
    | some bs => s.bar2Write k b bs
    | none => s.bar2Read k b n

/-! ### Meanings -/

/-- RC_READ: a read that is not an aligned 32-bit one answers 0 and clears nothing (R10). -/
def execRcRead (agent : Agent) (addr : Nat) (aligned : Bool) (s : State) : Host.Outcome State Fault Refusal :=
  if 2 ^ 28 ≤ addr then .fault .outsideSpace
  else .next (if aligned && decide (addr % 4 = 0) then s.barRead agent addr else s.readOut 0)
/-- APERTURE_READ. -/
def execApertureRead (link addr : Nat) (s : State) : Host.Outcome State Fault Refusal :=
  if 2 ^ 28 ≤ addr ∨ 2 ≤ link then .fault .outsideSpace
  else .next (if addr % 4 = 0 then s.barRead (if link = 0 then .pcieA else .pcieB) addr else s.readOut 0)
/-- BAR2_ACCESS. DEDUCED: log entry 6. -/
def execBar2Access (link offset : Nat) (write : Option (List Byte)) (len : Nat) (s : State) : Host.Outcome State Fault Refusal :=
  if 2 ≤ link ∨ 2 ^ 36 < offset + (match write with | some bs => bs.length | none => len) then .fault .outsideSpace
  else .next (s.bar2 link offset write len)

end Sys2Proof.Machine
end

