-- ==== Sys2Proof/Machine/Dispatch.lean ====
section
/-! DEFINITION. One arm per command: a direct call of its meaning. -/

namespace Sys2Proof.Machine

/-- The effect of a command on everything but the queue. -/
def exec (i : Instr) (s : State) : Host.Outcome State Fault Refusal :=
  match i with
  | .identify h => Sys2Proof.Machine.execIdentify h s
  | .query h sel part => Sys2Proof.Machine.execQuery h sel part s
  | .bind h part regions base size => Sys2Proof.Machine.execBind h part regions base size s
  | .unbind h part regions => Sys2Proof.Machine.execUnbind h part regions s
  | .stageImage h part srcKind dst imgLen chunkOff => Sys2Proof.Machine.execStageImage h part srcKind dst imgLen chunkOff s
  | .load h part relaxed flush epoch img => Sys2Proof.Machine.execLoad h part relaxed flush epoch img s
  | .startAt h part align t deep => Sys2Proof.Machine.execStartAt h part align t deep s
  | .pause h part => Sys2Proof.Machine.execPause h part s
  | .saveState h part base => Sys2Proof.Machine.execSaveState h part base s
  | .restoreState h part base => Sys2Proof.Machine.execRestoreState h part base s
  | .resume h part t => Sys2Proof.Machine.execResume h part t s
  | .setModeAtScaleSet h part stream n settings => Sys2Proof.Machine.execSetModeAtScaleSet h part stream n settings s
  | .setModeAtTrigger h part stream n settings => Sys2Proof.Machine.execSetModeAtTrigger h part stream n settings s
  | .setModeAtSeeds h part stream n pmask seeds => Sys2Proof.Machine.execSetModeAtSeeds h part stream n pmask seeds s
  | .setModeAtCancel h part => Sys2Proof.Machine.execSetModeAtCancel h part s
  | .arm h part group => Sys2Proof.Machine.execArm h part group s
  | .disarm h part group => Sys2Proof.Machine.execDisarm h part group s
  | .forceTrigger h cond => Sys2Proof.Machine.execForceTrigger h cond s
  | .scrub h space repair stks regions base len => Sys2Proof.Machine.execScrub h space repair stks regions base len s
  | .storeSettings h rmask => Sys2Proof.Machine.execStoreSettings h rmask s
  | .readSettings h rmask => Sys2Proof.Machine.execReadSettings h rmask s
  | .eyeScan h lsel grid => Sys2Proof.Machine.execEyeScan h lsel grid s
  | .laneCtlSetMode h tkind target index args => Sys2Proof.Machine.execLaneCtlSetMode h tkind target index args s
  | .laneCtlUp h tkind target index args => Sys2Proof.Machine.execLaneCtlUp h tkind target index args s
  | .laneCtlDown h tkind target index args => Sys2Proof.Machine.execLaneCtlDown h tkind target index args s
  | .laneCtlSlip h tkind target index args => Sys2Proof.Machine.execLaneCtlSlip h tkind target index args s
  | .laneCtlTest h tkind target index args => Sys2Proof.Machine.execLaneCtlTest h tkind target index args s
  | .laneCtlInject h tkind target index args => Sys2Proof.Machine.execLaneCtlInject h tkind target index args s
  | .laneCtlSetEq h tkind target index args => Sys2Proof.Machine.execLaneCtlSetEq h tkind target index args s
  | .laneCtlSetMap h tkind target index args => Sys2Proof.Machine.execLaneCtlSetMap h tkind target index args s
  | .laneCtlSetClass h tkind target index args => Sys2Proof.Machine.execLaneCtlSetClass h tkind target index args s
  | .laneCtlSetOut h tkind target index args => Sys2Proof.Machine.execLaneCtlSetOut h tkind target index args s
  | .laneCtlSetJesd h tkind target index args => Sys2Proof.Machine.execLaneCtlSetJesd h tkind target index args s
  | .setWakeTol h part tol => Sys2Proof.Machine.execSetWakeTol h part tol s
  | .counterRead h die mask bmask => Sys2Proof.Machine.execCounterRead h die mask bmask s
  | .auditFetch h part close headsOnly batch => Sys2Proof.Machine.execAuditFetch h part close headsOnly batch s
  | .mittenPair h stop link peer pairs => Sys2Proof.Machine.execMittenPair h stop link peer pairs s
  | .mittenPairDissolve h => Sys2Proof.Machine.execMittenPairDissolve h s
  | .barrier h tb at_ v id => Sys2Proof.Machine.execBarrier h tb at_ v id s
  | .bufWrite h data => Sys2Proof.Machine.execBufWrite h data s
  | .bufRead h => Sys2Proof.Machine.execBufRead h s
  | .longOpStep port tag step => Sys2Proof.Machine.execLongOpStep port tag step s
  | .ctlSqTailWrite link tail => Sys2Proof.Machine.execCtlSqTailWrite link tail s
  | .descriptorFetch link desc => Sys2Proof.Machine.execDescriptorFetch link desc s
  | .ctlCqHeadWrite link head => Sys2Proof.Machine.execCtlCqHeadWrite link head s
  | .portReset link linkDown => Sys2Proof.Machine.execPortReset link linkDown s
  | .smbusBlockWrite bytes pecOk => Sys2Proof.Machine.execSmbusBlockWrite bytes pecOk s
  | .smbusBlockRead => Sys2Proof.Machine.execSmbusBlockRead s
  | .glinSubmit bytes => Sys2Proof.Machine.execGlinSubmit bytes s
  | .glinComplete => Sys2Proof.Machine.execGlinComplete s
  | .glinChallenge => Sys2Proof.Machine.execGlinChallenge s
  | .glinResponse bytes => Sys2Proof.Machine.execGlinResponse bytes s
  | .glinLock => Sys2Proof.Machine.execGlinLock s
  | .extest pins => Sys2Proof.Machine.execExtest pins s
  | .samplePreload pins => Sys2Proof.Machine.execSamplePreload pins s
  | .idcode => Sys2Proof.Machine.execIdcode s
  | .clamp => Sys2Proof.Machine.execClamp s
  | .highz => Sys2Proof.Machine.execHighz s
  | .extestPulse pins => Sys2Proof.Machine.execExtestPulse pins s
  | .extestTrain pins => Sys2Proof.Machine.execExtestTrain pins s
  | .bypass => Sys2Proof.Machine.execBypass s
  | .registerWrite agent addr value aligned => Sys2Proof.Machine.execRegisterWrite agent addr value aligned s
  | .rcRead agent addr aligned => Sys2Proof.Machine.execRcRead agent addr aligned s
  | .seqCycleLoRead die => Sys2Proof.Machine.execSeqCycleLoRead die s
  | .gauLyrLoRead die layer which => Sys2Proof.Machine.execGauLyrLoRead die layer which s
  | .seqPartBndLoRead part => Sys2Proof.Machine.execSeqPartBndLoRead part s
  | .capStrmSeqLoRead die stream => Sys2Proof.Machine.execCapStrmSeqLoRead die stream s
  | .capStrmSeqLoWrite die stream value => Sys2Proof.Machine.execCapStrmSeqLoWrite die stream value s
  | .memErrAddrLoRead die ctrl => Sys2Proof.Machine.execMemErrAddrLoRead die ctrl s
  | .lanPrbsLoRead lsel bits counted => Sys2Proof.Machine.execLanPrbsLoRead lsel bits counted s
  | .timSrvOffLoRead tb => Sys2Proof.Machine.execTimSrvOffLoRead tb s
  | .timPpsTauLoRead => Sys2Proof.Machine.execTimPpsTauLoRead s
  | .nvsSeqLoRead die => Sys2Proof.Machine.execNvsSeqLoRead die s
  | .cntValLoRead die counter => Sys2Proof.Machine.execCntValLoRead die counter s
  | .cntValLoWrite die counter value => Sys2Proof.Machine.execCntValLoWrite die counter value s
  | .chkResLoRead die unit => Sys2Proof.Machine.execChkResLoRead die unit s
  | .chkAudBatchLoRead part => Sys2Proof.Machine.execChkAudBatchLoRead part s
  | .clrTrip die => Sys2Proof.Machine.execClrTrip die s
  | .clrOver die => Sys2Proof.Machine.execClrOver die s
  | .cntSnap die => Sys2Proof.Machine.execCntSnap die s
  | .cntUpSnap link die part => Sys2Proof.Machine.execCntUpSnap link die part s
  | .cntSmpPop die => Sys2Proof.Machine.execCntSmpPop die s
  | .fltLogPop die => Sys2Proof.Machine.execFltLogPop die s
  | .chkStart die unit => Sys2Proof.Machine.execChkStart die unit s
  | .chkDataWrite die unit data => Sys2Proof.Machine.execChkDataWrite die unit data s
  | .chkFinish die unit => Sys2Proof.Machine.execChkFinish die unit s
  | .tdcCalStart die pin => Sys2Proof.Machine.execTdcCalStart die pin s
  | .ppsCalStart => Sys2Proof.Machine.execPpsCalStart s
  | .timSnap => Sys2Proof.Machine.execTimSnap s
  | .tbSet tb => Sys2Proof.Machine.execTbSet tb s
  | .tbStep tb => Sys2Proof.Machine.execTbStep tb s
  | .tbSetOnPps tb => Sys2Proof.Machine.execTbSetOnPps tb s
  | .manadjWrite tb value => Sys2Proof.Machine.execManadjWrite tb value s
  | .g1LoadNow => Sys2Proof.Machine.execG1LoadNow s
  | .g1LoadAtPps => Sys2Proof.Machine.execG1LoadAtPps s
  | .g1Load => Sys2Proof.Machine.execG1Load s
  | .timeBaseUpdate tb => Sys2Proof.Machine.execTimeBaseUpdate tb s
  | .apertureRead link addr => Sys2Proof.Machine.execApertureRead link addr s
  | .bar2Access link offset write len => Sys2Proof.Machine.execBar2Access link offset write len s
  | .firing unit => Sys2Proof.Machine.execFiring unit s
  | .foldSwitch unit => Sys2Proof.Machine.execFoldSwitch unit s
  | .standbyFillDone unit => Sys2Proof.Machine.execStandbyFillDone unit s
  | .pipelineComplete unit => Sys2Proof.Machine.execPipelineComplete unit s
  | .burstTokenPlace unit port => Sys2Proof.Machine.execBurstTokenPlace unit port s
  | .treeEvaluation unit => Sys2Proof.Machine.execTreeEvaluation unit s
  | .switchSlot region cluster src => Sys2Proof.Machine.execSwitchSlot region cluster src s
  | .fabricSlot die region src => Sys2Proof.Machine.execFabricSlot die region src s
  | .crossingRelease die ep inward => Sys2Proof.Machine.execCrossingRelease die ep inward s
  | .bridgeRelease die channel ecc => Sys2Proof.Machine.execBridgeRelease die channel ecc s
  | .memoryReadRelease die ctrl lane => Sys2Proof.Machine.execMemoryReadRelease die ctrl lane s
  | .memoryWriteSlot die ctrl lane => Sys2Proof.Machine.execMemoryWriteSlot die ctrl lane s
  | .rescaleStage region cluster => Sys2Proof.Machine.execRescaleStage region cluster s
  | .scaleWaitTimeout region cluster => Sys2Proof.Machine.execScaleWaitTimeout region cluster s
  | .gauntletRun die layer => Sys2Proof.Machine.execGauntletRun die layer s
  | .gauntletRunEnd die engine => Sys2Proof.Machine.execGauntletRunEnd die engine s
  | .mergeRelease die layer => Sys2Proof.Machine.execMergeRelease die layer s
  | .scheduleHang die part => Sys2Proof.Machine.execScheduleHang die part s
  | .rawFrameReceive psel lane bytes check corrected failed => Sys2Proof.Machine.execRawFrameReceive psel lane bytes check corrected failed s
  | .jesdMultiblockReceive die link lanes crcOk => Sys2Proof.Machine.execJesdMultiblockReceive die link lanes crcOk s
  | .ethFrameReceive psel bytes fcs corrected => Sys2Proof.Machine.execEthFrameReceive psel bytes fcs corrected s
  | .eventAssembly die stream => Sys2Proof.Machine.execEventAssembly die stream s
  | .entrySlot die stream => Sys2Proof.Machine.execEntrySlot die stream s
  | .admissionOpen part => Sys2Proof.Machine.execAdmissionOpen part s
  | .latticeOccurrence die ep => Sys2Proof.Machine.execLatticeOccurrence die ep s
  | .pinEdge pin rising k tap => Sys2Proof.Machine.execPinEdge pin rising k tap s
  | .trigOutPulse pin => Sys2Proof.Machine.execTrigOutPulse pin s
  | .trigOutPulseEnd pin => Sys2Proof.Machine.execTrigOutPulseEnd pin s
  | .coincWindowClose table => Sys2Proof.Machine.execCoincWindowClose table s
  | .triggerPointAssign group => Sys2Proof.Machine.execTriggerPointAssign group s
  | .recordSeal group => Sys2Proof.Machine.execRecordSeal group s
  | .recordDelivery group => Sys2Proof.Machine.execRecordDelivery group s
  | .streamCopy group => Sys2Proof.Machine.execStreamCopy group s
  | .tdcCalDone input hist => Sys2Proof.Machine.execTdcCalDone input hist s
  | .passStart part => Sys2Proof.Machine.execPassStart part s
  | .sectionComplete part => Sys2Proof.Machine.execSectionComplete part s
  | .swapComplete part => Sys2Proof.Machine.execSwapComplete part s
  | .prefetchComplete part => Sys2Proof.Machine.execPrefetchComplete part s
  | .elasticStep die up => Sys2Proof.Machine.execElasticStep die up s
  | .modeChangeArm part => Sys2Proof.Machine.execModeChangeArm part s
  | .modeChangeDone part => Sys2Proof.Machine.execModeChangeDone part s
  | .pauseDrained part => Sys2Proof.Machine.execPauseDrained part s
  | .barrierRelease => Sys2Proof.Machine.execBarrierRelease s
  | .batchClose part => Sys2Proof.Machine.execBatchClose part s
  | .ppsInEdge rising k tap => Sys2Proof.Machine.execPpsInEdge rising k tap s
  | .ref10mInEdge k tap periodOk => Sys2Proof.Machine.execRef10mInEdge k tap periodOk s
  | .holdover tb => Sys2Proof.Machine.execHoldover tb s
  | .ppsOutPulse => Sys2Proof.Machine.execPpsOutPulse s
  | .ppsOutPulseEnd => Sys2Proof.Machine.execPpsOutPulseEnd s
  | .ref10mOutEdge => Sys2Proof.Machine.execRef10mOutEdge s
  | .ptpSync psel k m msg => Sys2Proof.Machine.execPtpSync psel k m msg s
  | .ptpFollowUp psel msg => Sys2Proof.Machine.execPtpFollowUp psel msg s
  | .ptpDelayResp psel msg => Sys2Proof.Machine.execPtpDelayResp psel msg s
  | .tcPtpMessage psel k m msg => Sys2Proof.Machine.execTcPtpMessage psel k m msg s
  | .tcFrameSend psel k m => Sys2Proof.Machine.execTcFrameSend psel k m s
  | .timeReqSend die link k m => Sys2Proof.Machine.execTimeReqSend die link k m s
  | .timeReq die link k2 m2 k3 m3 => Sys2Proof.Machine.execTimeReq die link k2 m2 k3 m3 s
  | .timeRsp die link k m => Sys2Proof.Machine.execTimeRsp die link k m s
  | .wyileFrameSend die link lane => Sys2Proof.Machine.execWyileFrameSend die link lane s
  | .wyileFrameReceive die link lane frame ok => Sys2Proof.Machine.execWyileFrameReceive die link lane frame ok s
  | .nakRetry die link lane => Sys2Proof.Machine.execNakRetry die link lane s
  | .train die link msg => Sys2Proof.Machine.execTrain die link msg s
  | .wyileTrainingDone die link trips => Sys2Proof.Machine.execWyileTrainingDone die link trips s
  | .trainingRetry die link => Sys2Proof.Machine.execTrainingRetry die link s
  | .trigger die link => Sys2Proof.Machine.execTrigger die link s
  | .control die link => Sys2Proof.Machine.execControl die link s
  | .controlResend die link => Sys2Proof.Machine.execControlResend die link s
  | .mittenRecordSend => Sys2Proof.Machine.execMittenRecordSend s
  | .mitten die link => Sys2Proof.Machine.execMitten die link s
  | .mittenWaitExpiry => Sys2Proof.Machine.execMittenWaitExpiry s
  | .repair die => Sys2Proof.Machine.execRepair die s
  | .bucketLeak die bucket => Sys2Proof.Machine.execBucketLeak die bucket s
  | .scrubPass die => Sys2Proof.Machine.execScrubPass die s
  | .zeroFillDone base => Sys2Proof.Machine.execZeroFillDone base s
  | .thermalSample die temps => Sys2Proof.Machine.execThermalSample die temps s
  | .thermtrip die sensor => Sys2Proof.Machine.execThermtrip die sensor s
  | .crownLockstep die digest => Sys2Proof.Machine.execCrownLockstep die digest s
  | .crownRestartDone die => Sys2Proof.Machine.execCrownRestartDone die s
  | .mailboxReport die core => Sys2Proof.Machine.execMailboxReport die core s
  | .brimWatchdog die core => Sys2Proof.Machine.execBrimWatchdog die core s
  | .brimAccessViolation die core => Sys2Proof.Machine.execBrimAccessViolation die core s
  | .brimRestartDone die core memOk => Sys2Proof.Machine.execBrimRestartDone die core memOk s
  | .brimHoldExpiry die core => Sys2Proof.Machine.execBrimHoldExpiry die core s
  | .debugBlockExpiry => Sys2Proof.Machine.execDebugBlockExpiry s
  | .coldReset => Sys2Proof.Machine.execColdReset s
  | .sramFillDone => Sys2Proof.Machine.execSramFillDone s
  | .stackTrainingDone trained => Sys2Proof.Machine.execStackTrainingDone trained s
  | .memFillDone => Sys2Proof.Machine.execMemFillDone s
  | .bootReady => Sys2Proof.Machine.execBootReady s
  | .flashRequest => Sys2Proof.Machine.execFlashRequest s
  | .flashRelease written => Sys2Proof.Machine.execFlashRelease written s
  | .regionPowerEntry region level => Sys2Proof.Machine.execRegionPowerEntry region level s
  | .packagePowerEntry level => Sys2Proof.Machine.execPackagePowerEntry level s
  | .wakeComplete region => Sys2Proof.Machine.execWakeComplete region s
  | .laneStageAdvance lsel inverted word => Sys2Proof.Machine.execLaneStageAdvance lsel inverted word s
  | .laneDrop lsel stage => Sys2Proof.Machine.execLaneDrop lsel stage s
  | .slipTestDone lsel words => Sys2Proof.Machine.execSlipTestDone lsel words s
  | .sysrefEdge die edge => Sys2Proof.Machine.execSysrefEdge die edge s
  | .laserLoss oe power => Sys2Proof.Machine.execLaserLoss oe power s
  | .laserRecovery oe power => Sys2Proof.Machine.execLaserRecovery oe power s
  | .counterWrap die counter core n unit pc => Sys2Proof.Machine.execCounterWrap die counter core n unit pc s
  | .pcieLinkUp link => Sys2Proof.Machine.execPcieLinkUp link s
  | .digestExchange part digest template => Sys2Proof.Machine.execDigestExchange part digest template s
  | .checkerLock lsel => Sys2Proof.Machine.execCheckerLock lsel s
  | .ref10mInLoss => Sys2Proof.Machine.execRef10mInLoss s
  | .trstN => Sys2Proof.Machine.execTrstN s
  | .brimDebugHalt die core => Sys2Proof.Machine.execBrimDebugHalt die core s
  | .brimDebugResume die core => Sys2Proof.Machine.execBrimDebugResume die core s
  | .ptpDelayReq tb k m => Sys2Proof.Machine.execPtpDelayReq tb k m s

end Sys2Proof.Machine
end

