-- ==== Sys2Proof/Machine/Tick.lean ====
section
/-! DEFINITION. One lattice cycle: what happens in every cycle whatever is commanded (R146, R160, R211, R231, R310, R398, R399, R551,
R556, R558, R675). -/

namespace Sys2Proof.Machine

/-! ### Heads of queues (R146) -/

/-- The heads of a unit's queues are checked, once each: a token is exempt afterwards. -/
def State.unitHeads (s : State) (u : Nat) : State :=
  if s.regionLive (uRegion u) then (List.range 4).foldl (fun s q => s.headCheck u q) s else s

/-- Every token that stands at the head of a queue has its sideband parity checked. -/
def State.headsCheck (s : State) : State :=
  let s := s.lat.units.foldl (fun s e => s.unitHeads e.1) s
  s.lat.clusters.foldl (fun s e => if s.regionLive (e.1 / 64) then s.scaleHeadCheck e.1 else s) s

/-! ### Stall cycles (R152, R231, R235, R253) -/

/-- An interlock that holds unit `u` in this cycle: a due firing (R151, R152), an evaluation (R191). DEDUCED: log entry 83. -/
def State.unitStall (s : State) (u : Nat) (x : UnitState) : State :=
  if !s.regionLive (uRegion u) || decide (s.regionMode (uRegion u) = 2 ∧ s.uKind u = 0) then s
  else
    let s := match s.fireReady u with
      | .held dn cause => s.stall u dn.inst cause
      | _ => s
    match x.waiting with
    | e :: _ => if s.treeBusy x then (s.stall u e.inst 2).markLate e.inst else s
    | [] => s

/-- The tokens of a rescale stage that wait for a scale (R113). -/
def State.scaleStalls (s : State) (k : Nat) : State :=
  (s.stageWaits k).foldl (fun s f => (s.stall f.unit f.inst 9).markLate f.inst) s

/-- A slot that could not move its token, or has none to move, waits (R161, R584). -/
def State.slotStall (s : State) (key : Nat) (w : SlotWait) : State :=
  let absent := match mapGetD s.lat.fabIn (512 * (w.region / 8) + key % 512) [] with
    | p :: _ => decide (s.cycle (w.region / 8) < p.rel)
    | [] => true
  if s.regionLive w.region && s.instLive w.inst && decide (w.cause ≠ 5) && (decide (w.cause ≠ 8) || absent) then
    s.stallAt w.region w.unit w.inst w.cause
  else s

/-- The head of a fabric source is due and no slot moves it (R218). -/
def State.sourceStall (s : State) (key : Nat) : State :=
  match s.fabHeld (key % 4096 / 512) (key % 512) (decide (4096 ≤ key)) with
  | some (r, u, i) => if s.regionLive r then s.stallAt r u i 4 else s
  | none => s

/-- The head of a crossing has not completed its passage, or its island has no room for it (R37). An endpoint outside the regions has
no region to count for: only the cause is counted. -/
def State.crossStall (s : State) (key : Nat) (inward : Bool) (ps : List Passage) : State :=
  let d := key / 512
  let ep := key % 512
  match ps with
  | p :: _ =>
    if !s.instLive p.held.inst || (decide (s.cycle d < p.rel) && !(inward && (mapGet s.lat.waits (crossWaitKey key)).isSome)) then s
    else if ep < 0x100 then
      (if s.regionLive (8 * d + ep / 32) then s.stallAt (8 * d + ep / 32) (fabFeeds (8 * d) ep) p.held.inst 5 else s)
    else s.count d 0x15 1 (s.occInst p.held.inst)
  | [] => s

/-- The head of a bridge channel has not been received by its slot cycle + 12 (R35). -/
def State.bridgeStall (s : State) (key : Nat) (ps : List Passage) : State :=
  let d := key / 32
  let r := 8 * d + key % 32 / 4
  match ps with
  | p :: _ =>
    if p.rel ≤ s.cycle (1 - d) ∧ s.instLive p.held.inst = true ∧ s.regionLive r = true then s.stallAt r (unitAddr r 0 0) p.held.inst 6
    else s
  | [] => s

/-- Read tokens of region `r` that are absent 128 cycles after their slots (R226). -/
def State.memStalls (s : State) (r : Nat) (ms : List MemSlot) : State :=
  let c := s.cycle (r / 8)
  if c < 128 ∨ s.regionLive r = false then s
  else
    ms.zipIdx.foldl (fun s e =>
      let done := mapGetD s.lat.memServed (65536 * r + e.2) 0
      let at_ := fun (x : Inst) => x.ingest + swOff e.1.sched.toNat
      match s.seq.insts.find? (fun x => !e.1.write && decide (s.regionPart r = some x.part ∧ x.prog = swProg e.1.sched.toNat
          ∧ done < x.id ∧ at_ x + 128 ≤ c ∧ at_ x % 4096 = e.1.cycle)) with
      | some x => s.stallAt r (unitAddr r 0 0) x.id 7
      | none => s) s

/-- An accepted trip finds its engine running another (R127). -/
def State.gauStall (s : State) (k : Nat) (l : Layer) : State :=
  match s.tripDue l with
  | some w => if s.engineBusy k l then (s.stall l.merge w.inst 0xA).markLate w.inst else s
  | none => s

/-- Every interlock that holds in the cycle that ends counts a stall cycle. DEDUCED: log entry 83. -/
def State.stalls (s : State) : State :=
  let s := s.lat.units.foldl (fun s e => s.unitStall e.1 e.2) s
  let s := s.lat.clusters.foldl (fun s e => s.scaleStalls e.1) s
  let s := s.lat.waits.foldl (fun s e => s.slotStall e.1 e.2) s
  let s := s.lat.fabIn.foldl (fun s e => s.sourceStall e.1) s
  let s := s.lat.xIn.foldl (fun s e => s.crossStall e.1 true e.2) s
  let s := s.lat.xOut.foldl (fun s e => s.crossStall e.1 false e.2) s
  let s := s.lat.bridge.foldl (fun s e => s.bridgeStall e.1 e.2) s
  let s := s.lat.memSlots.foldl (fun s e => s.memStalls e.1 e.2) s
  s.gau.layers.foldl (fun s e => s.gauStall e.1 e.2) s

/-! ### The end of the cycle -/

/-- What the cycle has used, and what it has done to registers, is over (R12, R148, R216). -/
def State.cycleOver (s : State) : State := { s with cyc := [], lat := { s.lat with used := [] } }

/-- Events accepted in the cycle go to the lattice (R310, R311), and admission fills its crossings (R232). DEDUCED: log entry 97. -/
def State.admitCycle (s : State) : State := s.markOld.enterAll.admMoves

/-- Performance counters of a cycle on die `d`: CYCLES, DEAD_CYCLES, and SEQ_DEAD_CNT (R406, R675). -/
def State.cycleCounts (s : State) (d : Nat) : State :=
  let s := s.count d 1 1 occ0
  if s.dead d then (s.count d 2 1 occ0).addReg (aSeq d 0x604) 1 else s

/-- The schedule counts, 64 bits wide, and the model's own clock advance by one. DESIGN CHOICE: log entry 1. -/
def State.advance (s : State) : State :=
  { s with now := s.now + 1
           seq := { s.seq with count0 := (s.seq.count0 + 1) % 2 ^ 64, count1 := (s.seq.count1 + 1) % 2 ^ 64 } }

/-- One lattice cycle passes. The 156.25 MHz reference has an edge every 8 cycles. DESIGN CHOICE: log entry 1. DESIGN CHOICE: log entry 94. -/
def State.tick (s : State) : State :=
  let s := if (s.now + 1) % 8 = 0 then s.g1Tick else s
  let s := s.headsCheck.stalls.rowsArrive.admitCycle
  let s := ((s.gated 0).gated 1)
  let s := ((s.cycleCounts 0).cycleCounts 1).cycleOver
  s.tbKeep.tbTick.advance.takeSteps

end Sys2Proof.Machine
end

