-- ==== Sys2Proof/Laws/Maps.lean ====
section
/-! SUPPORT. Sparse maps and memories: what a read after a write gives, and that every operation keeps the canonical form. -/

namespace Sys2Proof.Machine

variable {α : Type}

/-! ### Maps -/

@[simp] theorem mapGet_nil (k : Nat) : mapGet ([] : AMap α) k = none := rfl

theorem mapGet_cons (j : Nat) (v : α) (m : AMap α) (k : Nat) :
    mapGet ((j, v) :: m) k = if j = k then some v else mapGet m k := rfl

/-- An entry that is set reads back, and no other entry changes. -/
@[simp] theorem mapGet_mapSet (m : AMap α) (k : Nat) (v : α) (j : Nat) :
    mapGet (mapSet m k v) j = if j = k then some v else mapGet m j := by
  induction m with
  | nil => simp [mapSet, mapGet_cons, eq_comm]
  | cons e m ih =>
    obtain ⟨i, w⟩ := e
    by_cases h1 : k < i
    · simp [mapSet, h1, mapGet_cons, eq_comm]
    · by_cases h2 : k = i
      · subst h2
        by_cases h3 : k = j
        · simp [mapSet, mapGet_cons, h3]
        · simp [mapSet, mapGet_cons, h3, Ne.symm h3]
      · rw [mapSet, if_neg h1, if_neg h2, mapGet_cons, ih, mapGet_cons]
        by_cases h3 : i = j
        · subst h3
          simp [Ne.symm h2]
        · simp [h3]

/-- An entry that is erased is absent, and no other entry changes. -/
@[simp] theorem mapGet_mapErase (m : AMap α) (k j : Nat) :
    mapGet (mapErase m k) j = if j = k then none else mapGet m j := by
  induction m with
  | nil => simp [mapErase]
  | cons e m ih =>
    obtain ⟨i, w⟩ := e
    rw [mapErase] at ih ⊢
    by_cases h : i = k
    · subst h
      rw [List.filter_cons_of_neg (by simp), ih, mapGet_cons]
      by_cases hj : j = i
      · simp [hj]
      · simp [hj, Ne.symm hj]
    · rw [List.filter_cons_of_pos (by simpa using h), mapGet_cons, mapGet_cons, ih]
      by_cases hj : i = j
      · subst hj
        simp [h]
      · simp [hj]

/-- A value that is put reads back, and no other entry changes. -/
@[simp] theorem mapGetD_mapPut [DecidableEq α] (m : AMap α) (k : Nat) (v d : α) (j : Nat) :
    mapGetD (mapPut m k v d) j d = if j = k then v else mapGetD m j d := by
  unfold mapPut mapGetD
  split
  · next h => subst h; by_cases hj : j = k <;> simp [hj]
  · by_cases hj : j = k <;> simp [hj]

/-- Every key of `m` lies above `k`. -/
def keysAbove (k : Nat) (m : AMap α) : Prop := ∀ e ∈ m, k < e.1

/-- The keys of a list rise strictly exactly when its tail's do and the head's lies below all of them. -/
theorem mapSorted_cons (j : Nat) (v : α) (m : AMap α) :
    mapSorted ((j, v) :: m) = true ↔ keysAbove j m ∧ mapSorted m = true := by
  induction m generalizing j v with
  | nil => simp [mapSorted, keysAbove]
  | cons e m ih =>
    obtain ⟨i, w⟩ := e
    rw [mapSorted, Bool.and_eq_true, decide_eq_true_eq]
    constructor
    · rintro ⟨h, hs⟩
      refine ⟨fun x hx => ?_, hs⟩
      rcases List.mem_cons.1 hx with rfl | hx
      · exact h
      · exact lt_trans h (((ih i w).1 hs).1 x hx)
    · rintro ⟨h, hs⟩
      exact ⟨h (i, w) (List.mem_cons_self ..), hs⟩

theorem keysAbove_mapSet {b k : Nat} {v : α} {m : AMap α} (hk : b < k) (h : keysAbove b m) : keysAbove b (mapSet m k v) := by
  induction m with
  | nil => intro e he; simp [mapSet] at he; subst he; exact hk
  | cons x m ih =>
    obtain ⟨i, w⟩ := x
    have hm : keysAbove b m := fun e he => h e (List.mem_cons_of_mem _ he)
    unfold mapSet
    split
    · intro e he
      rcases List.mem_cons.1 he with rfl | he
      · exact hk
      · exact h e he
    · split
      · intro e he
        rcases List.mem_cons.1 he with rfl | he
        · exact hk
        · exact hm e he
      · intro e he
        rcases List.mem_cons.1 he with rfl | he
        · exact h _ (List.mem_cons_self ..)
        · exact ih hm e he

/-- Setting an entry keeps the keys strictly rising. -/
theorem mapSorted_mapSet {m : AMap α} (k : Nat) (v : α) (h : mapSorted m = true) : mapSorted (mapSet m k v) = true := by
  induction m with
  | nil => rfl
  | cons x m ih =>
    obtain ⟨i, w⟩ := x
    obtain ⟨ha, hs⟩ := (mapSorted_cons i w m).1 h
    unfold mapSet
    split
    · next hk =>
      refine (mapSorted_cons k v _).2 ⟨fun e he => ?_, h⟩
      rcases List.mem_cons.1 he with rfl | he
      · exact hk
      · exact lt_trans hk (ha e he)
    · next h1 =>
      split
      · next h2 =>
        subst h2
        exact (mapSorted_cons k v m).2 ⟨ha, hs⟩
      · next h2 => exact (mapSorted_cons i w _).2 ⟨keysAbove_mapSet (by omega) ha, ih hs⟩

/-- Leaving entries out keeps the keys strictly rising. -/
theorem mapSorted_filter {m : AMap α} (f : Nat × α → Bool) (h : mapSorted m = true) : mapSorted (m.filter f) = true := by
  induction m with
  | nil => rfl
  | cons x m ih =>
    obtain ⟨i, w⟩ := x
    obtain ⟨ha, hs⟩ := (mapSorted_cons i w m).1 h
    rw [List.filter_cons]
    split
    · exact (mapSorted_cons i w _).2 ⟨fun e he => ha e (List.mem_of_mem_filter he), ih hs⟩
    · exact ih hs

/-- Erasing an entry keeps the keys strictly rising. -/
theorem mapSorted_mapErase {m : AMap α} (k : Nat) (h : mapSorted m = true) : mapSorted (mapErase m k) = true :=
  mapSorted_filter _ h

/-- Putting a value keeps the keys strictly rising. -/
theorem mapSorted_mapPut [DecidableEq α] {m : AMap α} (k : Nat) (v d : α) (h : mapSorted m = true) :
    mapSorted (mapPut m k v d) = true := by
  unfold mapPut
  split
  · exact mapSorted_mapErase k h
  · exact mapSorted_mapSet k v h

/-- What a map lists after an entry is set was listed before, or is the entry. -/
theorem mem_mapSet {m : AMap α} {k : Nat} {v : α} {e : Nat × α} (h : e ∈ mapSet m k v) : e = (k, v) ∨ e ∈ m := by
  induction m with
  | nil => simpa [mapSet] using h
  | cons x m ih =>
    obtain ⟨i, w⟩ := x
    unfold mapSet at h
    split at h
    · rcases List.mem_cons.1 h with h | h
      · exact .inl h
      · exact .inr h
    · split at h
      · rcases List.mem_cons.1 h with h | h
        · exact .inl h
        · exact .inr (List.mem_cons_of_mem _ h)
      · rcases List.mem_cons.1 h with h | h
        · exact .inr (h ▸ List.mem_cons_self ..)
        · exact (ih h).imp id (List.mem_cons_of_mem _)

/-! ### Memories -/

/-- A byte that is written reads back, and no other byte changes. -/
@[simp] theorem memByte_memSet (m : Mem) (a : Nat) (b : Byte) (c : Nat) :
    memByte (memSet m a b) c = if c = a then b else memByte m c := by
  simp [memByte, memSet]

theorem memWf_iff (m : Mem) : memWf m = true ↔ mapSorted m = true ∧ ∀ e ∈ m, e.2 ≠ 0 := by
  simp [memWf, List.all_eq_true]

/-- Writing a byte keeps the canonical form. -/
theorem memWf_memSet {m : Mem} (a : Nat) (b : Byte) (h : memWf m = true) : memWf (memSet m a b) = true := by
  rw [memWf_iff] at h ⊢
  refine ⟨mapSorted_mapPut a b 0 h.1, fun e he => ?_⟩
  unfold memSet mapPut at he
  split at he
  · exact h.2 e (List.mem_of_mem_filter he)
  · next hb =>
    rcases mem_mapSet he with rfl | he
    · exact hb
    · exact h.2 e he

/-- Writing a byte string keeps the canonical form. -/
theorem memWf_memWrite {m : Mem} (a : Nat) (bs : List Byte) (h : memWf m = true) : memWf (memWrite m a bs) = true := by
  induction bs generalizing m a with
  | nil => exact h
  | cons b bs ih => exact ih (a + 1) (memWf_memSet a b h)

/-- Zeroing a range keeps the canonical form. -/
theorem memWf_memZero {m : Mem} (a n : Nat) (h : memWf m = true) : memWf (memZero m a n) = true := by
  rw [memWf_iff] at h ⊢
  exact ⟨mapSorted_filter _ h.1, fun e he => h.2 e (List.mem_of_mem_filter he)⟩

/-- Bytes below a write do not change. -/
theorem memByte_memWrite_below (m : Mem) (a : Nat) (bs : List Byte) (c : Nat) (h : c < a) :
    memByte (memWrite m a bs) c = memByte m c := by
  induction bs generalizing m a with
  | nil => rfl
  | cons b bs ih =>
    rw [memWrite, ih _ _ (by omega), memByte_memSet, if_neg (by omega)]

/-- A byte string that is written reads back, and every byte outside it is unchanged. -/
theorem memByte_memWrite (m : Mem) (a : Nat) (bs : List Byte) (c : Nat) :
    memByte (memWrite m a bs) c = if a ≤ c ∧ c < a + bs.length then bs.getD (c - a) 0 else memByte m c := by
  induction bs generalizing m a with
  | nil => simp [memWrite]
  | cons b bs ih =>
    rw [memWrite, ih, List.length_cons]
    by_cases h : c = a
    · subst h
      simp
    · by_cases h2 : a + 1 ≤ c ∧ c < a + 1 + bs.length
      · rw [if_pos h2, if_pos (by omega)]
        obtain ⟨k, rfl⟩ : ∃ k, c = a + 1 + k := ⟨c - (a + 1), by omega⟩
        rw [show a + 1 + k - (a + 1) = k by omega, show a + 1 + k - a = k + 1 by omega, List.getD_cons_succ]
      · rw [if_neg h2, if_neg (by omega), memByte_memSet, if_neg h]

@[simp] theorem length_memRead (m : Mem) (a n : Nat) : (memRead m a n).length = n := by
  induction n generalizing a with
  | zero => rfl
  | succ n ih => simp [memRead, ih]

/-- What a read of `n` bytes holds, byte by byte. -/
theorem getD_memRead (m : Mem) (a n k : Nat) (h : k < n) : (memRead m a n).getD k 0 = memByte m (a + k) := by
  induction n generalizing a k with
  | zero => omega
  | succ n ih =>
    cases k with
    | zero => rfl
    | succ k => rw [memRead, List.getD_cons_succ, ih _ _ (by omega)]; congr 1; omega

/-- Two memories that agree on a range read the same there. -/
theorem memRead_congr {m m' : Mem} (a n : Nat) (h : ∀ c, a ≤ c → c < a + n → memByte m c = memByte m' c) :
    memRead m a n = memRead m' a n := by
  induction n generalizing a with
  | zero => rfl
  | succ n ih =>
    rw [memRead, memRead, h a (by omega) (by omega), ih (a + 1) (fun c h1 h2 => h c (by omega) (by omega))]

/-- A byte string reads back where it was written. -/
theorem memRead_memWrite (m : Mem) (a : Nat) (bs : List Byte) : memRead (memWrite m a bs) a bs.length = bs := by
  induction bs generalizing m a with
  | nil => rfl
  | cons b bs ih =>
    rw [memWrite, List.length_cons, memRead, ih, memByte_memWrite_below _ _ _ _ (by omega), memByte_memSet, if_pos rfl]

/-- A write leaves what lies beside it. -/
theorem memRead_memWrite_apart (m : Mem) (a : Nat) (bs : List Byte) (c n : Nat) (h : c + n ≤ a ∨ a + bs.length ≤ c) :
    memRead (memWrite m a bs) c n = memRead m c n :=
  memRead_congr c n fun x h1 h2 => by rw [memByte_memWrite, if_neg (by omega)]

end Sys2Proof.Machine
end

