-- ==== Sys2Proof/Laws/Same.lean ====
section
/-! SUPPORT. What operations leave alone: the queue, the part identity and the regions of every partition. One lemma for
each operation of the machine follows in the files that import this one. -/

namespace Sys2Proof.Machine

/-- `t` has the queue and the part identity of `a`, and every partition holds the same regions in both. -/
def Same (a t : State) : Prop := t.pending = a.pending ∧ t.hw = a.hw ∧ ∀ p, (t.part p).regions = (a.part p).regions

theorem Same.refl (s : State) : Same s s := ⟨rfl, rfl, fun _ => rfl⟩

theorem same_trans {a b c : State} (h : Same a b) : Same b c → Same a c :=
  fun k => ⟨k.1.trans h.1, k.2.1.trans h.2.1, fun p => (k.2.2 p).trans (h.2.2 p)⟩

@[simp] theorem same_foldl {β : Type} (a : State) (f : State → β → State) (l : List β) (s : State)
    (h : ∀ t x, Same a (f t x) ↔ Same a t) : Same a (l.foldl f s) ↔ Same a s := by
  induction l generalizing s with
  | nil => exact Iff.rfl
  | cons x l ih => exact (ih (f s x)).trans (h s x)

@[simp] theorem same_foldl_fst {β γ : Type} (a : State) (f : State × γ → β → State × γ) (l : List β) (s : State × γ)
    (h : ∀ t x, Same a (f t x).1 ↔ Same a t.1) : Same a (l.foldl f s).1 ↔ Same a s.1 := by
  induction l generalizing s with
  | nil => exact Iff.rfl
  | cons x l ih => exact (ih (f s x)).trans (h s x)

@[simp] theorem same_ite (a s t : State) (c : Prop) [Decidable c] :
    Same a (if c then s else t) ↔ if c then Same a s else Same a t := by split <;> rfl

@[simp] theorem same_ite_fst {γ : Type} (a : State) (s t : State × γ) (c : Prop) [Decidable c] :
    Same a (if c then s else t).1 ↔ if c then Same a s.1 else Same a t.1 := by split <;> rfl

@[simp] theorem same_putPart (a s : State) (p : Nat) (x : Partition) (h : x.regions = (s.part p).regions) :
    Same a (s.putPart p x) ↔ Same a s := by
  have h2 : ∀ q, ((s.putPart p x).part q).regions = (s.part q).regions := fun q => by
    simp only [State.part, State.putPart, mapGetD_mapPut]
    split
    · next e => subst e; exact h
    · rfl
  exact ⟨fun k => ⟨k.1, k.2.1, fun q => (h2 q).symm.trans (k.2.2 q)⟩, fun k => ⟨k.1, k.2.1, fun q => (h2 q).trans (k.2.2 q)⟩⟩

@[simp] theorem same_mk (a s : State) (x_now x_regs x_cyc x_readData x_readBytes x_readEnd x_free x_ports x_ops x_lat x_seq x_gau x_chains x_mit x_flt x_cnt x_tim x_deep x_cap x_lan x_wyl x_sys x_barrier) :
    Same a (State.mk s.pending s.hw x_now x_regs x_cyc x_readData x_readBytes x_readEnd x_free x_ports x_ops s.parts x_lat x_seq x_gau x_chains x_mit x_flt x_cnt x_tim x_deep x_cap x_lan x_wyl x_sys x_barrier) ↔ Same a s := Iff.rfl

@[simp] theorem same_only (a s t : State) (c : Instr) (h : Same a t ↔ Same a s) : Same a (s.only c t) ↔ Same a s := by
  unfold State.only
  split
  · exact h
  · rfl

end Sys2Proof.Machine
end

