-- ==== Sys2Proof/Laws/SameTime.lean ====
section
/-! SUPPORT. `Same` through the operations of registers, time bases, Wyile links, streams and capture. -/

namespace Sys2Proof.Machine

/-! ### Ops -/

@[simp] theorem same_setReg (a0 : State) (s : State) a v :
    Same a0 (State.setReg s a v) ↔ Same a0 s := by
  simp [State.setReg]

@[simp] theorem same_setField (a0 : State) (s : State) a hi lo v :
    Same a0 (State.setField s a hi lo v) ↔ Same a0 s := by
  simp [State.setField]

@[simp] theorem same_putCycle (a0 : State) (s : State) a e :
    Same a0 (State.putCycle s a e) ↔ Same a0 s := by
  unfold State.putCycle
  (try simp only [])
  repeat' (first | split | with_reducible exact Iff.rfl | refine (same_foldl _ _ _ _ fun _ _ => ?_).trans ?_ | refine (same_foldl_fst _ _ _ _ fun _ _ => ?_).trans ?_ | simp)

@[simp] theorem same_happen (a0 : State) (s : State) a f :
    Same a0 (State.happen s a f) ↔ Same a0 s := by
  unfold State.happen
  (try simp only [])
  repeat' (first | split | with_reducible exact Iff.rfl | refine (same_foldl _ _ _ _ fun _ _ => ?_).trans ?_ | refine (same_foldl_fst _ _ _ _ fun _ _ => ?_).trans ?_ | simp)

@[simp] theorem same_setFlag (a0 : State) (s : State) a i b :
    Same a0 (State.setFlag s a i b) ↔ Same a0 s := by
  simp [State.setFlag]

@[simp] theorem same_addField (a0 : State) (s : State) a hi lo n :
    Same a0 (State.addField s a hi lo n) ↔ Same a0 s := by
  simp [State.addField]

@[simp] theorem same_addReg (a0 : State) (s : State) a n :
    Same a0 (State.addReg s a n) ↔ Same a0 s := by
  simp [State.addReg]

@[simp] theorem same_maxField (a0 : State) (s : State) a hi lo v :
    Same a0 (State.maxField s a hi lo v) ↔ Same a0 s := by
  simp [State.maxField]

@[simp] theorem same_setAlong (a0 : State) (s : State) e :
    Same a0 (State.setAlong s e) ↔ Same a0 s := by
  unfold State.setAlong
  (try simp only [])
  repeat' (first | split | with_reducible exact Iff.rfl | refine (same_foldl _ _ _ _ fun _ _ => ?_).trans ?_ | refine (same_foldl_fst _ _ _ _ fun _ _ => ?_).trans ?_ | simp)

@[simp] theorem same_putRecord (a0 : State) (s : State) a w along :
    Same a0 (State.putRecord s a w along) ↔ Same a0 s := by
  unfold State.putRecord
  (try simp only [])
  repeat' (first | split | with_reducible exact Iff.rfl | refine (same_foldl _ _ _ _ fun _ _ => ?_).trans ?_ | refine (same_foldl_fst _ _ _ _ fun _ _ => ?_).trans ?_ | simp)

@[simp] theorem same_firstRecord (a0 : State) (s : State) a v o along :
    Same a0 (State.firstRecord s a v o along) ↔ Same a0 s := by
  simp [State.firstRecord]

@[simp] theorem same_readState (a0 : State) (s : State) a :
    Same a0 (State.readState s a) ↔ Same a0 s := by
  unfold State.readState
  (try simp only [])
  repeat' (first | split | with_reducible exact Iff.rfl | refine (same_foldl _ _ _ _ fun _ _ => ?_).trans ?_ | refine (same_foldl_fst _ _ _ _ fun _ _ => ?_).trans ?_ | simp)

@[simp] theorem same_clearBits (a0 : State) (s : State) a m :
    Same a0 (State.clearBits s a m) ↔ Same a0 s := by
  unfold State.clearBits
  (try simp only [])
  repeat' (first | split | with_reducible exact Iff.rfl | refine (same_foldl _ _ _ _ fun _ _ => ?_).trans ?_ | refine (same_foldl_fst _ _ _ _ fun _ _ => ?_).trans ?_ | simp)

@[simp] theorem same_readOut (a0 : State) (s : State) w :
    Same a0 (State.readOut s w) ↔ Same a0 s := by
  simp [State.readOut]

@[simp] theorem same_latchRead (a0 : State) (s : State) a hi v h :
    Same a0 (State.latchRead s a hi v h) ↔ Same a0 s := by
  simp [State.latchRead]

@[simp] theorem same_putUnit (a0 : State) (s : State) u x :
    Same a0 (State.putUnit s u x) ↔ Same a0 s := by
  simp [State.putUnit]

@[simp] theorem same_putCluster (a0 : State) (s : State) k x :
    Same a0 (State.putCluster s k x) ↔ Same a0 s := by
  simp [State.putCluster]

@[simp] theorem same_putPort (a0 : State) (s : State) p x :
    Same a0 (State.putPort s p x) ↔ Same a0 s := by
  simp [State.putPort]

@[simp] theorem same_nextTok (a0 : State) (s : State) :
    Same a0 (State.nextTok s).2 ↔ Same a0 s := by
  simp [State.nextTok]

@[simp] theorem same_nextFree (a0 : State) (s : State) :
    Same a0 (State.nextFree s).2 ↔ Same a0 s := by
  simp [State.nextFree]

@[simp] theorem same_putTb (a0 : State) (s : State) t x :
    Same a0 (State.putTb s t x) ↔ Same a0 s := by
  simp [State.putTb]

@[simp] theorem same_pushSample (a0 : State) (s : State) d e :
    Same a0 (State.pushSample s d e) ↔ Same a0 s := by
  simp [State.pushSample]

@[simp] theorem same_addCount (a0 s : State) (d : Nat) (o : Occ) (fuel k n : Nat) :
    Same a0 (State.addCount s d o fuel k n) ↔ Same a0 s := by
  induction fuel generalizing s k n with
  | zero => exact Iff.rfl
  | succ f ih =>
    rw [State.addCount]
    simp only []
    (repeat' split) <;> simp [ih]

@[simp] theorem same_count (a0 s : State) (d ev n : Nat) (o : Occ) :
    Same a0 (State.count s d ev n o) ↔ Same a0 s := by
  simp [State.count]

@[simp] theorem same_bestEffort (a0 : State) (s : State) k b n :
    Same a0 (State.bestEffort s k b n) ↔ Same a0 s := by
  simp [State.bestEffort]

@[simp] theorem same_someBestEffort (a0 : State) (s : State) k b n :
    Same a0 (State.someBestEffort s k b n) ↔ Same a0 s := by
  unfold State.someBestEffort
  (try simp only [])
  repeat' (first | split | with_reducible exact Iff.rfl | refine (same_foldl _ _ _ _ fun _ _ => ?_).trans ?_ | refine (same_foldl_fst _ _ _ _ fun _ _ => ?_).trans ?_ | simp)

@[simp] theorem same_msi (a0 : State) (s : State) p v :
    Same a0 (State.msi s p v) ↔ Same a0 s := by
  simp [State.msi]

@[simp] theorem same_irqCause (a0 : State) (s : State) bit :
    Same a0 (State.irqCause s bit) ↔ Same a0 s := by
  simp [State.irqCause]

@[simp] theorem same_fault (a0 : State) (s : State) d f :
    Same a0 (State.fault s d f) ↔ Same a0 s := by
  simp [State.fault]

@[simp] theorem same_bucketAdd (a0 : State) (s : State) d k n :
    Same a0 (State.bucketAdd s d k n) ↔ Same a0 s := by
  simp [State.bucketAdd]

@[simp] theorem same_stackWrite (a0 : State) (s : State) k b bs :
    Same a0 (State.stackWrite s k b bs) ↔ Same a0 s := by
  simp [State.stackWrite]

@[simp] theorem same_use (a0 : State) (s : State) k :
    Same a0 (State.use s k) ↔ Same a0 s := by
  unfold State.use
  (try simp only [])
  repeat' (first | split | with_reducible exact Iff.rfl | refine (same_foldl _ _ _ _ fun _ _ => ?_).trans ?_ | refine (same_foldl_fst _ _ _ _ fun _ _ => ?_).trans ?_ | simp)

@[simp] theorem same_cqWrite (a0 : State) (s : State) p c :
    Same a0 (State.cqWrite s p c) ↔ Same a0 s := by
  simp [State.cqWrite]

@[simp] theorem same_post (a0 : State) (s : State) p c :
    Same a0 (State.post s p c) ↔ Same a0 s := by
  simp [State.post]

@[simp] theorem same_hostWrite (a0 : State) (s : State) h bs :
    Same a0 (State.hostWrite s h bs) ↔ Same a0 s := by
  simp [State.hostWrite]

@[simp] theorem same_complete (a0 : State) (s : State) h op st detail result :
    Same a0 (State.complete s h op st detail result) ↔ Same a0 s := by
  simp [State.complete]

@[simp] theorem same_interim (a0 : State) (s : State) h op st :
    Same a0 (State.interim s h op st) ↔ Same a0 s := by
  simp [State.interim]

@[simp] theorem same_finishOp (a0 : State) (s : State) o st detail result :
    Same a0 (State.finishOp s o st detail result) ↔ Same a0 s := by
  simp [State.finishOp]

@[simp] theorem same_abortOps (a0 : State) (s : State) p st detail :
    Same a0 (State.abortOps s p st detail) ↔ Same a0 s := by
  simp [State.abortOps]

@[simp] theorem same_mapInst (a0 : State) (s : State) i f :
    Same a0 (State.mapInst s i f) ↔ Same a0 s := by
  simp [State.mapInst]

@[simp] theorem same_raise (a0 : State) (s : State) i f :
    Same a0 (State.raise s i f) ↔ Same a0 s := by
  simp [State.raise]

@[simp] theorem same_markLate (a0 : State) (s : State) i :
    Same a0 (State.markLate s i) ↔ Same a0 s := by
  simp [State.markLate]

@[simp] theorem same_opDone (a0 : State) (s : State) i d :
    Same a0 (State.opDone s i d) ↔ Same a0 s := by
  unfold State.opDone
  (repeat' split) <;> simp

@[simp] theorem same_execOp (a0 : State) (s : State) i d sched :
    Same a0 (State.execOp s i d sched) ↔ Same a0 s := by
  simp [State.execOp]

@[simp] theorem same_raiseConds (a0 : State) (s : State) u i cs :
    Same a0 (State.raiseConds s u i cs) ↔ Same a0 s := by
  simp [State.raiseConds]

@[simp] theorem same_stallAt (a0 : State) (s : State) r u i cause :
    Same a0 (State.stallAt s r u i cause) ↔ Same a0 s := by
  unfold State.stallAt
  (try simp only [])
  repeat' (first | split | with_reducible exact Iff.rfl | refine (same_foldl _ _ _ _ fun _ _ => ?_).trans ?_ | refine (same_foldl_fst _ _ _ _ fun _ _ => ?_).trans ?_ | simp)

@[simp] theorem same_stall (a0 : State) (s : State) u i cause :
    Same a0 (State.stall s u i cause) ↔ Same a0 s := by
  simp [State.stall]

@[simp] theorem same_putChain (a0 : State) (s : State) p c :
    Same a0 (State.putChain s p c) ↔ Same a0 s := by
  simp [State.putChain]

@[simp] theorem same_ensureBatch (a0 : State) (s : State) p :
    Same a0 (State.ensureBatch s p) ↔ Same a0 s := by
  unfold State.ensureBatch
  (repeat' split) <;> simp

@[simp] theorem same_auditPush (a0 : State) (s : State) p e :
    Same a0 (State.auditPush s p e) ↔ Same a0 s := by
  unfold State.auditPush
  simp only []
  (repeat' split) <;> simp

@[simp] theorem same_auditClosing (a0 : State) (s : State) p final :
    Same a0 (State.auditClosing s p final) ↔ Same a0 s := by
  unfold State.auditClosing
  (repeat' split) <;> simp

@[simp] theorem same_auditCtrl (a0 : State) (s : State) p kind stream seq arg digest aux extra :
    Same a0 (State.auditCtrl s p kind stream seq arg digest aux extra) ↔ Same a0 s := by
  simp [State.auditCtrl]

@[simp] theorem same_closeReady (a0 : State) (s : State) p :
    Same a0 (State.closeReady s p) ↔ Same a0 s := by
  unfold State.closeReady
  (repeat' split) <;> simp

@[simp] theorem same_auditFill (a0 : State) (s : State) p i bytes :
    Same a0 (State.auditFill s p i bytes) ↔ Same a0 s := by
  unfold State.auditFill
  (repeat' split) <;> simp

/-! ### Time -/

@[simp] theorem same_tbTick (a0 : State) (s : State) :
    Same a0 (State.tbTick s) ↔ Same a0 s := by
  simp [State.tbTick]

@[simp] theorem same_tbKeep (a0 : State) (s : State) :
    Same a0 (State.tbKeep s) ↔ Same a0 s := by
  simp [State.tbKeep]

@[simp] theorem same_g1Tick (a0 : State) (s : State) :
    Same a0 (State.g1Tick s) ↔ Same a0 s := by
  simp [State.g1Tick]

@[simp] theorem same_tbQueue (a0 : State) (s : State) t n o :
    Same a0 (State.tbQueue s t n o) ↔ Same a0 s := by
  simp [State.tbQueue]

@[simp] theorem same_putAdj (a0 : State) (s : State) t a :
    Same a0 (State.putAdj s t a) ↔ Same a0 s := by
  simp [State.putAdj]

@[simp] theorem same_barrierEnd (a0 : State) (s : State) t :
    Same a0 (State.barrierEnd s t) ↔ Same a0 s := by
  unfold State.barrierEnd
  (repeat' split) <;> simp

@[simp] theorem same_tbMoved (a0 : State) (s : State) t v keepSamples :
    Same a0 (State.tbMoved s t v keepSamples) ↔ Same a0 s := by
  simp [State.tbMoved]

@[simp] theorem same_tbApply (a0 : State) (s : State) t a :
    Same a0 (State.tbApply s t a) ↔ Same a0 s := by
  unfold State.tbApply
  (repeat' split) <;> simp

@[simp] theorem same_timeBaseUpdate (a0 : State) (s : State) t :
    Same a0 (State.timeBaseUpdate s t) ↔ Same a0 s := by
  unfold State.timeBaseUpdate
  simp only []
  (repeat' split) <;> simp

@[simp] theorem same_tbSet (a0 : State) (s : State) t :
    Same a0 (State.tbSet s t) ↔ Same a0 s := by
  simp [State.tbSet]

@[simp] theorem same_tbStep (a0 : State) (s : State) t :
    Same a0 (State.tbStep s t) ↔ Same a0 s := by
  simp [State.tbStep]

@[simp] theorem same_tbSetOnPps (a0 : State) (s : State) t :
    Same a0 (State.tbSetOnPps s t) ↔ Same a0 s := by
  simp [State.tbSetOnPps]

@[simp] theorem same_manadjWrite (a0 : State) (s : State) t v :
    Same a0 (State.manadjWrite s t v) ↔ Same a0 s := by
  simp [State.manadjWrite]

@[simp] theorem same_tbCfgWrite (a0 : State) (s : State) t v :
    Same a0 (State.tbCfgWrite s t v) ↔ Same a0 s := by
  simp [State.tbCfgWrite]

@[simp] theorem same_servoSample (a0 : State) (s : State) t e0 :
    Same a0 (State.servoSample s t e0) ↔ Same a0 s := by
  simp [State.servoSample]

@[simp] theorem same_holdover (a0 : State) (s : State) t :
    Same a0 (State.holdover s t) ↔ Same a0 s := by
  simp [State.holdover]

@[simp] theorem same_ppsInEdge (a0 : State) (s : State) rising k c :
    Same a0 (State.ppsInEdge s rising k c) ↔ Same a0 s := by
  unfold State.ppsInEdge
  simp only []
  repeat' (first | split | with_reducible exact Iff.rfl | refine (same_foldl _ _ _ _ fun _ _ => ?_).trans ?_ | refine (same_foldl_fst _ _ _ _ fun _ _ => ?_).trans ?_ | simp)

@[simp] theorem same_ref10mInEdge (a0 : State) (s : State) k c ok :
    Same a0 (State.ref10mInEdge s k c ok) ↔ Same a0 s := by
  unfold State.ref10mInEdge
  simp only []
  repeat' (first | split | with_reducible exact Iff.rfl | refine (same_foldl _ _ _ _ fun _ _ => ?_).trans ?_ | refine (same_foldl_fst _ _ _ _ fun _ _ => ?_).trans ?_ | simp)

@[simp] theorem same_timSnap (a0 : State) (s : State) :
    Same a0 (State.timSnap s) ↔ Same a0 s := by
  simp [State.timSnap]

@[simp] theorem same_g1LoadDue (a0 : State) (s : State) :
    Same a0 (State.g1LoadDue s) ↔ Same a0 s := by
  simp [State.g1LoadDue]

@[simp] theorem same_ptpSample (a0 : State) (s : State) t d :
    Same a0 (State.ptpSample s t d) ↔ Same a0 s := by
  simp [State.ptpSample]

@[simp] theorem same_ptpSync (a0 : State) (s : State) psel k m msg :
    Same a0 (State.ptpSync s psel k m msg) ↔ Same a0 s := by
  unfold State.ptpSync
  simp only []
  repeat' (first | split | with_reducible exact Iff.rfl | refine (same_foldl _ _ _ _ fun _ _ => ?_).trans ?_ | refine (same_foldl_fst _ _ _ _ fun _ _ => ?_).trans ?_ | simp)

@[simp] theorem same_ptpFollowUp (a0 : State) (s : State) psel msg :
    Same a0 (State.ptpFollowUp s psel msg) ↔ Same a0 s := by
  unfold State.ptpFollowUp
  simp only []
  repeat' (first | split | with_reducible exact Iff.rfl | refine (same_foldl _ _ _ _ fun _ _ => ?_).trans ?_ | refine (same_foldl_fst _ _ _ _ fun _ _ => ?_).trans ?_ | simp)

@[simp] theorem same_ptpDelayReq (a0 : State) (s : State) t k m :
    Same a0 (State.ptpDelayReq s t k m) ↔ Same a0 s := by
  unfold State.ptpDelayReq
  (repeat' split) <;> simp

@[simp] theorem same_ptpDelayResp (a0 : State) (s : State) psel msg :
    Same a0 (State.ptpDelayResp s psel msg) ↔ Same a0 s := by
  unfold State.ptpDelayResp
  simp only []
  repeat' (first | split | with_reducible exact Iff.rfl | refine (same_foldl _ _ _ _ fun _ _ => ?_).trans ?_ | refine (same_foldl_fst _ _ _ _ fun _ _ => ?_).trans ?_ | simp)

@[simp] theorem same_putOut (a0 : State) (s : State) p x :
    Same a0 (State.putOut s p x) ↔ Same a0 s := by
  simp [State.putOut]

@[simp] theorem same_sendFrame (a0 : State) (s : State) p f :
    Same a0 (State.sendFrame s p f) ↔ Same a0 s := by
  simp [State.sendFrame]

@[simp] theorem same_tcDiscard (a0 : State) (s : State) :
    Same a0 (State.tcDiscard s) ↔ Same a0 s := by
  simp [State.tcDiscard]

@[simp] theorem same_tcMessage (a0 : State) (s : State) psel k m f :
    Same a0 (State.tcMessage s psel k m f) ↔ Same a0 s := by
  unfold State.tcMessage
  (repeat' split) <;> simp

@[simp] theorem same_tcSend (a0 : State) (s : State) psel k m :
    Same a0 (State.tcSend s psel k m) ↔ Same a0 s := by
  unfold State.tcSend
  (repeat' split) <;> simp

/-! ### Wyile -/

@[simp] theorem same_putWlink (a0 : State) (s : State) n x :
    Same a0 (State.putWlink s n x) ↔ Same a0 s := by
  simp [State.putWlink]

@[simp] theorem same_putWlane (a0 : State) (s : State) n x v :
    Same a0 (State.putWlane s n x v) ↔ Same a0 s := by
  simp [State.putWlane]

@[simp] theorem same_wylHand (a0 : State) (s : State) d ep c t :
    Same a0 (State.wylHand s d ep c t) ↔ Same a0 s := by
  unfold State.wylHand
  (repeat' split) <;> simp

@[simp] theorem same_svcSend (a0 : State) (s : State) n m :
    Same a0 (State.svcSend s n m) ↔ Same a0 s := by
  simp [State.svcSend]

@[simp] theorem same_badMsg (a0 : State) (s : State) :
    Same a0 (State.badMsg s) ↔ Same a0 s := by
  simp [State.badMsg]

@[simp] theorem same_svcRoute (a0 : State) (s : State) m :
    Same a0 (State.svcRoute s m) ↔ Same a0 s := by
  simp [State.svcRoute]

@[simp] theorem same_svcReceive (a0 : State) (s : State) n m :
    Same a0 (State.svcReceive s n m) ↔ Same a0 s := by
  simp [State.svcReceive]

theorem same_svcTake {s s' : State} {n t : Nat} {m : SvcMsg} (h : s.svcTake n t = some (m, s')) (a0 : State) :
    Same a0 s' ↔ Same a0 s := by
  unfold State.svcTake at h
  simp only [] at h
  split at h <;> simp at h
  rw [← h.2]
  simp

@[simp] theorem same_svcPlan (a0 : State) (s : State) n :
    Same a0 (State.svcPlan s n) ↔ Same a0 s := by
  simp [State.svcPlan]

@[simp] theorem same_wylCatchup (a0 : State) (s : State) n :
    Same a0 (State.wylCatchup s n) ↔ Same a0 s := by
  simp [State.wylCatchup]

@[simp] theorem same_ctlPut (a0 : State) (s : State) body :
    Same a0 (State.ctlPut s body) ↔ Same a0 s := by
  unfold State.ctlPut
  (repeat' split) <;> simp

@[simp] theorem same_ctlMessage (a0 : State) (s : State) b :
    Same a0 (State.ctlMessage s b) ↔ Same a0 s := by
  simp [State.ctlMessage]

@[simp] theorem same_ctlFlush (a0 : State) (s : State) (fuel : Nat) :
    Same a0 (State.ctlFlush s fuel) ↔ Same a0 s := by
  induction fuel generalizing s with
  | zero => rfl
  | succ f ih =>
    rw [State.ctlFlush]
    simp only []
    (repeat' split) <;> simp [ih]

@[simp] theorem same_wyileFrameSend (a0 : State) (s : State) d i x :
    Same a0 (State.wyileFrameSend s d i x) ↔ Same a0 s := by
  unfold State.wyileFrameSend
  simp only []
  (repeat' split) <;> simp

@[simp] theorem same_wylFresh (a0 : State) (s : State) n :
    Same a0 (State.wylFresh s n) ↔ Same a0 s := by
  simp [State.wylFresh]

@[simp] theorem same_wylDown (a0 : State) (s : State) n :
    Same a0 (State.wylDown s n) ↔ Same a0 s := by
  simp [State.wylDown]

@[simp] theorem same_wylUntrain (a0 : State) (s : State) n :
    Same a0 (State.wylUntrain s n) ↔ Same a0 s := by
  simp [State.wylUntrain]

@[simp] theorem same_wylRequest (a0 : State) (s : State) n x k :
    Same a0 (State.wylRequest s n x k) ↔ Same a0 s := by
  unfold State.wylRequest
  simp only []
  (repeat' split) <;> simp

@[simp] theorem same_wylFailed (a0 : State) (s : State) d n x :
    Same a0 (State.wylFailed s d n x) ↔ Same a0 s := by
  simp [State.wylFailed]

@[simp] theorem same_wylTokens (a0 : State) (s : State) d n x num valid slots :
    Same a0 (State.wylTokens s d n x num valid slots) ↔ Same a0 s := by
  simp [State.wylTokens]

@[simp] theorem same_wylSegments (a0 : State) (s : State) n valid slots :
    Same a0 (State.wylSegments s n valid slots) ↔ Same a0 s := by
  simp [State.wylSegments]

@[simp] theorem same_wyileFrameReceive (a0 : State) (s : State) d i x b ok :
    Same a0 (State.wyileFrameReceive s d i x b ok) ↔ Same a0 s := by
  simp [State.wyileFrameReceive]

@[simp] theorem same_nakRetry (a0 : State) (s : State) d i x :
    Same a0 (State.nakRetry s d i x) ↔ Same a0 s := by
  unfold State.nakRetry
  simp only []
  (repeat' split) <;> simp

@[simp] theorem same_wyileTrainingDone (a0 : State) (s : State) d i trips :
    Same a0 (State.wyileTrainingDone s d i trips) ↔ Same a0 s := by
  simp [State.wyileTrainingDone]

@[simp] theorem same_wylBarrier (a0 : State) (s : State) :
    Same a0 (State.wylBarrier s) ↔ Same a0 s := by
  simp [State.wylBarrier]

@[simp] theorem same_timeReqSend (a0 : State) (s : State) d i k m :
    Same a0 (State.timeReqSend s d i k m) ↔ Same a0 s := by
  simp [State.timeReqSend]

@[simp] theorem same_timeReqAnswer (a0 : State) (s : State) d i k2 m2 k3 m3 :
    Same a0 (State.timeReqAnswer s d i k2 m2 k3 m3) ↔ Same a0 s := by
  unfold State.timeReqAnswer
  simp only []
  split
  · rfl
  · next h =>
    rw [← same_svcTake h a0]
    (repeat' split) <;> simp

@[simp] theorem same_timeRspTake (a0 : State) (s : State) d i k m :
    Same a0 (State.timeRspTake s d i k m) ↔ Same a0 s := by
  unfold State.timeRspTake
  simp only []
  split
  · rfl
  · next h =>
    rw [← same_svcTake h a0]
    split
    · simp
    · refine (same_foldl _ _ _ _ fun _ _ => ?_).trans (by simp)
      (repeat' split) <;> simp

@[simp] theorem same_wylPkgWrite (a0 : State) (s : State) v :
    Same a0 (State.wylPkgWrite s v) ↔ Same a0 s := by
  simp [State.wylPkgWrite]

@[simp] theorem same_wylCfgWrite (a0 : State) (s : State) n v :
    Same a0 (State.wylCfgWrite s n v) ↔ Same a0 s := by
  simp [State.wylCfgWrite]

@[simp] theorem same_wylLatWrite (a0 : State) (s : State) n v :
    Same a0 (State.wylLatWrite s n v) ↔ Same a0 s := by
  simp [State.wylLatWrite]

/-! ### Ingest -/

@[simp] theorem same_setSeq (a0 : State) (s : State) d st v :
    Same a0 (State.setSeq s d st v) ↔ Same a0 s := by
  simp [State.setSeq]

@[simp] theorem same_putStrm (a0 : State) (s : State) d st x :
    Same a0 (State.putStrm s d st x) ↔ Same a0 s := by
  simp [State.putStrm]

@[simp] theorem same_putGrp (a0 : State) (s : State) g x :
    Same a0 (State.putGrp s g x) ↔ Same a0 s := by
  simp [State.putGrp]

@[simp] theorem same_refuse (a0 : State) (s : State) d st k :
    Same a0 (State.refuse s d st k) ↔ Same a0 s := by
  simp [State.refuse]

@[simp] theorem same_closedArrivals (a0 : State) (s : State) d st n :
    Same a0 (State.closedArrivals s d st n) ↔ Same a0 s := by
  simp [State.closedArrivals]

@[simp] theorem same_closeStream (a0 : State) (s : State) d st :
    Same a0 (State.closeStream s d st) ↔ Same a0 s := by
  simp [State.closeStream]

@[simp] theorem same_closePart (a0 : State) (s : State) p :
    Same a0 (State.closePart s p) ↔ Same a0 s := by
  unfold State.closePart
  (repeat' split) <;> simp

@[simp] theorem same_sourceFrame (a0 : State) (s : State) d src cls pay :
    Same a0 (State.sourceFrame s d src cls pay) ↔ Same a0 s := by
  unfold State.sourceFrame
  simp only []
  repeat' (first | split | with_reducible exact Iff.rfl | refine (same_foldl _ _ _ _ fun _ _ => ?_).trans ?_ | refine (same_foldl_fst _ _ _ _ fun _ _ => ?_).trans ?_ | simp)

@[simp] theorem same_badFrame (a0 : State) (s : State) d src :
    Same a0 (State.badFrame s d src) ↔ Same a0 s := by
  simp [State.badFrame]

@[simp] theorem same_queueRepair (a0 : State) (s : State) d kind key part :
    Same a0 (State.queueRepair s d kind key part) ↔ Same a0 s := by
  simp [State.queueRepair]

@[simp] theorem same_mapLayers (a0 : State) (s : State) p f :
    Same a0 (State.mapLayers s p f) ↔ Same a0 s := by
  simp [State.mapLayers]

@[simp] theorem same_sideWrite1 (a0 : State) (s : State) k l x e :
    Same a0 (State.sideWrite1 s k l x e) ↔ Same a0 s := by
  unfold State.sideWrite1
  (try simp only [])
  repeat' (first | split | with_reducible exact Iff.rfl | refine (same_foldl _ _ _ _ fun _ _ => ?_).trans ?_ | refine (same_foldl_fst _ _ _ _ fun _ _ => ?_).trans ?_ | simp)

@[simp] theorem same_sideWrite (a0 : State) (s : State) k l x es :
    Same a0 (State.sideWrite s k l x es) ↔ Same a0 s := by
  unfold State.sideWrite
  (try simp only [])
  repeat' (first | split | with_reducible exact Iff.rfl | refine (same_foldl _ _ _ _ fun _ _ => ?_).trans ?_ | refine (same_foldl_fst _ _ _ _ fun _ _ => ?_).trans ?_ | simp)

@[simp] theorem same_gauIngest (a0 : State) (s : State) d st x sides es :
    Same a0 (State.gauIngest s d st x sides es) ↔ Same a0 s := by
  simp [State.gauIngest]

@[simp] theorem same_admHold (a0 : State) (s : State) d ep st t tok i :
    Same a0 (State.admHold s d ep st t tok i) ↔ Same a0 s := by
  unfold State.admHold
  (try simp only [])
  repeat' (first | split | with_reducible exact Iff.rfl | refine (same_foldl _ _ _ _ fun _ _ => ?_).trans ?_ | refine (same_foldl_fst _ _ _ _ fun _ _ => ?_).trans ?_ | simp)

@[simp] theorem same_toLattice (a0 : State) (s : State) d st x lowest seq raw :
    Same a0 (State.toLattice s d st x lowest seq raw) ↔ Same a0 s := by
  unfold State.toLattice
  (repeat' split) <;> simp

@[simp] theorem same_enter (a0 : State) (s : State) e :
    Same a0 (State.enter s e) ↔ Same a0 s := by
  unfold State.enter
  (try simp only [])
  repeat' (first | split | with_reducible exact Iff.rfl | refine (same_foldl _ _ _ _ fun _ _ => ?_).trans ?_ | refine (same_foldl_fst _ _ _ _ fun _ _ => ?_).trans ?_ | simp)

@[simp] theorem same_enterAll (a0 : State) (s : State) :
    Same a0 (State.enterAll s) ↔ Same a0 s := by
  unfold State.enterAll
  (try simp only [])
  repeat' (first | split | with_reducible exact Iff.rfl | refine (same_foldl _ _ _ _ fun _ _ => ?_).trans ?_ | refine (same_foldl_fst _ _ _ _ fun _ _ => ?_).trans ?_ | simp)

@[simp] theorem same_markOld (a0 : State) (s : State) :
    Same a0 (State.markOld s) ↔ Same a0 s := by
  unfold State.markOld
  (try simp only [])
  repeat' (first | split | with_reducible exact Iff.rfl | refine (same_foldl _ _ _ _ fun _ _ => ?_).trans ?_ | refine (same_foldl_fst _ _ _ _ fun _ _ => ?_).trans ?_ | simp)

@[simp] theorem same_admMove (a0 : State) (s : State) key :
    Same a0 (State.admMove s key) ↔ Same a0 s := by
  unfold State.admMove
  (try simp only [])
  repeat' (first | split | with_reducible exact Iff.rfl | refine (same_foldl _ _ _ _ fun _ _ => ?_).trans ?_ | refine (same_foldl_fst _ _ _ _ fun _ _ => ?_).trans ?_ | simp)

@[simp] theorem same_admMoves (a0 : State) (s : State) :
    Same a0 (State.admMoves s) ↔ Same a0 s := by
  unfold State.admMoves
  (try simp only [])
  repeat' (first | split | with_reducible exact Iff.rfl | refine (same_foldl _ _ _ _ fun _ _ => ?_).trans ?_ | refine (same_foldl_fst _ _ _ _ fun _ _ => ?_).trans ?_ | simp)

@[simp] theorem same_dueFirings (a0 : State) (s : State) im sec g i t :
    Same a0 (State.dueFirings s im sec g i t) ↔ Same a0 s := by
  simp [State.dueFirings]

@[simp] theorem same_trigBoundary (a0 : State) (s : State) p b :
    Same a0 (State.trigBoundary s p b) ↔ Same a0 s := by
  simp [State.trigBoundary]

@[simp] theorem same_modeBoundary (a0 : State) (s : State) x :
    Same a0 (State.modeBoundary s x) ↔ Same a0 s := by
  unfold State.modeBoundary
  simp only []
  (repeat' split) <;> simp

@[simp] theorem same_createInst (a0 : State) (s : State) p im r d st seq raw :
    Same a0 (State.createInst s p im r d st seq raw) ↔ Same a0 s := by
  simp [State.createInst]

@[simp] theorem same_takeWaiting (a0 : State) (s : State) d st seq :
    Same a0 (State.takeWaiting s d st seq) ↔ Same a0 s := by
  simp [State.takeWaiting]

@[simp] theorem same_placeSideOn (a0 : State) (s : State) d st x sides low ev :
    Same a0 (State.placeSideOn s d st x sides low ev) ↔ Same a0 s := by
  simp [State.placeSideOn]

@[simp] theorem same_placeSide (a0 : State) (s : State) d st :
    Same a0 (State.placeSide s d st) ↔ Same a0 s := by
  unfold State.placeSide
  split
  · split
    · rfl
    · exact same_placeSideOn ..
  · rfl

@[simp] theorem same_placeSides (a0 : State) (s : State) sts :
    Same a0 (State.placeSides s sts) ↔ Same a0 s := by
  simp [State.placeSides]

@[simp] theorem same_acceptEntry (a0 : State) (s : State) d st :
    Same a0 (State.acceptEntry s d st) ↔ Same a0 s := by
  unfold State.acceptEntry
  (repeat' split) <;> simp

@[simp] theorem same_acceptOnly (a0 : State) (s : State) d st :
    Same a0 (State.acceptOnly s d st) ↔ Same a0 s := by
  unfold State.acceptOnly
  (repeat' split) <;> simp

@[simp] theorem same_refuseHead (a0 : State) (s : State) d st k :
    Same a0 (State.refuseHead s d st k) ↔ Same a0 s := by
  unfold State.refuseHead
  (repeat' split) <;> simp

@[simp] theorem same_eventAssembly (a0 : State) (s : State) d st :
    Same a0 (State.eventAssembly s d st) ↔ Same a0 s := by
  unfold State.eventAssembly
  simp only []
  (repeat' split) <;> simp

/-! ### Capture -/

@[simp] theorem same_putCond (a0 : State) (s : State) c x :
    Same a0 (State.putCond s c x) ↔ Same a0 s := by
  simp [State.putCond]

@[simp] theorem same_putTable (a0 : State) (s : State) t x :
    Same a0 (State.putTable s t x) ↔ Same a0 s := by
  simp [State.putTable]

@[simp] theorem same_ringWrite (a0 : State) (s : State) g n bs :
    Same a0 (State.ringWrite s g n bs) ↔ Same a0 s := by
  simp [State.ringWrite]

@[simp] theorem same_deepDeliver (a0 : State) (s : State) g st bs :
    Same a0 (State.deepDeliver s g st bs) ↔ Same a0 s := by
  unfold State.deepDeliver
  simp only []
  (repeat' split) <;> simp

@[simp] theorem same_recordLost (a0 : State) (s : State) g :
    Same a0 (State.recordLost s g) ↔ Same a0 s := by
  simp [State.recordLost]

@[simp] theorem same_triggerAt (a0 : State) (s : State) g frame sample p :
    Same a0 (State.triggerAt s g frame sample p) ↔ Same a0 s := by
  simp [State.triggerAt]

@[simp] theorem same_trigger (a0 : State) (s : State) g pt p :
    Same a0 (State.trigger s g pt p) ↔ Same a0 s := by
  unfold State.trigger
  (repeat' split) <;> simp

@[simp] theorem same_coincInput (a0 : State) (s : State) c tau pt :
    Same a0 (State.coincInput s c tau pt) ↔ Same a0 s := by
  unfold State.coincInput
  simp only []
  repeat' (first | split | with_reducible exact Iff.rfl | refine (same_foldl _ _ _ _ fun _ _ => ?_).trans ?_ | refine (same_foldl_fst _ _ _ _ fun _ _ => ?_).trans ?_ | simp)

@[simp] theorem same_trigSend (a0 : State) (s : State) c tau :
    Same a0 (State.trigSend s c tau) ↔ Same a0 s := by
  simp [State.trigSend]

@[simp] theorem same_condPass (a0 : State) (s : State) c x tau inst pt :
    Same a0 (State.condPass s c x tau inst pt) ↔ Same a0 s := by
  simp [State.condPass]

@[simp] theorem same_occurrence (a0 : State) (s : State) c tau pt :
    Same a0 (State.occurrence s c tau pt) ↔ Same a0 s := by
  unfold State.occurrence
  (repeat' split) <;> simp

@[simp] theorem same_trigToken (a0 : State) (s : State) d i cyc t :
    Same a0 (State.trigToken s d i cyc t) ↔ Same a0 s := by
  unfold State.trigToken
  simp only []
  (repeat' split) <;> simp

@[simp] theorem same_latticeOccurrence (a0 : State) (s : State) d ep :
    Same a0 (State.latticeOccurrence s d ep) ↔ Same a0 s := by
  unfold State.latticeOccurrence
  simp only []
  (repeat' split) <;> simp

@[simp] theorem same_pinEdge (a0 : State) (s : State) pin rising k c :
    Same a0 (State.pinEdge s pin rising k c) ↔ Same a0 s := by
  simp [State.pinEdge]

@[simp] theorem same_driveTrig (a0 : State) (s : State) pin b :
    Same a0 (State.driveTrig s pin b) ↔ Same a0 s := by
  simp [State.driveTrig]

@[simp] theorem same_trigOutPulse (a0 : State) (s : State) pin :
    Same a0 (State.trigOutPulse s pin) ↔ Same a0 s := by
  simp [State.trigOutPulse]

@[simp] theorem same_trigOutPulseEnd (a0 : State) (s : State) pin :
    Same a0 (State.trigOutPulseEnd s pin) ↔ Same a0 s := by
  simp [State.trigOutPulseEnd]

@[simp] theorem same_tdcCalStart (a0 : State) (s : State) n :
    Same a0 (State.tdcCalStart s n) ↔ Same a0 s := by
  simp [State.tdcCalStart]

@[simp] theorem same_tdcCalDone (a0 : State) (s : State) n h :
    Same a0 (State.tdcCalDone s n h) ↔ Same a0 s := by
  simp [State.tdcCalDone]

@[simp] theorem same_coincClose (a0 : State) (s : State) n :
    Same a0 (State.coincClose s n) ↔ Same a0 s := by
  unfold State.coincClose
  simp only []
  (repeat' split) <;> simp

@[simp] theorem same_formFrame (a0 : State) (s : State) gi evs inst :
    Same a0 (State.formFrame s gi evs inst) ↔ Same a0 s := by
  simp [State.formFrame]

@[simp] theorem same_groupSlot (a0 : State) (s : State) gi g :
    Same a0 (State.groupSlot s gi g) ↔ Same a0 s := by
  unfold State.groupSlot
  simp only []
  repeat' (first | split | with_reducible exact Iff.rfl | refine (same_foldl _ _ _ _ fun _ _ => ?_).trans ?_ | refine (same_foldl_fst _ _ _ _ fun _ _ => ?_).trans ?_ | simp)

@[simp] theorem same_entrySlot (a0 : State) (s : State) d st :
    Same a0 (State.entrySlot s d st) ↔ Same a0 s := by
  unfold State.entrySlot
  simp only []
  (repeat' split) <;> simp

@[simp] theorem same_capRetire (a0 : State) (s : State) x :
    Same a0 (State.capRetire s x) ↔ Same a0 s := by
  simp [State.capRetire]

@[simp] theorem same_seal (a0 : State) (s : State) gi r :
    Same a0 (State.seal s gi r) ↔ Same a0 s := by
  simp [State.seal]

@[simp] theorem same_recordSeal (a0 : State) (s : State) gi :
    Same a0 (State.recordSeal s gi) ↔ Same a0 s := by
  unfold State.recordSeal
  simp only []
  (repeat' split) <;> simp

@[simp] theorem same_triggerPointAssign (a0 : State) (s : State) gi :
    Same a0 (State.triggerPointAssign s gi) ↔ Same a0 s := by
  unfold State.triggerPointAssign
  simp only []
  (repeat' split) <;> simp

@[simp] theorem same_hostSlotPut (a0 : State) (s : State) gi bs :
    Same a0 (State.hostSlotPut s gi bs) ↔ Same a0 s := by
  unfold State.hostSlotPut
  simp only []
  (repeat' split) <;> simp

@[simp] theorem same_recordDelivery (a0 : State) (s : State) gi :
    Same a0 (State.recordDelivery s gi) ↔ Same a0 s := by
  unfold State.recordDelivery
  simp only []
  (repeat' split) <;> simp

@[simp] theorem same_deliverAll (a0 : State) (s : State) gi :
    Same a0 (State.deliverAll s gi) ↔ Same a0 s := by
  simp [State.deliverAll]

@[simp] theorem same_flushSlot (a0 : State) (s : State) gi :
    Same a0 (State.flushSlot s gi) ↔ Same a0 s := by
  simp [State.flushSlot]

@[simp] theorem same_streamCopy (a0 : State) (s : State) gi :
    Same a0 (State.streamCopy s gi) ↔ Same a0 s := by
  unfold State.streamCopy
  simp only []
  (repeat' split) <;> simp

@[simp] theorem same_refusal (a0 : State) (s : State) st det :
    Same a0 (refusal s st det).1 ↔ Same a0 s := by
  simp [refusal]

@[simp] theorem same_armCmd (a0 : State) (s : State) port p gi b :
    Same a0 (State.armCmd s port p gi b).1 ↔ Same a0 s := by
  unfold State.armCmd
  (repeat' split) <;> simp

@[simp] theorem same_disarm (a0 : State) (s : State) gi :
    Same a0 (State.disarm s gi) ↔ Same a0 s := by
  simp [State.disarm]

@[simp] theorem same_disarmPart (a0 : State) (s : State) p :
    Same a0 (State.disarmPart s p) ↔ Same a0 s := by
  simp [State.disarmPart]

@[simp] theorem same_disarmCmd (a0 : State) (s : State) p gi :
    Same a0 (State.disarmCmd s p gi).1 ↔ Same a0 s := by
  simp [State.disarmCmd]

@[simp] theorem same_forceCmd (a0 : State) (s : State) port c :
    Same a0 (State.forceCmd s port c).1 ↔ Same a0 s := by
  unfold State.forceCmd
  (repeat' split) <;> simp

@[simp] theorem same_settleTriggers (a0 : State) (s : State) :
    Same a0 (State.settleTriggers s) ↔ Same a0 s := by
  simp [State.settleTriggers]

@[simp] theorem same_kind1Stage (a0 : State) (s : State) b :
    Same a0 (State.kind1Stage s b) ↔ Same a0 s := by
  simp [State.kind1Stage]

@[simp] theorem same_kind1Drop (a0 : State) (s : State) p :
    Same a0 (State.kind1Drop s p) ↔ Same a0 s := by
  simp [State.kind1Drop]

@[simp] theorem same_triggerMsg (a0 : State) (s : State) d i :
    Same a0 (State.triggerMsg s d i) ↔ Same a0 s := by
  unfold State.triggerMsg
  split
  · rfl
  · next h =>
    rw [← same_svcTake h a0]
    simp only []
    (repeat' split) <;> simp

/-! ### Release -/

@[simp] theorem same_endFrame (a0 : State) (s : State) p t bad f :
    Same a0 (State.endFrame s p t bad f) ↔ Same a0 s := by
  simp [State.endFrame]

@[simp] theorem same_frameToken (a0 : State) (s : State) p x tok :
    Same a0 (State.frameToken s p x tok) ↔ Same a0 s := by
  unfold State.frameToken
  simp only []
  (repeat' split) <;> simp

@[simp] theorem same_mittenForm (a0 : State) (s : State) x :
    Same a0 (State.mittenForm s x) ↔ Same a0 s := by
  unfold State.mittenForm
  (repeat' split) <;> simp

@[simp] theorem same_deepHeader (a0 : State) (s : State) p x e tag faulted :
    Same a0 (State.deepHeader s p x e tag faulted) ↔ Same a0 s := by
  unfold State.deepHeader
  (repeat' split) <;> simp

@[simp] theorem same_deepFirst (a0 : State) (s : State) i :
    Same a0 (State.deepFirst s i) ↔ Same a0 s := by
  unfold State.deepFirst
  (repeat' split) <;> simp

@[simp] theorem same_instEnd (a0 : State) (s : State) i :
    Same a0 (State.instEnd s i) ↔ Same a0 s := by
  unfold State.instEnd
  (repeat' split) <;> simp

@[simp] theorem same_doOp (a0 : State) (s : State) i d sched :
    Same a0 (State.doOp s i d sched) ↔ Same a0 s := by
  simp [State.doOp]

@[simp] theorem same_lateEvent (a0 : State) (s : State) d x :
    Same a0 (State.lateEvent s d x) ↔ Same a0 s := by
  unfold State.lateEvent
  (try simp only [])
  repeat' (first | split | with_reducible exact Iff.rfl | refine (same_foldl _ _ _ _ fun _ _ => ?_).trans ?_ | refine (same_foldl_fst _ _ _ _ fun _ _ => ?_).trans ?_ | simp)

@[simp] theorem same_lastRelease (a0 : State) (s : State) d x :
    Same a0 (State.lastRelease s d x) ↔ Same a0 s := by
  simp [State.lastRelease]

@[simp] theorem same_firstRelease (a0 : State) (s : State) d x :
    Same a0 (State.firstRelease s d x) ↔ Same a0 s := by
  simp [State.firstRelease]

@[simp] theorem same_countRelease (a0 : State) (s : State) d ep late x tok :
    Same a0 (State.countRelease s d ep late x tok) ↔ Same a0 s := by
  unfold State.countRelease
  simp only []
  (repeat' split) <;> simp

@[simp] theorem same_releaseResult (a0 : State) (s : State) d ep due h :
    Same a0 (State.releaseResult s d ep due h) ↔ Same a0 s := by
  unfold State.releaseResult
  simp only []
  (repeat' split) <;> simp

@[simp] theorem same_deepStop (a0 : State) (s : State) p :
    Same a0 (State.deepStop s p) ↔ Same a0 s := by
  unfold State.deepStop
  repeat' (first | split | with_reducible exact Iff.rfl | refine (same_foldl _ _ _ _ fun _ _ => ?_).trans ?_ | simp)

@[simp] theorem same_stopPartition (a0 : State) (s : State) p k :
    Same a0 (State.stopPartition s p k) ↔ Same a0 s := by
  simp [State.stopPartition]

@[simp] theorem same_stopOn (a0 : State) (s : State) d p k :
    Same a0 (State.stopOn s d p k) ↔ Same a0 s := by
  simp [State.stopOn]

@[simp] theorem same_gated (a0 : State) (s : State) d :
    Same a0 (State.gated s d) ↔ Same a0 s := by
  simp [State.gated]

end Sys2Proof.Machine
end

