-- ==== Sys2Proof/Laws/SameLattice.lean ====
section
/-! SUPPORT. `Same` through the operations of the units, the fabrics, the rescale stages and the gauntlets. -/

namespace Sys2Proof.Machine

/-! ### Units -/

@[simp] theorem same_sramWrite (a0 : State) (s : State) k a b :
    Same a0 (State.sramWrite s k a b) ↔ Same a0 s := by
  simp [State.sramWrite]

@[simp] theorem same_roFault (a0 : State) (s : State) d code kind key detail u p i :
    Same a0 (State.roFault s d code kind key detail u p i) ↔ Same a0 s := by
  simp [State.roFault]

@[simp] theorem same_rwFault (a0 : State) (s : State) d detail u i :
    Same a0 (State.rwFault s d detail u i) ↔ Same a0 s := by
  simp [State.rwFault]

@[simp] theorem same_cfgCheck (a0 : State) (s : State) u i as :
    Same a0 (State.cfgCheck s u i as).1 ↔ Same a0 s := by
  simp [State.cfgCheck]

@[simp] theorem same_roCheck (a0 : State) (s : State) u a bad i :
    Same a0 (State.roCheck s u a bad i).1 ↔ Same a0 s := by
  simp [State.roCheck]

@[simp] theorem same_sideFault (a0 : State) (s : State) u q h :
    Same a0 (State.sideFault s u q h).1 ↔ Same a0 s := by
  simp [State.sideFault]

@[simp] theorem same_arrive (a0 : State) (s : State) u q f h :
    Same a0 (State.arrive s u q f h).1 ↔ Same a0 s := by
  unfold State.arrive
  extract_lets
  split
  rename_i s1 h1 heq
  have key : Same a0 s1 ↔ Same a0 s := by
    rw [← show _ = s1 from congrArg Prod.fst heq]
    simp
  rw [← key]
  extract_lets
  split
  · split
    exact ((same_fault ..).trans (same_count ..)).trans ((same_firstRecord ..).trans (same_addReg ..))
  · rfl

@[simp] theorem same_mapLayer (a0 : State) (s : State) k f :
    Same a0 (State.mapLayer s k f) ↔ Same a0 s := by
  simp [State.mapLayer]

@[simp] theorem same_enqueue (a0 : State) (s : State) u q h :
    Same a0 (State.enqueue s u q h) ↔ Same a0 s := by
  unfold State.enqueue
  (repeat' split) <;> simp

@[simp] theorem same_deliver (a0 : State) (s : State) u q h :
    Same a0 (State.deliver s u q h) ↔ Same a0 s := by
  have key := same_arrive a0 s u q (s.uFmt u q) h
  unfold State.deliver
  split <;> next heq => rw [heq] at key; simpa using key

@[simp] theorem same_deliverScale (a0 : State) (s : State) k h :
    Same a0 (State.deliverScale s k h) ↔ Same a0 s := by
  have key := same_arrive a0 s (32 * k + 20) 0 .int8 h
  unfold State.deliverScale
  split <;> next heq => rw [heq] at key; simpa using key

@[simp] theorem same_headCheck (a0 : State) (s : State) u q :
    Same a0 (State.headCheck s u q) ↔ Same a0 s := by
  unfold State.headCheck
  simp only []
  (repeat' split) <;> simp

@[simp] theorem same_scaleHeadCheck (a0 : State) (s : State) k :
    Same a0 (State.scaleHeadCheck s k) ↔ Same a0 s := by
  unfold State.scaleHeadCheck
  (try simp only [])
  repeat' (first | split | with_reducible exact Iff.rfl | refine (same_foldl _ _ _ _ fun _ _ => ?_).trans ?_ | refine (same_foldl_fst _ _ _ _ fun _ _ => ?_).trans ?_ | simp)

@[simp] theorem same_make (a0 : State) (s : State) u i seq blk taint last ps :
    Same a0 (State.make s u i seq blk taint last ps).1 ↔ Same a0 s := by
  simp [State.make]

@[simp] theorem same_pop (a0 : State) (s : State) u q n :
    Same a0 (State.pop s u q n).1 ↔ Same a0 s := by
  simp [State.pop]

@[simp] theorem same_consume (a0 : State) (s : State) u ts :
    Same a0 (State.consume s u ts).1 ↔ Same a0 s := by
  simp [State.consume]

/-! ### Firing -/

@[simp] theorem same_monitorIn (a0 : State) (s : State) u x h es :
    Same a0 (State.monitorIn s u x h es) ↔ Same a0 s := by
  unfold State.monitorIn
  simp only []
  repeat' (first | split | with_reducible exact Iff.rfl | refine (same_foldl _ _ _ _ fun _ _ => ?_).trans ?_ | refine (same_foldl_fst _ _ _ _ fun _ _ => ?_).trans ?_ | simp)

@[simp] theorem same_raiseUnit (a0 : State) (s : State) u i cs :
    Same a0 (State.raiseUnit s u i cs) ↔ Same a0 s := by
  unfold State.raiseUnit
  (repeat' split) <;> simp

@[simp] theorem same_fireMac (a0 : State) (s : State) u i ts taint :
    Same a0 (State.fireMac s u i ts taint).1 ↔ Same a0 s := by
  unfold State.fireMac
  simp only []
  (repeat' split) <;> simp

@[simp] theorem same_steerCheck (a0 : State) (s : State) u i raw v :
    Same a0 (State.steerCheck s u i raw v) ↔ Same a0 s := by
  unfold State.steerCheck
  (repeat' split) <;> simp

@[simp] theorem same_steerTake (a0 : State) (s : State) u i x op v cb q last emit :
    Same a0 (State.steerTake s u i x op v cb q last emit).1 ↔ Same a0 s := by
  simp [State.steerTake]

@[simp] theorem same_fireSteer (a0 : State) (s : State) u i ts taint :
    Same a0 (State.fireSteer s u i ts taint).1 ↔ Same a0 s := by
  unfold State.fireSteer
  simp only []
  split
  · split <;> rfl
  · split
    · exact same_steerCheck ..
    · split
      · exact same_steerCheck ..
      · exact (same_steerTake ..).trans (same_steerCheck ..)

@[simp] theorem same_fireTree (a0 : State) (s : State) u i h taint :
    Same a0 (State.fireTree s u i h taint).1 ↔ Same a0 s := by
  simp [State.fireTree]

@[simp] theorem same_fireTable (a0 : State) (s : State) u i h taint :
    Same a0 (State.fireTable s u i h taint).1 ↔ Same a0 s := by
  simp [State.fireTable]

@[simp] theorem same_fireReduce (a0 : State) (s : State) u ts taint :
    Same a0 (State.fireReduce s u ts taint).1 ↔ Same a0 s := by
  simp [State.fireReduce]

@[simp] theorem same_fireRank (a0 : State) (s : State) u h taint :
    Same a0 (State.fireRank s u h taint).1 ↔ Same a0 s := by
  simp [State.fireRank]

@[simp] theorem same_fireHist (a0 : State) (s : State) u i ts taint :
    Same a0 (State.fireHist s u i ts taint).1 ↔ Same a0 s := by
  unfold State.fireHist
  simp only []
  (repeat' split) <;> simp

@[simp] theorem same_seqMismatch (a0 : State) (s : State) u i c :
    Same a0 (State.seqMismatch s u i c) ↔ Same a0 s := by
  unfold State.seqMismatch
  simp only []
  (repeat' split) <;> simp

@[simp] theorem same_fireKind (a0 : State) (s : State) u i ts taint :
    Same a0 (State.fireKind s u i ts taint).1 ↔ Same a0 s := by
  unfold State.fireKind
  simp only []
  (repeat' split) <;> simp

@[simp] theorem same_fire (a0 : State) (s : State) u dn p :
    Same a0 (State.fire s u dn p) ↔ Same a0 s := by
  simp [State.fire]

@[simp] theorem same_tryFire (a0 : State) (s : State) u :
    Same a0 (State.tryFire s u) ↔ Same a0 s := by
  unfold State.tryFire
  simp only []
  (repeat' split) <;> simp

@[simp] theorem same_latticeFire (a0 : State) (s : State) u :
    Same a0 (State.latticeFire s u) ↔ Same a0 s := by
  unfold State.latticeFire
  simp only []
  repeat' (first | split | with_reducible exact Iff.rfl | refine (same_foldl _ _ _ _ fun _ _ => ?_).trans ?_ | refine (same_foldl_fst _ _ _ _ fun _ _ => ?_).trans ?_ | simp)

@[simp] theorem same_latticeIn (a0 : State) (s : State) r n h :
    Same a0 (State.latticeIn s r n h) ↔ Same a0 s := by
  unfold State.latticeIn
  simp only []
  refine (same_foldl _ _ _ _ fun t x => ?_).trans (same_putCluster ..)
  split
  · split <;> next heq => have e := congrArg Prod.fst heq; dsimp only at e; subst e; simp
  · rfl

@[simp] theorem same_firing (a0 : State) (s : State) u :
    Same a0 (State.firing s u) ↔ Same a0 s := by
  simp [State.firing]

@[simp] theorem same_foldSwitch (a0 : State) (s : State) u :
    Same a0 (State.foldSwitch s u) ↔ Same a0 s := by
  simp [State.foldSwitch]

@[simp] theorem same_standbyFillDone (a0 : State) (s : State) u :
    Same a0 (State.standbyFillDone s u) ↔ Same a0 s := by
  unfold State.standbyFillDone
  simp only []
  (repeat' split) <;> simp

@[simp] theorem same_pipelineComplete (a0 : State) (s : State) u :
    Same a0 (State.pipelineComplete s u) ↔ Same a0 s := by
  unfold State.pipelineComplete
  simp only []
  (repeat' split) <;> simp

@[simp] theorem same_burstPlace (a0 : State) (s : State) u p :
    Same a0 (State.burstPlace s u p) ↔ Same a0 s := by
  unfold State.burstPlace
  simp only []
  (repeat' split) <;> simp

@[simp] theorem same_treeEvaluation (a0 : State) (s : State) u :
    Same a0 (State.treeEvaluation s u) ↔ Same a0 s := by
  unfold State.treeEvaluation
  simp only []
  (repeat' split) <;> simp

/-! ### Rescale -/

@[simp] theorem same_windowStart (a0 : State) (s : State) k l x c :
    Same a0 (State.windowStart s k l x c) ↔ Same a0 s := by
  unfold State.windowStart
  (repeat' split) <;> simp

@[simp] theorem same_monitorFinal (a0 : State) (s : State) f es :
    Same a0 (State.monitorFinal s f es) ↔ Same a0 s := by
  unfold State.monitorFinal
  simp only []
  repeat' (first | split | with_reducible exact Iff.rfl | refine (same_foldl _ _ _ _ fun _ _ => ?_).trans ?_ | refine (same_foldl_fst _ _ _ _ fun _ _ => ?_).trans ?_ | simp)

@[simp] theorem same_rescaleParity (a0 : State) (s : State) f qs :
    Same a0 (State.rescaleParity s f qs).1 ↔ Same a0 s := by
  simp [State.rescaleParity]

@[simp] theorem same_putDraws (a0 : State) (s : State) u i n :
    Same a0 (State.putDraws s u i n) ↔ Same a0 s := by
  unfold State.putDraws
  (try simp only [])
  repeat' (first | split | with_reducible exact Iff.rfl | refine (same_foldl _ _ _ _ fun _ _ => ?_).trans ?_ | refine (same_foldl_fst _ _ _ _ fun _ _ => ?_).trans ?_ | simp)

@[simp] theorem same_rescaleToken (a0 : State) (s : State) k f h n0 skew :
    Same a0 (State.rescaleToken s k f h n0 skew) ↔ Same a0 s := by
  simp [State.rescaleToken]

@[simp] theorem same_scaleSkew (a0 : State) (s : State) k f c h :
    Same a0 (State.scaleSkew s k f c h) ↔ Same a0 s := by
  unfold State.scaleSkew
  simp only []
  rw [same_putCluster, same_fault, same_count, same_firstRecord, same_addReg]

@[simp] theorem same_stageEmit (a0 : State) (s : State) k f h skew :
    Same a0 (State.stageEmit s k f h skew) ↔ Same a0 s := by
  simp [State.stageEmit]

@[simp] theorem same_stageSkew (a0 : State) (s : State) k f cause head :
    Same a0 (State.stageSkew s k f cause head) ↔ Same a0 s := by
  unfold State.stageSkew
  (try simp only [])
  repeat' (first | split | with_reducible exact Iff.rfl | refine (same_foldl _ _ _ _ fun _ _ => ?_).trans ?_ | refine (same_foldl_fst _ _ _ _ fun _ _ => ?_).trans ?_ | simp)

@[simp] theorem same_stageHead (a0 : State) (s : State) k :
    Same a0 (State.stageHead s k).1 ↔ Same a0 s := by
  unfold State.stageHead
  simp only []
  (repeat' split) <;> simp

@[simp] theorem same_stageRun (a0 : State) (s : State) (k n : Nat) :
    Same a0 (State.stageRun s k n) ↔ Same a0 s := by
  induction n generalizing s with
  | zero => exact Iff.rfl
  | succ f ih =>
    rw [State.stageRun]
    split <;> next heq => have e := congrArg Prod.fst heq; dsimp only at e; subst e; simp [ih]

@[simp] theorem same_rescaleStage (a0 : State) (s : State) k :
    Same a0 (State.rescaleStage s k) ↔ Same a0 s := by
  simp [State.rescaleStage]

@[simp] theorem same_scaleTimeout (a0 : State) (s : State) k :
    Same a0 (State.scaleTimeout s k) ↔ Same a0 s := by
  unfold State.scaleTimeout
  simp only []
  (repeat' split) <;> simp

/-! ### Fabric -/

@[simp] theorem same_recordSig (a0 : State) (s : State) r port dir h :
    Same a0 (State.recordSig s r port dir h) ↔ Same a0 s := by
  simp [State.recordSig]

@[simp] theorem same_putWait (a0 : State) (s : State) key w :
    Same a0 (State.putWait s key w) ↔ Same a0 s := by
  unfold State.putWait
  (try simp only [])
  repeat' (first | split | with_reducible exact Iff.rfl | refine (same_foldl _ _ _ _ fun _ _ => ?_).trans ?_ | refine (same_foldl_fst _ _ _ _ fun _ _ => ?_).trans ?_ | simp)

@[simp] theorem same_dropWait (a0 : State) (s : State) key :
    Same a0 (State.dropWait s key) ↔ Same a0 s := by
  unfold State.dropWait
  (try simp only [])
  repeat' (first | split | with_reducible exact Iff.rfl | refine (same_foldl _ _ _ _ fun _ _ => ?_).trans ?_ | refine (same_foldl_fst _ _ _ _ fun _ _ => ?_).trans ?_ | simp)

@[simp] theorem same_switchPut (a0 : State) (s : State) k e c n h :
    Same a0 (State.switchPut s k e c n h) ↔ Same a0 s := by
  unfold State.switchPut
  simp only []
  (repeat' split) <;> simp

@[simp] theorem same_rowArrive (a0 : State) (s : State) w :
    Same a0 (State.rowArrive s w) ↔ Same a0 s := by
  unfold State.rowArrive
  (try simp only [])
  repeat' (first | split | with_reducible exact Iff.rfl | refine (same_foldl _ _ _ _ fun _ _ => ?_).trans ?_ | refine (same_foldl_fst _ _ _ _ fun _ _ => ?_).trans ?_ | simp)

@[simp] theorem same_rowsArrive (a0 : State) (s : State) :
    Same a0 (State.rowsArrive s) ↔ Same a0 s := by
  unfold State.rowsArrive
  (try simp only [])
  repeat' (first | split | with_reducible exact Iff.rfl | refine (same_foldl _ _ _ _ fun _ _ => ?_).trans ?_ | refine (same_foldl_fst _ _ _ _ fun _ _ => ?_).trans ?_ | simp)

@[simp] theorem same_switchPop (a0 : State) (s : State) k src :
    Same a0 (State.switchPop s k src) ↔ Same a0 s := by
  simp [State.switchPop]

@[simp] theorem same_bankTake (a0 : State) (s : State) k w i n :
    Same a0 (State.bankTake s k w i n) ↔ Same a0 s := by
  unfold State.bankTake
  (try simp only [])
  repeat' (first | split | with_reducible exact Iff.rfl | refine (same_foldl _ _ _ _ fun _ _ => ?_).trans ?_ | refine (same_foldl_fst _ _ _ _ fun _ _ => ?_).trans ?_ | simp)

@[simp] theorem same_switchMove (a0 : State) (s : State) k f src key es h pop :
    Same a0 (State.switchMove s k f src key es h pop).1 ↔ Same a0 s := by
  unfold State.switchMove
  (repeat' split) <;> simp

@[simp] theorem same_rowPayload (a0 : State) (s : State) k row :
    Same a0 (State.rowPayload s k row).1 ↔ Same a0 s := by
  unfold State.rowPayload
  (try simp only [])
  repeat' (first | split | with_reducible exact Iff.rfl | refine (same_foldl _ _ _ _ fun _ _ => ?_).trans ?_ | refine (same_foldl_fst _ _ _ _ fun _ _ => ?_).trans ?_ | simp)

@[simp] theorem same_sramToken (a0 : State) (s : State) k row i :
    Same a0 (State.sramToken s k row i).1 ↔ Same a0 s := by
  simp [State.sramToken]

@[simp] theorem same_switchNote (a0 : State) (s : State) k i es :
    Same a0 (State.switchNote s k i es) ↔ Same a0 s := by
  unfold State.switchNote
  (try simp only [])
  repeat' (first | split | with_reducible exact Iff.rfl | refine (same_foldl _ _ _ _ fun _ _ => ?_).trans ?_ | refine (same_foldl_fst _ _ _ _ fun _ _ => ?_).trans ?_ | simp)

@[simp] theorem same_sramRead1 (a0 : State) (s : State) k f g e :
    Same a0 (State.sramRead1 s k f g e) ↔ Same a0 s := by
  unfold State.sramRead1
  simp only []
  split
  · rfl
  · split <;> next heq => have e := congrArg Prod.fst heq; dsimp only at e; subst e; simp

@[simp] theorem same_sramReads (a0 : State) (s : State) k f :
    Same a0 (State.sramReads s k f) ↔ Same a0 s := by
  unfold State.sramReads
  simp only []
  refine same_foldl _ _ _ _ fun t x => ?_
  split
  · rfl
  · simp

@[simp] theorem same_switchSlot (a0 : State) (s : State) k src :
    Same a0 (State.switchSlot s k src) ↔ Same a0 s := by
  unfold State.switchSlot
  simp only []
  split
  · rfl
  · split
    · simp
    · split
      · split <;> next heq => have e := congrArg Prod.fst heq; dsimp only at e; subst e; simp
      · rfl

@[simp] theorem same_gauTake (a0 : State) (s : State) d e h :
    Same a0 (State.gauTake s d e h) ↔ Same a0 s := by
  unfold State.gauTake
  simp only []
  (repeat' split) <;> simp

@[simp] theorem same_syncPut (a0 : State) (s : State) d a r t :
    Same a0 (State.syncPut s d a r t) ↔ Same a0 s := by
  unfold State.syncPut
  (try simp only [])
  repeat' (first | split | with_reducible exact Iff.rfl | refine (same_foldl _ _ _ _ fun _ _ => ?_).trans ?_ | refine (same_foldl_fst _ _ _ _ fun _ _ => ?_).trans ?_ | simp)

@[simp] theorem same_fabPut (a0 : State) (s : State) r t e h :
    Same a0 (State.fabPut s r t e h) ↔ Same a0 s := by
  simp [State.fabPut]

@[simp] theorem same_wylAbsent (a0 : State) (s : State) r src es :
    Same a0 (State.wylAbsent s r src es) ↔ Same a0 s := by
  unfold State.wylAbsent
  simp only []
  split <;> [split; skip] <;> simp

@[simp] theorem same_fabMove (a0 : State) (s : State) r src br es x m p rest :
    Same a0 (State.fabMove s r src br es x m p rest) ↔ Same a0 s := by
  unfold State.fabMove
  (try simp only [])
  repeat' (first | split | with_reducible exact Iff.rfl | refine (same_foldl _ _ _ _ fun _ _ => ?_).trans ?_ | refine (same_foldl_fst _ _ _ _ fun _ _ => ?_).trans ?_ | simp)

@[simp] theorem same_fabGroup (a0 : State) (s : State) r src br :
    Same a0 (State.fabGroup s r src br) ↔ Same a0 s := by
  unfold State.fabGroup
  (try simp only [])
  repeat' (first | split | with_reducible exact Iff.rfl | refine (same_foldl _ _ _ _ fun _ _ => ?_).trans ?_ | refine (same_foldl_fst _ _ _ _ fun _ _ => ?_).trans ?_ | simp)

@[simp] theorem same_fabricSlot (a0 : State) (s : State) r src :
    Same a0 (State.fabricSlot s r src) ↔ Same a0 s := by
  simp [State.fabricSlot]

@[simp] theorem same_latePassage (a0 : State) (s : State) d c p :
    Same a0 (State.latePassage s d c p) ↔ Same a0 s := by
  simp [State.latePassage]

@[simp] theorem same_crossIn (a0 : State) (s : State) d ep c p :
    Same a0 (State.crossIn s d ep c p) ↔ Same a0 s := by
  simp [State.crossIn]

@[simp] theorem same_crossingIn (a0 : State) (s : State) d ep p rest :
    Same a0 (State.crossingIn s d ep p rest) ↔ Same a0 s := by
  unfold State.crossingIn
  (try simp only [])
  repeat' (first | split | with_reducible exact Iff.rfl | refine (same_foldl _ _ _ _ fun _ _ => ?_).trans ?_ | refine (same_foldl_fst _ _ _ _ fun _ _ => ?_).trans ?_ | simp)

@[simp] theorem same_crossingOut (a0 : State) (s : State) d ep p rest :
    Same a0 (State.crossingOut s d ep p rest) ↔ Same a0 s := by
  unfold State.crossingOut
  (try simp only [])
  repeat' (first | split | with_reducible exact Iff.rfl | refine (same_foldl _ _ _ _ fun _ _ => ?_).trans ?_ | refine (same_foldl_fst _ _ _ _ fun _ _ => ?_).trans ?_ | simp)

@[simp] theorem same_crossingRelease (a0 : State) (s : State) d ep inward :
    Same a0 (State.crossingRelease s d ep inward) ↔ Same a0 s := by
  unfold State.crossingRelease
  (repeat' split) <;> simp

@[simp] theorem same_bridgeRelease (a0 : State) (s : State) d ch ecc :
    Same a0 (State.bridgeRelease s d ch ecc) ↔ Same a0 s := by
  unfold State.bridgeRelease
  simp only []
  (repeat' split) <;> simp

@[simp] theorem same_memErrFirst (a0 : State) (s : State) d ctrl info byte o :
    Same a0 (State.memErrFirst s d ctrl info byte o) ↔ Same a0 s := by
  simp [State.memErrFirst]

@[simp] theorem same_memCheck (a0 : State) (s : State) d ctrl lane frame byte p i :
    Same a0 (State.memCheck s d ctrl lane frame byte p i).1 ↔ Same a0 s := by
  unfold State.memCheck
  simp only []
  split
  · rfl
  · simp
  · simp only [same_mk, same_fault, same_memErrFirst]

@[simp] theorem same_memNote (a0 : State) (s : State) r j i :
    Same a0 (State.memNote s r j i) ↔ Same a0 s := by
  simp [State.memNote]

@[simp] theorem same_memToken (a0 : State) (s : State) d ctrl lane r frame byte x :
    Same a0 (State.memToken s d ctrl lane r frame byte x).1 ↔ Same a0 s := by
  simp [State.memToken]

@[simp] theorem same_memReadSlot (a0 : State) (s : State) d ctrl lane :
    Same a0 (State.memReadSlot s d ctrl lane) ↔ Same a0 s := by
  unfold State.memReadSlot
  simp only []
  (repeat' split) <;> simp

@[simp] theorem same_memWriteSlot (a0 : State) (s : State) d ctrl lane :
    Same a0 (State.memWriteSlot s d ctrl lane) ↔ Same a0 s := by
  unfold State.memWriteSlot
  simp only []
  (repeat' split) <;> simp

@[simp] theorem same_sideFetch (a0 : State) (s : State) k l w :
    Same a0 (State.sideFetch s k l w) ↔ Same a0 s := by
  unfold State.sideFetch
  (try simp only [])
  repeat' (first | split | with_reducible exact Iff.rfl | refine (same_foldl _ _ _ _ fun _ _ => ?_).trans ?_ | refine (same_foldl_fst _ _ _ _ fun _ _ => ?_).trans ?_ | simp)

/-! ### Gauntlet -/

@[simp] theorem same_gauntletRun (a0 : State) (s : State) k :
    Same a0 (State.gauntletRun s k) ↔ Same a0 s := by
  unfold State.gauntletRun
  (repeat' split) <;> simp

@[simp] theorem same_wideResult (a0 : State) (s : State) k l w :
    Same a0 (State.wideResult s k l w) ↔ Same a0 s := by
  simp [State.wideResult]

@[simp] theorem same_gauntletRunEnd (a0 : State) (s : State) d e :
    Same a0 (State.gauntletRunEnd s d e) ↔ Same a0 s := by
  unfold State.gauntletRunEnd
  (repeat' split) <;> simp

@[simp] theorem same_mergeRelease (a0 : State) (s : State) k :
    Same a0 (State.mergeRelease s k) ↔ Same a0 s := by
  unfold State.mergeRelease
  (repeat' split) <;> simp

theorem same_hangStop (a0 s : State) (d p : Nat) (f : FaultRec) :
    Same a0 (((s.fault d f).putPart p { s.part p with hung := true }).stopPartition p 2) ↔ Same a0 s := by
  rw [same_stopPartition, same_putPart, same_fault]
  exact (((same_fault s s d f).2 (Same.refl s)).2.2 p).symm

@[simp] theorem same_scheduleHang (a0 : State) (s : State) d p :
    Same a0 (State.scheduleHang s d p) ↔ Same a0 s := by
  unfold State.scheduleHang
  simp only []
  split
  · split
    · rfl
    · exact same_hangStop ..
  · rfl

end Sys2Proof.Machine
end

