-- ==== Sys2Proof/Laws/SameLoad.lean ====
section
/-! SUPPORT. `Same` through the operations of images, partitions, lanes, settings, the system and integrity. -/

namespace Sys2Proof.Machine

/-! ### Loader -/

@[simp] theorem same_unitRead (a0 : State) (s : State) fm stack byte p :
    Same a0 (State.unitRead s fm stack byte p).1 ↔ Same a0 s := by
  simp [State.unitRead]

@[simp] theorem same_copyRead (a0 : State) (s : State) p d o n :
    Same a0 (State.copyRead s p d o n).1 ↔ Same a0 s := by
  simp [State.copyRead]

@[simp] theorem same_rowsWritten (a0 : State) (s : State) f :
    Same a0 (State.rowsWritten s f) ↔ Same a0 s := by
  simp [State.rowsWritten]

@[simp] theorem same_clearConfig (a0 : State) (s : State) r :
    Same a0 (State.clearConfig s r) ↔ Same a0 s := by
  simp [State.clearConfig]

@[simp] theorem same_clearContent (a0 : State) (s : State) r :
    Same a0 (State.clearContent s r) ↔ Same a0 s := by
  simp [State.clearContent]

@[simp] theorem same_discardPart (a0 : State) (s : State) p :
    Same a0 (State.discardPart s p) ↔ Same a0 s := by
  unfold State.discardPart
  simp only []
  (repeat' split) <;> simp

@[simp] theorem same_dropInsts (a0 : State) (s : State) p :
    Same a0 (State.dropInsts s p) ↔ Same a0 s := by
  simp [State.dropInsts]

@[simp] theorem same_dropLayers (a0 : State) (s : State) p :
    Same a0 (State.dropLayers s p) ↔ Same a0 s := by
  unfold State.dropLayers
  (try simp only [])
  repeat' (first | split | with_reducible exact Iff.rfl | refine (same_foldl _ _ _ _ fun _ _ => ?_).trans ?_ | refine (same_foldl_fst _ _ _ _ fun _ _ => ?_).trans ?_ | simp)

@[simp] theorem same_clearInq (a0 : State) (s : State) im :
    Same a0 (State.clearInq s im) ↔ Same a0 s := by
  unfold State.clearInq
  (try simp only [])
  repeat' (first | split | with_reducible exact Iff.rfl | refine (same_foldl _ _ _ _ fun _ _ => ?_).trans ?_ | refine (same_foldl_fst _ _ _ _ fun _ _ => ?_).trans ?_ | simp)

@[simp] theorem same_deepHome (a0 : State) (s : State) p :
    Same a0 (State.deepHome s p) ↔ Same a0 s := by
  simp [State.deepHome]

@[simp] theorem same_imageGone (a0 : State) (s : State) p :
    Same a0 (State.imageGone s p) ↔ Same a0 s := by
  simp [State.imageGone]

@[simp] theorem same_unloadPart (a0 : State) (s : State) p :
    Same a0 (State.unloadPart s p) ↔ Same a0 s := by
  unfold State.unloadPart
  rw [same_imageGone, same_deepHome, same_dropLayers]
  split <;> simp

@[simp] theorem same_regionsWritten (a0 : State) (s : State) rs :
    Same a0 (State.regionsWritten s rs) ↔ Same a0 s := by
  unfold State.regionsWritten
  (try simp only [])
  repeat' (first | split | with_reducible exact Iff.rfl | refine (same_foldl _ _ _ _ fun _ _ => ?_).trans ?_ | refine (same_foldl_fst _ _ _ _ fun _ _ => ?_).trans ?_ | simp)

@[simp] theorem same_unload (a0 : State) (s : State) p :
    Same a0 (State.unload s p) ↔ Same a0 s := by
  unfold State.unload
  simp only []
  (repeat' split) <;> simp

@[simp] theorem same_putWords (a0 : State) (s : State) ws :
    Same a0 (State.putWords s ws) ↔ Same a0 s := by
  simp [State.putWords]

@[simp] theorem same_installConfig (a0 : State) (s : State) p im sec :
    Same a0 (State.installConfig s p im sec) ↔ Same a0 s := by
  simp [State.installConfig]

@[simp] theorem same_installSram (a0 : State) (s : State) im img sec half :
    Same a0 (State.installSram s im img sec half) ↔ Same a0 s := by
  simp [State.installSram]

@[simp] theorem same_installRescale (a0 : State) (s : State) im rs b :
    Same a0 (State.installRescale s im rs b) ↔ Same a0 s := by
  simp [State.installRescale]

@[simp] theorem same_installInq (a0 : State) (s : State) rs b :
    Same a0 (State.installInq s rs b) ↔ Same a0 s := by
  simp [State.installInq]

@[simp] theorem same_installWide (a0 : State) (s : State) img b l g :
    Same a0 (State.installWide s img b l g) ↔ Same a0 s := by
  simp [State.installWide]

@[simp] theorem same_installLayers (a0 : State) (s : State) p im img sec b load :
    Same a0 (State.installLayers s p im img sec b load) ↔ Same a0 s := by
  unfold State.installLayers
  simp only []
  repeat' (first | split | with_reducible exact Iff.rfl | refine (same_foldl _ _ _ _ fun _ _ => ?_).trans ?_ | refine (same_foldl_fst _ _ _ _ fun _ _ => ?_).trans ?_ | simp)

@[simp] theorem same_loadLayers (a0 : State) (s : State) p im img :
    Same a0 (State.loadLayers s p im img) ↔ Same a0 s := by
  unfold State.loadLayers
  (try simp only [])
  repeat' (first | split | with_reducible exact Iff.rfl | refine (same_foldl _ _ _ _ fun _ _ => ?_).trans ?_ | refine (same_foldl_fst _ _ _ _ fun _ _ => ?_).trans ?_ | simp)

@[simp] theorem same_fillUnits (a0 : State) (s : State) rs im sec half :
    Same a0 (State.fillUnits s rs im sec half) ↔ Same a0 s := by
  simp [State.fillUnits]

@[simp] theorem same_overlaySet (a0 : State) (s : State) p im set sec b :
    Same a0 (State.overlaySet s p im set sec b) ↔ Same a0 s := by
  unfold State.overlaySet
  simp only []
  repeat' (first | split | with_reducible exact Iff.rfl | refine (same_foldl _ _ _ _ fun _ _ => ?_).trans ?_ | refine (same_foldl_fst _ _ _ _ fun _ _ => ?_).trans ?_ | simp)

@[simp] theorem same_imageBytes (a0 : State) (s : State) p dst :
    Same a0 (State.imageBytes s p dst).1 ↔ Same a0 s := by
  unfold State.imageBytes
  (repeat' split) <;> simp

@[simp] theorem same_loadFailed (a0 : State) (s : State) p dst :
    Same a0 (State.loadFailed s p dst) ↔ Same a0 s := by
  simp [State.loadFailed]

@[simp] theorem same_stepOff (a0 : State) (s : State) p im :
    Same a0 (State.stepOff s p im) ↔ Same a0 s := by
  simp [State.stepOff]

@[simp] theorem same_loadBegin (a0 : State) (s : State) p dst relaxed epoch :
    Same a0 (State.loadBegin s p dst relaxed epoch).1 ↔ Same a0 s := by
  unfold State.loadBegin
  simp only []
  (repeat' split) <;> simp

@[simp] theorem same_loadRegions (a0 : State) (s : State) p im b rs :
    Same a0 (State.loadRegions s p im b rs) ↔ Same a0 s := by
  unfold State.loadRegions
  (try simp only [])
  repeat' (first | split | with_reducible exact Iff.rfl | refine (same_foldl _ _ _ _ fun _ _ => ?_).trans ?_ | refine (same_foldl_fst _ _ _ _ fun _ _ => ?_).trans ?_ | simp)

@[simp] theorem same_loadSome (a0 : State) (s : State) p dst k :
    Same a0 (State.loadSome s p dst k).1 ↔ Same a0 s := by
  unfold State.loadSome
  (try simp only [])
  repeat' (first | split | with_reducible exact Iff.rfl | refine (same_foldl _ _ _ _ fun _ _ => ?_).trans ?_ | refine (same_foldl_fst _ _ _ _ fun _ _ => ?_).trans ?_ | simp)

@[simp] theorem same_loadEnd (a0 : State) (s : State) p dst flush verifyFails :
    Same a0 (State.loadEnd s p dst flush verifyFails).1 ↔ Same a0 s := by
  unfold State.loadEnd
  simp only []
  (repeat' split) <;> simp

@[simp] theorem same_overlayAll (a0 : State) (s : State) p im sec b sets :
    Same a0 (State.overlayAll s p im sec b sets).1 ↔ Same a0 s := by
  unfold State.overlayAll
  simp only []
  repeat' (first | split | with_reducible exact Iff.rfl | refine (same_foldl _ _ _ _ fun _ _ => ?_).trans ?_ | refine (same_foldl_fst _ _ _ _ fun _ _ => ?_).trans ?_ | simp)

@[simp] theorem same_installContent (a0 : State) (s : State) im img sec half b :
    Same a0 (State.installContent s im img sec half b) ↔ Same a0 s := by
  simp [State.installContent]

@[simp] theorem same_clearBank (a0 : State) (s : State) p b :
    Same a0 (State.clearBank s p b) ↔ Same a0 s := by
  simp [State.clearBank]

@[simp] theorem same_prefetch (a0 : State) (s : State) p im sec b :
    Same a0 (State.prefetch s p im sec b).1 ↔ Same a0 s := by
  unfold State.prefetch
  simp only []
  (repeat' split) <;> simp

@[simp] theorem same_installBank (a0 : State) (s : State) p im img sec b sets :
    Same a0 (State.installBank s p im img sec b sets).1 ↔ Same a0 s := by
  unfold State.installBank
  simp only []
  refine (same_overlayAll ..).trans ((same_foldl _ _ _ _ fun t x => ?_).trans (by simp))
  split <;> simp

@[simp] theorem same_swapTo (a0 : State) (s : State) p im sec pf :
    Same a0 (State.swapTo s p im sec pf).1 ↔ Same a0 s := by
  unfold State.swapTo
  simp only []
  (repeat' split) <;> simp

/-! ### Partition -/

@[simp] theorem same_zeroFillDone (a0 : State) (s : State) base :
    Same a0 (State.zeroFillDone s base) ↔ Same a0 s := by
  unfold State.zeroFillDone
  (repeat' split) <;> simp

@[simp] theorem same_setCounts (a0 : State) (s : State) v :
    Same a0 (State.setCounts s v) ↔ Same a0 s := by
  simp [State.setCounts]

@[simp] theorem same_startBegin (a0 : State) (s : State) p align t q :
    Same a0 (State.startBegin s p align t q) ↔ Same a0 s := by
  unfold State.startBegin
  simp only []
  (repeat' split) <;> simp

@[simp] theorem same_resumeBegin (a0 : State) (s : State) p t :
    Same a0 (State.resumeBegin s p t) ↔ Same a0 s := by
  simp [State.resumeBegin]

@[simp] theorem same_admissionOpen (a0 : State) (s : State) p :
    Same a0 (State.admissionOpen s p) ↔ Same a0 s := by
  unfold State.admissionOpen
  simp only []
  (repeat' split) <;> simp

@[simp] theorem same_pauseBegin (a0 : State) (s : State) p :
    Same a0 (State.pauseBegin s p) ↔ Same a0 s := by
  simp [State.pauseBegin]

@[simp] theorem same_pauseDrained (a0 : State) (s : State) p :
    Same a0 (State.pauseDrained s p) ↔ Same a0 s := by
  unfold State.pauseDrained
  simp only []
  (repeat' split) <;> simp

@[simp] theorem same_modeBegin (a0 : State) (s : State) p c :
    Same a0 (State.modeBegin s p c) ↔ Same a0 s := by
  simp [State.modeBegin]

@[simp] theorem same_setModeScale (a0 : State) (s : State) p stream n settings :
    Same a0 (State.setModeScale s p stream n settings).1 ↔ Same a0 s := by
  unfold State.setModeScale
  simp only []
  (repeat' split) <;> simp

@[simp] theorem same_setModeTrigger (a0 : State) (s : State) p stream n settings :
    Same a0 (State.setModeTrigger s p stream n settings).1 ↔ Same a0 s := by
  unfold State.setModeTrigger
  (repeat' split) <;> simp

@[simp] theorem same_setModeSeeds (a0 : State) (s : State) p stream n pmask seeds :
    Same a0 (State.setModeSeeds s p stream n pmask seeds).1 ↔ Same a0 s := by
  unfold State.setModeSeeds
  (repeat' split) <;> simp

@[simp] theorem same_dropAuth (a0 : State) (s : State) p settings :
    Same a0 (State.dropAuth s p settings) ↔ Same a0 s := by
  simp [State.dropAuth]

@[simp] theorem same_modeDrop (a0 : State) (s : State) p c :
    Same a0 (State.modeDrop s p c) ↔ Same a0 s := by
  simp [State.modeDrop]

@[simp] theorem same_modeCancel (a0 : State) (s : State) p :
    Same a0 (State.modeCancel s p).1 ↔ Same a0 s := by
  unfold State.modeCancel
  simp only []
  (repeat' split) <;> simp

@[simp] theorem same_copyActive (a0 : State) (s : State) p im b :
    Same a0 (State.copyActive s p im b) ↔ Same a0 s := by
  simp [State.copyActive]

@[simp] theorem same_modeArm (a0 : State) (s : State) p :
    Same a0 (State.modeArm s p) ↔ Same a0 s := by
  unfold State.modeArm
  simp only []
  (repeat' split) <;> simp

@[simp] theorem same_modeDone (a0 : State) (s : State) p :
    Same a0 (State.modeDone s p) ↔ Same a0 s := by
  unfold State.modeDone
  simp only []
  (repeat' split) <;> simp

/-! ### SaveArea -/

@[simp] theorem same_saveArea (a0 : State) (s : State) p d b im :
    Same a0 (State.saveArea s p d b im).1 ↔ Same a0 s := by
  simp [State.saveArea]

@[simp] theorem same_saveEnd (a0 : State) (s : State) p b :
    Same a0 (State.saveEnd s p b).1 ↔ Same a0 s := by
  unfold State.saveEnd
  split
  · rfl
  · next im _ =>
    simp only []
    split
    · rw [same_putPart]
      · exact same_foldl _ _ _ _ fun _ _ => by simp
      · have h : Same s (im.dies.foldl (fun s d =>
            (s.saveArea p d b im).1.auditCtrl p 0x05 0 0 (d + b * 2 ^ 26) (s.saveArea p d b im).2 [] []) s) :=
          (same_foldl _ _ _ _ fun _ _ => by simp).2 (Same.refl s)
        exact (h.2.2 p).symm
    · exact same_foldl _ _ _ _ fun _ _ => by simp

@[simp] theorem same_loadToken (a0 : State) (s : State) ep st a :
    Same a0 (State.loadToken s ep st a).1 ↔ Same a0 s := by
  simp [State.loadToken]

@[simp] theorem same_loadTokens (a0 : State) (s : State) ep st a n :
    Same a0 (State.loadTokens s ep st a n).1 ↔ Same a0 s := by
  simp [State.loadTokens]

@[simp] theorem same_loadUnit (a0 : State) (s : State) ep st o a :
    Same a0 (State.loadUnit s ep st o a) ↔ Same a0 s := by
  simp [State.loadUnit]

@[simp] theorem same_refill (a0 : State) (s : State) a :
    Same a0 (State.refill s a) ↔ Same a0 s := by
  simp [State.refill]

@[simp] theorem same_loadCluster (a0 : State) (s : State) im ep st o k b :
    Same a0 (State.loadCluster s im ep st o k b) ↔ Same a0 s := by
  simp [State.loadCluster]

@[simp] theorem same_loadColumns (a0 : State) (s : State) ep st o r :
    Same a0 (State.loadColumns s ep st o r) ↔ Same a0 s := by
  simp [State.loadColumns]

@[simp] theorem same_loadDie (a0 : State) (s : State) p d a im b :
    Same a0 (State.loadDie s p d a im b) ↔ Same a0 s := by
  simp [State.loadDie]

@[simp] theorem same_loadArea (a0 : State) (s : State) p d b im :
    Same a0 (State.loadArea s p d b im) ↔ Same a0 s := by
  simp [State.loadArea]

@[simp] theorem same_loadChange (a0 : State) (s : State) st a :
    Same a0 (State.loadChange s st a).1 ↔ Same a0 s := by
  simp [State.loadChange]

@[simp] theorem same_restoreEnd (a0 : State) (s : State) p b old :
    Same a0 (State.restoreEnd s p b old).1 ↔ Same a0 s := by
  unfold State.restoreEnd
  simp only []
  (repeat' split) <;> simp

/-! ### DeepPath -/

@[simp] theorem same_enterSection (a0 : State) (s : State) im sec g i t :
    Same a0 (State.enterSection s im sec g i t) ↔ Same a0 s := by
  simp [State.enterSection]

@[simp] theorem same_deepInstance (a0 : State) (s : State) p im g c e j r :
    Same a0 (State.deepInstance s p im g c e j r).1 ↔ Same a0 s := by
  simp [State.deepInstance]

@[simp] theorem same_passStart (a0 : State) (s : State) p :
    Same a0 (State.passStart s p) ↔ Same a0 s := by
  unfold State.passStart
  simp only []
  (repeat' split) <;> simp

@[simp] theorem same_deepForget (a0 : State) (s : State) i :
    Same a0 (State.deepForget s i) ↔ Same a0 s := by
  unfold State.deepForget
  (repeat' split) <;> simp

@[simp] theorem same_deepComplete (a0 : State) (s : State) p x ps im :
    Same a0 (State.deepComplete s p x ps im).1 ↔ Same a0 s := by
  simp [State.deepComplete]

@[simp] theorem same_passEnd (a0 : State) (s : State) p x :
    Same a0 (State.passEnd s p x) ↔ Same a0 s := by
  simp [State.passEnd]

@[simp] theorem same_sectionComplete (a0 : State) (s : State) p :
    Same a0 (State.sectionComplete s p) ↔ Same a0 s := by
  unfold State.sectionComplete
  (repeat' split) <;> simp

@[simp] theorem same_swapFail (a0 : State) (s : State) p im :
    Same a0 (State.swapFail s p im) ↔ Same a0 s := by
  unfold State.swapFail
  simp only []
  repeat' (first | split | with_reducible exact Iff.rfl | refine (same_foldl _ _ _ _ fun _ _ => ?_).trans ?_ | refine (same_foldl_fst _ _ _ _ fun _ _ => ?_).trans ?_ | simp)

@[simp] theorem same_swapComplete (a0 : State) (s : State) p :
    Same a0 (State.swapComplete s p) ↔ Same a0 s := by
  unfold State.swapComplete
  (repeat' split) <;> simp

@[simp] theorem same_prefetchComplete (a0 : State) (s : State) p :
    Same a0 (State.prefetchComplete s p) ↔ Same a0 s := by
  unfold State.prefetchComplete
  simp only []
  (repeat' split) <;> simp

@[simp] theorem same_elasticStep (a0 : State) (s : State) d up :
    Same a0 (State.elasticStep s d up) ↔ Same a0 s := by
  simp [State.elasticStep]

@[simp] theorem same_takeSteps (a0 : State) (s : State) :
    Same a0 (State.takeSteps s) ↔ Same a0 s := by
  simp [State.takeSteps]

/-! ### Lanes -/

@[simp] theorem same_putLane (a0 : State) (s : State) l x :
    Same a0 (State.putLane s l x) ↔ Same a0 s := by
  simp [State.putLane]

@[simp] theorem same_setStage (a0 : State) (s : State) l v :
    Same a0 (State.setStage s l v) ↔ Same a0 s := by
  simp [State.setStage]

@[simp] theorem same_fecCorrected (a0 : State) (s : State) l n :
    Same a0 (State.fecCorrected s l n) ↔ Same a0 s := by
  simp [State.fecCorrected]

@[simp] theorem same_rawFrame (a0 : State) (s : State) psel l b ck corrected failed :
    Same a0 (State.rawFrame s psel l b ck corrected failed) ↔ Same a0 s := by
  simp [State.rawFrame]

@[simp] theorem same_jesdMultiblock (a0 : State) (s : State) d j lanes crcOk :
    Same a0 (State.jesdMultiblock s d j lanes crcOk) ↔ Same a0 s := by
  simp [State.jesdMultiblock]

@[simp] theorem same_ethFrame (a0 : State) (s : State) p b fcs corrected :
    Same a0 (State.ethFrame s p b fcs corrected) ↔ Same a0 s := by
  unfold State.ethFrame
  simp only []
  (repeat' split) <;> simp

@[simp] theorem same_laneSettle (a0 : State) (s : State) l :
    Same a0 (State.laneSettle s l) ↔ Same a0 s := by
  simp [State.laneSettle]

@[simp] theorem same_setRev (a0 : State) (s : State) g r :
    Same a0 (State.setRev s g r) ↔ Same a0 s := by
  unfold State.setRev
  (repeat' split) <;> simp

@[simp] theorem same_decideRev (a0 : State) (s : State) l id :
    Same a0 (State.decideRev s l id) ↔ Same a0 s := by
  unfold State.decideRev
  simp only []
  (repeat' split) <;> simp

@[simp] theorem same_laneAdvance (a0 : State) (s : State) l inverted id :
    Same a0 (State.laneAdvance s l inverted id) ↔ Same a0 s := by
  unfold State.laneAdvance
  (repeat' split) <;> simp

@[simp] theorem same_laneFall (a0 : State) (s : State) l k :
    Same a0 (State.laneFall s l k) ↔ Same a0 s := by
  simp [State.laneFall]

@[simp] theorem same_slipDone (a0 : State) (s : State) l matched :
    Same a0 (State.slipDone s l matched) ↔ Same a0 s := by
  simp [State.slipDone]

@[simp] theorem same_sysref (a0 : State) (s : State) d n :
    Same a0 (State.sysref s d n) ↔ Same a0 s := by
  unfold State.sysref
  simp only []
  repeat' (first | split | with_reducible exact Iff.rfl | refine (same_foldl _ _ _ _ fun _ _ => ?_).trans ?_ | refine (same_foldl_fst _ _ _ _ fun _ _ => ?_).trans ?_ | simp)

@[simp] theorem same_laserLost (a0 : State) (s : State) e power :
    Same a0 (State.laserLost s e power) ↔ Same a0 s := by
  simp [State.laserLost]

@[simp] theorem same_laserBack (a0 : State) (s : State) e power :
    Same a0 (State.laserBack s e power) ↔ Same a0 s := by
  simp [State.laserBack]

@[simp] theorem same_checkerLocks (a0 : State) (s : State) l :
    Same a0 (State.checkerLocks s l) ↔ Same a0 s := by
  simp [State.checkerLocks]

@[simp] theorem same_prbsRead (a0 : State) (s : State) l bits counted :
    Same a0 (State.prbsRead s l bits counted) ↔ Same a0 s := by
  unfold State.prbsRead
  simp only []
  (repeat' split) <;> simp

@[simp] theorem same_laneEq (a0 : State) (s : State) l :
    Same a0 (State.laneEq s l) ↔ Same a0 s := by
  unfold State.laneEq
  (repeat' split) <;> simp

@[simp] theorem same_refState (a0 : State) (s : State) :
    Same a0 (refState s).1 ↔ Same a0 s := by
  simp [refState]

@[simp] theorem same_refRange (a0 : State) (s : State) :
    Same a0 (refRange s).1 ↔ Same a0 s := by
  simp [refRange]

@[simp] theorem same_done (a0 : State) (s : State) :
    Same a0 (done s).1 ↔ Same a0 s := by
  simp [done]

@[simp] theorem same_ctlSetMode (a0 : State) (s : State) tkind target args :
    Same a0 (State.ctlSetMode s tkind target args).1 ↔ Same a0 s := by
  unfold State.ctlSetMode
  (repeat' split) <;> simp

@[simp] theorem same_ctlUp (a0 : State) (s : State) tkind target :
    Same a0 (State.ctlUp s tkind target).1 ↔ Same a0 s := by
  unfold State.ctlUp
  (repeat' split) <;> simp

@[simp] theorem same_ctlDown (a0 : State) (s : State) tkind target :
    Same a0 (State.ctlDown s tkind target).1 ↔ Same a0 s := by
  unfold State.ctlDown
  (repeat' split) <;> simp

@[simp] theorem same_ctlSlip (a0 : State) (s : State) tkind target args :
    Same a0 (State.ctlSlip s tkind target args).1 ↔ Same a0 s := by
  simp [State.ctlSlip]

@[simp] theorem same_ctlTest (a0 : State) (s : State) tkind target args :
    Same a0 (State.ctlTest s tkind target args).1 ↔ Same a0 s := by
  simp [State.ctlTest]

@[simp] theorem same_ctlInject (a0 : State) (s : State) tkind target :
    Same a0 (State.ctlInject s tkind target).1 ↔ Same a0 s := by
  simp [State.ctlInject]

@[simp] theorem same_ctlSetEq (a0 : State) (s : State) tkind target args :
    Same a0 (State.ctlSetEq s tkind target args).1 ↔ Same a0 s := by
  simp [State.ctlSetEq]

@[simp] theorem same_ctlSetMap (a0 : State) (s : State) tkind target args :
    Same a0 (State.ctlSetMap s tkind target args).1 ↔ Same a0 s := by
  simp [State.ctlSetMap]

@[simp] theorem same_ctlSetClass (a0 : State) (s : State) tkind target index args :
    Same a0 (State.ctlSetClass s tkind target index args).1 ↔ Same a0 s := by
  unfold State.ctlSetClass
  (repeat' split) <;> simp

@[simp] theorem same_ctlSetOut (a0 : State) (s : State) h tkind target index args :
    Same a0 (State.ctlSetOut s h tkind target index args).1 ↔ Same a0 s := by
  unfold State.ctlSetOut
  (repeat' split) <;> simp

@[simp] theorem same_ctlSetJesd (a0 : State) (s : State) tkind target args :
    Same a0 (State.ctlSetJesd s tkind target args).1 ↔ Same a0 s := by
  simp [State.ctlSetJesd]

@[simp] theorem same_eyeStatus (a0 : State) (s : State) l busy n :
    Same a0 (State.eyeStatus s l busy n) ↔ Same a0 s := by
  simp [State.eyeStatus]

@[simp] theorem same_eyeEnd (a0 : State) (s : State) o l g st :
    Same a0 (State.eyeEnd s o l g st) ↔ Same a0 s := by
  simp [State.eyeEnd]

@[simp] theorem same_laneDrop (a0 : State) (s : State) l k :
    Same a0 (State.laneDrop s l k) ↔ Same a0 s := by
  unfold State.laneDrop
  simp only []
  repeat' (first | split | with_reducible exact Iff.rfl | refine (same_foldl _ _ _ _ fun _ _ => ?_).trans ?_ | refine (same_foldl_fst _ _ _ _ fun _ _ => ?_).trans ?_ | simp)

/-! ### Settings -/

@[simp] theorem same_putSettings (a0 : State) (s : State) d m :
    Same a0 (State.putSettings s d m) ↔ Same a0 s := by
  simp [State.putSettings]

@[simp] theorem same_storeEnd (a0 : State) (s : State) b good :
    Same a0 (State.storeEnd s b good).1 ↔ Same a0 s := by
  simp [State.storeEnd]

@[simp] theorem same_selectBanks (a0 : State) (s : State) :
    Same a0 (State.selectBanks s) ↔ Same a0 s := by
  unfold State.selectBanks
  simp only []
  (repeat' split) <;> simp

@[simp] theorem same_putRegs (a0 : State) (s : State) as b :
    Same a0 (State.putRegs s as b) ↔ Same a0 s := by
  simp [State.putRegs]

@[simp] theorem same_applyMaps (a0 : State) (s : State) b :
    Same a0 (State.applyMaps s b) ↔ Same a0 s := by
  simp [State.applyMaps]

@[simp] theorem same_applyCal (a0 : State) (s : State) e :
    Same a0 (State.applyCal s e) ↔ Same a0 s := by
  simp [State.applyCal]

@[simp] theorem same_applyDie (a0 : State) (s : State) d :
    Same a0 (State.applyDie s d) ↔ Same a0 s := by
  unfold State.applyDie
  simp only []
  (repeat' split) <;> simp

@[simp] theorem same_applyTrims (a0 : State) (s : State) b :
    Same a0 (State.applyTrims s b) ↔ Same a0 s := by
  simp [State.applyTrims]

@[simp] theorem same_applySec (a0 : State) (s : State) b :
    Same a0 (State.applySec s b) ↔ Same a0 s := by
  simp [State.applySec]

@[simp] theorem same_applySettings (a0 : State) (s : State) :
    Same a0 (State.applySettings s) ↔ Same a0 s := by
  unfold State.applySettings
  simp only []
  (repeat' split) <;> simp

/-! ### Cmd -/

@[simp] theorem same_setPower (a0 : State) (s : State) r l :
    Same a0 (State.setPower s r l) ↔ Same a0 s := by
  simp [State.setPower]

@[simp] theorem same_regionEntry (a0 : State) (s : State) r l :
    Same a0 (State.regionEntry s r l) ↔ Same a0 s := by
  simp [State.regionEntry]

/-! ### System -/

@[simp] theorem same_setBoot (a0 : State) (s : State) b :
    Same a0 (State.setBoot s b) ↔ Same a0 s := by
  simp [State.setBoot]

@[simp] theorem same_tapLoad (a0 : State) (s : State) ir :
    Same a0 (State.tapLoad s ir) ↔ Same a0 s := by
  simp [State.tapLoad]

@[simp] theorem same_sramFilled (a0 : State) (s : State) :
    Same a0 (State.sramFilled s) ↔ Same a0 s := by
  unfold State.sramFilled
  simp only []
  (repeat' split) <;> simp

@[simp] theorem same_stacksTrained (a0 : State) (s : State) trained :
    Same a0 (State.stacksTrained s trained) ↔ Same a0 s := by
  simp [State.stacksTrained]

@[simp] theorem same_memFilled (a0 : State) (s : State) :
    Same a0 (State.memFilled s) ↔ Same a0 s := by
  unfold State.memFilled
  simp only []
  (repeat' split) <;> simp

@[simp] theorem same_readyNow (a0 : State) (s : State) :
    Same a0 (State.readyNow s) ↔ Same a0 s := by
  simp [State.readyNow]

@[simp] theorem same_putCore (a0 : State) (s : State) d c x :
    Same a0 (State.putCore s d c x) ↔ Same a0 s := by
  simp [State.putCore]

@[simp] theorem same_coreRestart (a0 : State) (s : State) d c :
    Same a0 (State.coreRestart s d c) ↔ Same a0 s := by
  simp [State.coreRestart]

@[simp] theorem same_coreHold (a0 : State) (s : State) d c :
    Same a0 (State.coreHold s d c) ↔ Same a0 s := by
  simp [State.coreHold]

@[simp] theorem same_brimLate (a0 : State) (s : State) d c :
    Same a0 (State.brimLate s d c) ↔ Same a0 s := by
  simp [State.brimLate]

@[simp] theorem same_brimBlocked (a0 : State) (s : State) d c :
    Same a0 (State.brimBlocked s d c) ↔ Same a0 s := by
  simp [State.brimBlocked]

@[simp] theorem same_brimRestarted (a0 : State) (s : State) d c memOk :
    Same a0 (State.brimRestarted s d c memOk) ↔ Same a0 s := by
  simp [State.brimRestarted]

@[simp] theorem same_brimReleased (a0 : State) (s : State) d c :
    Same a0 (State.brimReleased s d c) ↔ Same a0 s := by
  simp [State.brimReleased]

@[simp] theorem same_brimHalt (a0 : State) (s : State) d c :
    Same a0 (State.brimHalt s d c) ↔ Same a0 s := by
  simp [State.brimHalt]

@[simp] theorem same_brimResume (a0 : State) (s : State) d c :
    Same a0 (State.brimResume s d c) ↔ Same a0 s := by
  simp [State.brimResume]

@[simp] theorem same_faultReady (a0 : State) (s : State) p f :
    Same a0 (State.faultReady s p f) ↔ Same a0 s := by
  unfold State.faultReady
  simp only []
  repeat' (first | split | with_reducible exact Iff.rfl | refine (same_foldl _ _ _ _ fun _ _ => ?_).trans ?_ | refine (same_foldl_fst _ _ _ _ fun _ _ => ?_).trans ?_ | simp)

@[simp] theorem same_crownDiverges (a0 : State) (s : State) d digest :
    Same a0 (State.crownDiverges s d digest) ↔ Same a0 s := by
  simp [State.crownDiverges]

@[simp] theorem same_crownBack (a0 : State) (s : State) d :
    Same a0 (State.crownBack s d) ↔ Same a0 s := by
  simp [State.crownBack]

@[simp] theorem same_challenge (a0 : State) (s : State) :
    Same a0 (State.challenge s) ↔ Same a0 s := by
  simp [State.challenge]

@[simp] theorem same_response (a0 : State) (s : State) b :
    Same a0 (State.response s b) ↔ Same a0 s := by
  simp [State.response]

@[simp] theorem same_scanInstr (a0 : State) (s : State) ir f :
    Same a0 (State.scanInstr s ir f) ↔ Same a0 s := by
  simp [State.scanInstr]

@[simp] theorem same_thermal (a0 : State) (s : State) d temps :
    Same a0 (State.thermal s d temps) ↔ Same a0 s := by
  simp [State.thermal]

@[simp] theorem same_tripPin (a0 : State) (s : State) :
    Same a0 (State.tripPin s) ↔ Same a0 s := by
  simp [State.tripPin]

@[simp] theorem same_pkgEntry (a0 : State) (s : State) l :
    Same a0 (State.pkgEntry s l) ↔ Same a0 s := by
  simp [State.pkgEntry]

@[simp] theorem same_wakePkg (a0 : State) (s : State) :
    Same a0 (State.wakePkg s) ↔ Same a0 s := by
  simp [State.wakePkg]

@[simp] theorem same_wakeRegions (a0 : State) (s : State) rs :
    Same a0 (State.wakeRegions s rs) ↔ Same a0 s := by
  simp [State.wakeRegions]

@[simp] theorem same_wakeDone (a0 : State) (s : State) a :
    Same a0 (State.wakeDone s a) ↔ Same a0 s := by
  unfold State.wakeDone
  (repeat' split) <;> simp

/-! ### Integrity -/

@[simp] theorem same_copyBack (a0 : State) (s : State) d byte :
    Same a0 (State.copyBack s d byte) ↔ Same a0 s := by
  simp [State.copyBack]

@[simp] theorem same_sourceUnit (a0 : State) (s : State) d p byte :
    Same a0 (State.sourceUnit s d p byte).1 ↔ Same a0 s := by
  simp [State.sourceUnit]

@[simp] theorem same_sourceBytes (a0 : State) (s : State) d p os :
    Same a0 (State.sourceBytes s d p os).1 ↔ Same a0 s := by
  simp [State.sourceBytes]

@[simp] theorem same_rowWrite (a0 : State) (s : State) kind key bs word :
    Same a0 (State.rowWrite s kind key bs word) ↔ Same a0 s := by
  unfold State.rowWrite
  (repeat' split) <;> simp

@[simp] theorem same_repairRow (a0 : State) (s : State) kind key :
    Same a0 (State.repairRow s kind key).1 ↔ Same a0 s := by
  unfold State.repairRow
  simp only []
  (repeat' split) <;> simp

@[simp] theorem same_repair (a0 : State) (s : State) d :
    Same a0 (State.repair s d) ↔ Same a0 s := by
  unfold State.repair
  (repeat' split) <;> simp

@[simp] theorem same_bucketLeak (a0 : State) (s : State) d k :
    Same a0 (State.bucketLeak s d k) ↔ Same a0 s := by
  simp [State.bucketLeak]

@[simp] theorem same_scrubRow (a0 : State) (s : State) kind key :
    Same a0 (State.scrubRow s kind key) ↔ Same a0 s := by
  simp [State.scrubRow]

@[simp] theorem same_scrubPass (a0 : State) (s : State) d :
    Same a0 (State.scrubPass s d) ↔ Same a0 s := by
  simp [State.scrubPass]

@[simp] theorem same_scrubLeft (a0 : State) (s : State) d addr :
    Same a0 (State.scrubLeft s d addr) ↔ Same a0 s := by
  simp [State.scrubLeft]

@[simp] theorem same_scrubUnit (a0 : State) (s : State) repair k u x :
    Same a0 (State.scrubUnit s repair k u x).1 ↔ Same a0 s := by
  simp [State.scrubUnit]

@[simp] theorem same_scrubTableRow (a0 : State) (s : State) repair kind key x :
    Same a0 (State.scrubTableRow s repair kind key x).1 ↔ Same a0 s := by
  simp [State.scrubTableRow]

@[simp] theorem same_scrubStep (a0 s : State) (r : Bool) (sp st : Nat) (rg : BitVec 16) (b l : Nat) (o : Op) (i : StepIn) :
    Same a0 (State.scrubStep s r sp st rg b l o i).1 ↔ Same a0 s := by
  unfold State.scrubStep
  simp only []
  split
  · refine (same_foldl_fst _ _ _ _ fun _ _ => ?_).trans (same_foldl _ _ _ _ fun _ _ => ?_)
    · exact same_foldl_fst _ _ _ _ fun _ _ => by simp
    · simp
  · exact same_foldl_fst _ _ _ _ fun _ _ => by simp

end Sys2Proof.Machine
end

