-- ==== Sys2Proof/Laws/SameCommands.lean ====
section
/-! SUPPORT. `Same` through the operations of counters, audit, ports, host commands, transports and BAR accesses. -/

namespace Sys2Proof.Machine

/-! ### Counters -/

@[simp] theorem same_putCounter (a0 : State) (s : State) d n v :
    Same a0 (State.putCounter s d n v) ↔ Same a0 s := by
  simp [State.putCounter]

@[simp] theorem same_cntValLoRead (a0 : State) (s : State) d n :
    Same a0 (State.cntValLoRead s d n) ↔ Same a0 s := by
  simp [State.cntValLoRead]

@[simp] theorem same_cntValLoWrite (a0 : State) (s : State) d n w :
    Same a0 (State.cntValLoWrite s d n w) ↔ Same a0 s := by
  simp [State.cntValLoWrite]

@[simp] theorem same_cntSnap (a0 : State) (s : State) d :
    Same a0 (State.cntSnap s d) ↔ Same a0 s := by
  simp [State.cntSnap]

@[simp] theorem same_cntUpSnap (a0 : State) (s : State) l d p :
    Same a0 (State.cntUpSnap s l d p) ↔ Same a0 s := by
  simp [State.cntUpSnap]

@[simp] theorem same_cntSmpPop (a0 : State) (s : State) d :
    Same a0 (State.cntSmpPop s d) ↔ Same a0 s := by
  simp [State.cntSmpPop]

@[simp] theorem same_addCore (a0 s : State) (d : Nat) (pc : Word) (fuel j n : Nat) :
    Same a0 (State.addCore s d pc fuel j n) ↔ Same a0 s := by
  induction fuel generalizing s j n with
  | zero => exact Iff.rfl
  | succ f ih =>
    rw [State.addCore]
    simp only []
    (repeat' split) <;> simp [ih]

@[simp] theorem same_counterWrap (a0 s : State) (d k : Nat) (core : Bool) (n u : Nat) (pc : Word) :
    Same a0 (State.counterWrap s d k core n u pc) ↔ Same a0 s := by
  unfold State.counterWrap
  split
  · rfl
  · split
    · split
      · rfl
      · exact same_addCore ..
    · split
      · rfl
      · exact same_addCount ..

@[simp] theorem same_chkStart (a0 : State) (s : State) d u :
    Same a0 (State.chkStart s d u) ↔ Same a0 s := by
  simp [State.chkStart]

@[simp] theorem same_chkData (a0 : State) (s : State) d u w :
    Same a0 (State.chkData s d u w) ↔ Same a0 s := by
  simp [State.chkData]

@[simp] theorem same_chkFinish (a0 : State) (s : State) d u :
    Same a0 (State.chkFinish s d u) ↔ Same a0 s := by
  simp [State.chkFinish]

@[simp] theorem same_chkResLoRead (a0 : State) (s : State) d u :
    Same a0 (State.chkResLoRead s d u) ↔ Same a0 s := by
  simp [State.chkResLoRead]

@[simp] theorem same_chkAudBatchLoRead (a0 : State) (s : State) p :
    Same a0 (State.chkAudBatchLoRead s p) ↔ Same a0 s := by
  simp [State.chkAudBatchLoRead]

/-! ### Audit -/

@[simp] theorem same_auditFetch (a0 : State) (s : State) h p close heads batch :
    Same a0 (State.auditFetch s h p close heads batch).1 ↔ Same a0 s := by
  unfold State.auditFetch
  simp only []
  (repeat' split) <;> simp

@[simp] theorem same_mitDrop (a0 : State) (s : State) p :
    Same a0 (State.mitDrop s p) ↔ Same a0 s := by
  simp [State.mitDrop]

@[simp] theorem same_mitAnnounce (a0 : State) (s : State) p :
    Same a0 (State.mitAnnounce s p) ↔ Same a0 s := by
  unfold State.mitAnnounce
  (try simp only [])
  repeat' (first | split | with_reducible exact Iff.rfl | refine (same_foldl _ _ _ _ fun _ _ => ?_).trans ?_ | refine (same_foldl_fst _ _ _ _ fun _ _ => ?_).trans ?_ | simp)

@[simp] theorem same_mitRefresh (a0 : State) (s : State) p :
    Same a0 (State.mitRefresh s p) ↔ Same a0 s := by
  simp [State.mitRefresh]

@[simp] theorem same_mitPair (a0 : State) (s : State) stop link peer pairs :
    Same a0 (State.mitPair s stop link peer pairs) ↔ Same a0 s := by
  simp [State.mitPair]

@[simp] theorem same_mitDissolve (a0 : State) (s : State) :
    Same a0 (State.mitDissolve s) ↔ Same a0 s := by
  simp [State.mitDissolve]

@[simp] theorem same_mittenPair (a0 : State) (s : State) h stop link peer pairs :
    Same a0 (State.mittenPair s h stop link peer pairs).1 ↔ Same a0 s := by
  unfold State.mittenPair
  (repeat' split) <;> simp

@[simp] theorem same_mittenDissolve (a0 : State) (s : State) h :
    Same a0 (State.mittenDissolve s h).1 ↔ Same a0 s := by
  simp [State.mittenDissolve]

@[simp] theorem same_mitDiverge (a0 : State) (s : State) p stream seq cause mask ours peers :
    Same a0 (State.mitDiverge s p stream seq cause mask ours peers) ↔ Same a0 s := by
  simp [State.mitDiverge]

@[simp] theorem same_mitCompare (a0 : State) (s : State) a b :
    Same a0 (State.mitCompare s a b) ↔ Same a0 s := by
  simp [State.mitCompare]

@[simp] theorem same_mitSend (a0 : State) (s : State) :
    Same a0 (State.mitSend s) ↔ Same a0 s := by
  unfold State.mitSend
  simp only []
  (repeat' split) <;> simp

@[simp] theorem same_mitTake (a0 : State) (s : State) p b :
    Same a0 (State.mitTake s p b) ↔ Same a0 s := by
  unfold State.mitTake
  simp only []
  (repeat' split) <;> simp

@[simp] theorem same_mittenMsg (a0 s : State) (d i : Nat) :
    Same a0 (State.mittenMsg s d i) ↔ Same a0 s := by
  unfold State.mittenMsg
  simp only []
  split
  · rfl
  · next heq =>
    rw [← same_svcTake heq a0]
    (repeat' split) <;> simp

@[simp] theorem same_mitExpiry (a0 : State) (s : State) :
    Same a0 (State.mitExpiry s) ↔ Same a0 s := by
  unfold State.mitExpiry
  (repeat' split) <;> simp

@[simp] theorem same_digestExchange (a0 : State) (s : State) p dg t :
    Same a0 (State.digestExchange s p dg t) ↔ Same a0 s := by
  unfold State.digestExchange
  (repeat' split) <;> simp

@[simp] theorem same_barrierGo (a0 : State) (s : State) :
    Same a0 (State.barrierGo s) ↔ Same a0 s := by
  unfold State.barrierGo
  simp only []
  (repeat' split) <;> simp

/-! ### Ports -/

@[simp] theorem same_pushReady (a0 : State) (s : State) p c :
    Same a0 (State.pushReady s p c) ↔ Same a0 s := by
  simp [State.pushReady]

@[simp] theorem same_dropHead (a0 : State) (s : State) p :
    Same a0 (State.dropHead s p) ↔ Same a0 s := by
  simp [State.dropHead]

@[simp] theorem same_tellQueued (a0 : State) (s : State) h op :
    Same a0 (State.tellQueued s h op) ↔ Same a0 s := by
  simp [State.tellQueued]

@[simp] theorem same_take (a0 s : State) (c : Instr) (f : State → Bool → State)
    (h : ∀ t b, Same a0 (f t b) ↔ Same a0 t) : Same a0 (State.take s c f) ↔ Same a0 s := by
  unfold State.take
  simp only []
  split
  · rfl
  · split
    · exact (h ..).trans (same_dropHead ..)
    · simp
    · (repeat' split) <;> simp

@[simp] theorem same_vet (a0 s : State) (c : Instr) (f : CmdHdr → Nat → State)
    (h : ∀ t b, Same a0 (f t b) ↔ Same a0 s) : Same a0 (State.vet s c f) ↔ Same a0 s := by
  unfold State.vet
  (repeat' split) <;> simp_all

@[simp] theorem same_instant (a0 s : State) (c : Instr) (f : State → CmdRes)
    (h : ∀ t, Same a0 (f t).1 ↔ Same a0 t) : Same a0 (State.instant s c f) ↔ Same a0 s := by
  unfold State.instant
  refine same_take _ _ _ _ fun t b => same_vet _ _ _ _ fun x n => ?_
  simp only []
  (repeat' split) <;> simp_all

@[simp] theorem same_addOp (a0 : State) (s : State) c st agent dies buf told :
    Same a0 (State.addOp s c st agent dies buf told) ↔ Same a0 s := by
  unfold State.addOp
  (repeat' split) <;> simp

@[simp] theorem same_begin (a0 s : State) (c : Instr) (e : Option (Nat × Nat)) (f : State → State)
    (h : Same a0 (f s) ↔ Same a0 s) : Same a0 (State.begin s c e f) ↔ Same a0 s := by
  unfold State.begin
  (repeat' split) <;> simp_all

@[simp] theorem same_putOp (a0 : State) (s : State) o :
    Same a0 (State.putOp s o) ↔ Same a0 s := by
  simp [State.putOp]

/-! ### Commands -/

@[simp] theorem same_answer (a0 : State) (s : State) h b :
    Same a0 (State.answer s h b).1 ↔ Same a0 s := by
  simp [State.answer]

@[simp] theorem same_query (a0 : State) (s : State) h sel part :
    Same a0 (State.query s h sel part).1 ↔ Same a0 s := by
  unfold State.query
  (repeat' split) <;> simp

@[simp] theorem same_counterRead (a0 : State) (s : State) h d mask bmask :
    Same a0 (State.counterRead s h d mask bmask).1 ↔ Same a0 s := by
  unfold State.counterRead
  (repeat' split) <;> simp

@[simp] theorem same_readSettingsCmd (a0 : State) (s : State) h rmask :
    Same a0 (State.readSettingsCmd s h rmask).1 ↔ Same a0 s := by
  simp [State.readSettingsCmd]

@[simp] theorem same_wakeTol (a0 : State) (s : State) c h part tol told :
    Same a0 (State.wakeTol s c h part tol told) ↔ Same a0 s := by
  simp [State.wakeTol]

@[simp] theorem same_bufWrite (a0 : State) (s : State) h data :
    Same a0 (State.bufWrite s h data) ↔ Same a0 s := by
  unfold State.bufWrite
  (repeat' split) <;> simp

@[simp] theorem same_bufRead (a0 : State) (s : State) h :
    Same a0 (State.bufRead s h) ↔ Same a0 s := by
  unfold State.bufRead
  (repeat' split) <;> simp

@[simp] theorem same_addWait (a0 : State) (s : State) c told :
    Same a0 (State.addWait s c told) ↔ Same a0 s := by
  simp [State.addWait]

@[simp] theorem same_addLong (a0 : State) (s : State) c first ds buf :
    Same a0 (State.addLong s c first ds buf) ↔ Same a0 s := by
  simp [State.addLong]

@[simp] theorem same_mapStaged (a0 : State) (s : State) p dst f :
    Same a0 (State.mapStaged s p dst f) ↔ Same a0 s := by
  unfold State.mapStaged
  (try simp only [])
  repeat' (first | split | with_reducible exact Iff.rfl | refine (same_foldl _ _ _ _ fun _ _ => ?_).trans ?_ | refine (same_foldl_fst _ _ _ _ fun _ _ => ?_).trans ?_ | simp)

@[simp] theorem same_stageBegin (a0 : State) (s : State) p dst len off n :
    Same a0 (State.stageBegin s p dst len off n) ↔ Same a0 s := by
  simp [State.stageBegin]

@[simp] theorem same_modeSet (a0 s : State) (c : Instr) (h : CmdHdr) (p : Nat) (f : State × Option (Nat × Nat))
    (k : Same a0 f.1 ↔ Same a0 s) : Same a0 (State.modeSet s c h p f) ↔ Same a0 s := by
  unfold State.modeSet
  (repeat' split) <;> simp_all

@[simp] theorem same_sourceRead (a0 : State) (s : State) p o n :
    Same a0 (State.sourceRead s p o n).1 ↔ Same a0 s := by
  simp [State.sourceRead]

@[simp] theorem same_stageSource (a0 : State) (s : State) o i p kind :
    Same a0 (State.stageSource s o i p kind).1 ↔ Same a0 s := by
  simp [State.stageSource]

@[simp] theorem same_stageEnd (a0 : State) (s : State) p dst e :
    Same a0 (State.stageEnd s p dst e) ↔ Same a0 s := by
  simp [State.stageEnd]

@[simp] theorem same_stageFails (a0 : State) (s : State) p dst off n :
    Same a0 (State.stageFails s p dst off n) ↔ Same a0 s := by
  unfold State.stageFails
  (try simp only [])
  repeat' (first | split | with_reducible exact Iff.rfl | refine (same_foldl _ _ _ _ fun _ _ => ?_).trans ?_ | refine (same_foldl_fst _ _ _ _ fun _ _ => ?_).trans ?_ | simp)

@[simp] theorem same_stagingStep (a0 : State) (s : State) o i p kind dst off :
    Same a0 (State.stagingStep s o i p kind dst off) ↔ Same a0 s := by
  unfold State.stagingStep
  (try simp only [])
  repeat' (first | split | with_reducible exact Iff.rfl | refine (same_foldl _ _ _ _ fun _ _ => ?_).trans ?_ | refine (same_foldl_fst _ _ _ _ fun _ _ => ?_).trans ?_ | simp)

@[simp] theorem same_loadDone (a0 : State) (s : State) o p st d v :
    Same a0 (State.loadDone s o p st d v) ↔ Same a0 s := by
  unfold State.loadDone
  (try simp only [])
  repeat' (first | split | with_reducible exact Iff.rfl | refine (same_foldl _ _ _ _ fun _ _ => ?_).trans ?_ | refine (same_foldl_fst _ _ _ _ fun _ _ => ?_).trans ?_ | simp)

@[simp] theorem same_loadStep (a0 : State) (s : State) o i p img relaxed flush epoch :
    Same a0 (State.loadStep s o i p img relaxed flush epoch) ↔ Same a0 s := by
  unfold State.loadStep
  simp only []
  (repeat' split) <;> simp

@[simp] theorem same_saveStep (a0 : State) (s : State) o i p base :
    Same a0 (State.saveStep s o i p base) ↔ Same a0 s := by
  simp [State.saveStep]

@[simp] theorem same_restoreStep (a0 : State) (s : State) o i p base :
    Same a0 (State.restoreStep s o i p base) ↔ Same a0 s := by
  simp [State.restoreStep]

@[simp] theorem same_modeStep (a0 : State) (s : State) o i p :
    Same a0 (State.modeStep s o i p) ↔ Same a0 s := by
  unfold State.modeStep
  (repeat' split) <;> simp

@[simp] theorem same_scrubOp (a0 s : State) (o : Op) (i : StepIn) a b c d e f :
    Same a0 (State.scrubOp s o i a b c d e f) ↔ Same a0 s := by
  unfold State.scrubOp
  simp only []
  (repeat' split) <;> simp_all

@[simp] theorem same_storeStep (a0 : State) (s : State) o i :
    Same a0 (State.storeStep s o i) ↔ Same a0 s := by
  simp [State.storeStep]

@[simp] theorem same_eyeStep (a0 : State) (s : State) o i l g :
    Same a0 (State.eyeStep s o i l g) ↔ Same a0 s := by
  simp [State.eyeStep]

@[simp] theorem same_runStep (a0 s : State) (o : Op) (i : StepIn) :
    Same a0 (State.runStep s o i) ↔ Same a0 s := by
  unfold State.runStep
  simp only []
  (repeat' split) <;> first | rfl | simp

@[simp] theorem same_longStep (a0 : State) (s : State) p tag i :
    Same a0 (State.longStep s p tag i) ↔ Same a0 s := by
  unfold State.longStep
  (repeat' split) <;> simp

/-! ### Transport -/

@[simp] theorem same_submit (a0 : State) (s : State) p b :
    Same a0 (State.submit s p b) ↔ Same a0 s := by
  simp [State.submit]

@[simp] theorem same_sqTailWrite (a0 : State) (s : State) l tail :
    Same a0 (State.sqTailWrite s l tail) ↔ Same a0 s := by
  simp [State.sqTailWrite]

@[simp] theorem same_descriptorFetched (a0 : State) (s : State) l d :
    Same a0 (State.descriptorFetched s l d) ↔ Same a0 s := by
  simp [State.descriptorFetched]

@[simp] theorem same_drainHeld (a0 s : State) (p : Port) (n : Nat) :
    Same a0 (State.drainHeld s p n) ↔ Same a0 s := by
  induction n generalizing s with
  | zero => exact Iff.rfl
  | succ f ih =>
    rw [State.drainHeld]
    (repeat' split) <;> simp [ih]

@[simp] theorem same_cqHeadWrite (a0 : State) (s : State) l v :
    Same a0 (State.cqHeadWrite s l v) ↔ Same a0 s := by
  simp [State.cqHeadWrite]

@[simp] theorem same_portReset (a0 : State) (s : State) l down :
    Same a0 (State.portReset s l down) ↔ Same a0 s := by
  simp [State.portReset]

@[simp] theorem same_pcieUp (a0 : State) (s : State) l :
    Same a0 (State.pcieUp s l) ↔ Same a0 s := by
  simp [State.pcieUp]

@[simp] theorem same_unreadTake (a0 : State) (s : State) p :
    Same a0 (State.unreadTake s p).2 ↔ Same a0 s := by
  unfold State.unreadTake
  simp only []
  (repeat' split) <;> simp

@[simp] theorem same_smbusWrite (a0 : State) (s : State) b pecOk :
    Same a0 (State.smbusWrite s b pecOk) ↔ Same a0 s := by
  simp [State.smbusWrite]

@[simp] theorem same_smbusRead (a0 : State) (s : State) :
    Same a0 (State.smbusRead s) ↔ Same a0 s := by
  simp [State.smbusRead]

@[simp] theorem same_glinSubmit (a0 : State) (s : State) b :
    Same a0 (State.glinSubmit s b) ↔ Same a0 s := by
  simp [State.glinSubmit]

@[simp] theorem same_glinComplete (a0 : State) (s : State) :
    Same a0 (State.glinComplete s) ↔ Same a0 s := by
  simp [State.glinComplete]

@[simp] theorem same_controlMsg (a0 s : State) (d i : Nat) :
    Same a0 (State.controlMsg s d i) ↔ Same a0 s := by
  unfold State.controlMsg
  split
  · rfl
  · next heq =>
    rw [← same_svcTake heq a0]
    simp only []
    (repeat' split) <;> simp

@[simp] theorem same_controlResend (a0 : State) (s : State) d i :
    Same a0 (State.controlResend s d i) ↔ Same a0 s := by
  simp [State.controlResend]

@[simp] theorem same_recordAgain (a0 : State) (s : State) a v :
    Same a0 (State.recordAgain s a v) ↔ Same a0 s := by
  unfold State.recordAgain
  (try simp only [])
  repeat' (first | split | with_reducible exact Iff.rfl | refine (same_foldl _ _ _ _ fun _ _ => ?_).trans ?_ | refine (same_foldl_fst _ _ _ _ fun _ _ => ?_).trans ?_ | simp)

/-! ### RegWrite -/

@[simp] theorem same_regStore (a0 : State) (s : State) g a v :
    Same a0 (State.regStore s g a v) ↔ Same a0 s := by
  unfold State.regStore
  (repeat' split) <;> simp

@[simp] theorem same_peakAgain (a0 : State) (s : State) a :
    Same a0 (State.peakAgain s a) ↔ Same a0 s := by
  unfold State.peakAgain
  (try simp only [])
  repeat' (first | split | with_reducible exact Iff.rfl | refine (same_foldl _ _ _ _ fun _ _ => ?_).trans ?_ | refine (same_foldl_fst _ _ _ _ fun _ _ => ?_).trans ?_ | simp)

@[simp] theorem same_regClear (a0 : State) (s : State) a :
    Same a0 (State.regClear s a) ↔ Same a0 s := by
  unfold State.regClear
  (repeat' split) <;> simp

@[simp] theorem same_seqCycleLo (a0 : State) (s : State) d :
    Same a0 (State.seqCycleLo s d) ↔ Same a0 s := by
  simp [State.seqCycleLo]

@[simp] theorem same_gauLyrLo (a0 : State) (s : State) d l k :
    Same a0 (State.gauLyrLo s d l k) ↔ Same a0 s := by
  simp [State.gauLyrLo]

@[simp] theorem same_partBndLo (a0 : State) (s : State) p :
    Same a0 (State.partBndLo s p) ↔ Same a0 s := by
  simp [State.partBndLo]

@[simp] theorem same_strmSeqLo (a0 : State) (s : State) d st :
    Same a0 (State.strmSeqLo s d st) ↔ Same a0 s := by
  simp [State.strmSeqLo]

@[simp] theorem same_memErrAddrLo (a0 : State) (s : State) d k :
    Same a0 (State.memErrAddrLo s d k) ↔ Same a0 s := by
  simp [State.memErrAddrLo]

@[simp] theorem same_srvOffLo (a0 : State) (s : State) t :
    Same a0 (State.srvOffLo s t) ↔ Same a0 s := by
  simp [State.srvOffLo]

@[simp] theorem same_ppsTauLo (a0 : State) (s : State) :
    Same a0 (State.ppsTauLo s) ↔ Same a0 s := by
  simp [State.ppsTauLo]

@[simp] theorem same_nvsSeqLo (a0 : State) (s : State) d :
    Same a0 (State.nvsSeqLo s d) ↔ Same a0 s := by
  simp [State.nvsSeqLo]

theorem same_loFixed {s t : State} {d o : Nat} (h : s.loFixed d o = some t) (a0 : State) : Same a0 t ↔ Same a0 s := by
  unfold State.loFixed at h
  repeat' split at h
  all_goals first | (cases h; done) | (cases h; simp)

theorem same_loElem {s t : State} {d o : Nat} (h : s.loElem d o = some t) (a0 : State) : Same a0 t ↔ Same a0 s := by
  unfold State.loElem at h
  repeat' split at h
  all_goals first | (cases h; done) | (cases h; simp)

theorem same_loLane {s t : State} {b n l o : Nat} (h : s.loLane b n l o = some t) (a0 : State) : Same a0 t ↔ Same a0 s := by
  unfold State.loLane at h
  repeat' split at h
  all_goals first | (cases h; done) | (cases h; simp)

theorem same_loPkg {s t : State} {o : Nat} (h : s.loPkg o = some t) (a0 : State) : Same a0 t ↔ Same a0 s := by
  unfold State.loPkg at h
  repeat' split at h
  all_goals first | (cases h; done) | (cases h; simp)

theorem same_loRead {s t : State} {d o : Nat} (h : s.loRead d o = some t) (a0 : State) : Same a0 t ↔ Same a0 s := by
  unfold State.loRead at h
  split at h
  · next e => cases h; exact same_loFixed e a0
  · next e => cases h; exact same_loElem e a0
  · (repeat' split at h)
    · exact same_loLane h a0
    · exact same_loLane h a0
    · exact same_loPkg h a0
    · cases h

@[simp] theorem same_fltPop (a0 : State) (s : State) d :
    Same a0 (State.fltPop s d) ↔ Same a0 s := by
  simp [State.fltPop]

@[simp] theorem same_clrLayers (a0 s : State) (d : Nat) (t o : Bool) :
    Same a0 (State.clrLayers s d t o) ↔ Same a0 s := Iff.rfl

@[simp] theorem same_bucketsCheck (a0 : State) (s : State) d :
    Same a0 (State.bucketsCheck s d) ↔ Same a0 s := by
  simp [State.bucketsCheck]

@[simp] theorem same_mapIgnored (a0 : State) (s : State) d :
    Same a0 (State.mapIgnored s d) ↔ Same a0 s := by
  simp [State.mapIgnored]

@[simp] theorem same_strmSeqLoWrite (a0 : State) (s : State) d st v :
    Same a0 (State.strmSeqLoWrite s d st v) ↔ Same a0 s := by
  simp [State.strmSeqLoWrite]

@[simp] theorem same_strmSeqHiWrite (a0 : State) (s : State) d st v :
    Same a0 (State.strmSeqHiWrite s d st v) ↔ Same a0 s := by
  simp [State.strmSeqHiWrite]

@[simp] theorem same_ctlWrite (a0 : State) (s : State) g o v :
    Same a0 (State.ctlWrite s g o v) ↔ Same a0 s := by
  unfold State.ctlWrite
  (repeat' split) <;> simp

@[simp] theorem same_fltWrite (a0 : State) (s : State) g d a o v :
    Same a0 (State.fltWrite s g d a o v) ↔ Same a0 s := by
  simp [State.fltWrite]

@[simp] theorem same_cntWrite (a0 : State) (s : State) g d a o v :
    Same a0 (State.cntWrite s g d a o v) ↔ Same a0 s := by
  unfold State.cntWrite
  (repeat' split) <;> simp

@[simp] theorem same_chkWrite (a0 : State) (s : State) g d a o v :
    Same a0 (State.chkWrite s g d a o v) ↔ Same a0 s := by
  unfold State.chkWrite
  (repeat' split) <;> simp

@[simp] theorem same_timWrite (a0 : State) (s : State) g a o v :
    Same a0 (State.timWrite s g a o v) ↔ Same a0 s := by
  unfold State.timWrite
  (repeat' split) <;> simp

@[simp] theorem same_capWrite (a0 : State) (s : State) g d a o v :
    Same a0 (State.capWrite s g d a o v) ↔ Same a0 s := by
  unfold State.capWrite
  (repeat' split) <;> simp

@[simp] theorem same_wylWrite (a0 : State) (s : State) g d a o v :
    Same a0 (State.wylWrite s g d a o v) ↔ Same a0 s := by
  unfold State.wylWrite
  (repeat' split) <;> simp

@[simp] theorem same_regWrite (a0 s : State) (g : Agent) (a : Nat) (v : Word) :
    Same a0 (State.regWrite s g a v) ↔ Same a0 s := by
  unfold State.regWrite
  simp only []
  generalize addrOff a = o
  (repeat' split)
  · exact same_ctlWrite ..
  · exact same_fltWrite ..
  · exact same_chkWrite ..
  · exact same_cntWrite ..
  · exact same_timWrite ..
  · exact same_regStore ..
  · rfl
  · exact same_clrLayers ..
  · exact same_capWrite ..
  · exact same_wylWrite ..
  · exact same_regStore ..

@[simp] theorem same_agentWrite (a0 : State) (s : State) g a v :
    Same a0 (State.agentWrite s g a v) ↔ Same a0 s := by
  simp [State.agentWrite]

/-! ### Bars -/

@[simp] theorem same_apertureBad (a0 : State) (s : State) kind key u writable :
    Same a0 (State.apertureBad s kind key u writable) ↔ Same a0 s := by
  simp [State.apertureBad]

@[simp] theorem same_apertureWord (a0 : State) (s : State) r o :
    Same a0 (State.apertureWord s r o).1 ↔ Same a0 s := by
  simp [State.apertureWord]

@[simp] theorem same_apertureRead (a0 s : State) (l a : Nat) :
    Same a0 (State.apertureRead s l a) ↔ Same a0 s := by
  unfold State.apertureRead
  split
  · exact same_readOut ..
  · simp only [apertureOut, same_mk, same_readOut, same_apertureWord]

@[simp] theorem same_barRead (a0 s : State) (g : Agent) (a : Nat) :
    Same a0 (State.barRead s g a) ↔ Same a0 s := by
  unfold State.barRead
  (repeat' split) <;> first | simp | exact same_loRead ‹_› a0

@[simp] theorem same_bar2Unit (a0 : State) (s : State) k u :
    Same a0 (State.bar2Unit s k u).1 ↔ Same a0 s := by
  simp [State.bar2Unit]

@[simp] theorem same_bar2Errors (a0 : State) (s : State) k b n :
    Same a0 (State.bar2Errors s k b n).1 ↔ Same a0 s := by
  simp [State.bar2Errors]

@[simp] theorem same_bar2Read (a0 : State) (s : State) k b n :
    Same a0 (State.bar2Read s k b n) ↔ Same a0 s := by
  simp [State.bar2Read]

@[simp] theorem same_bar2Write (a0 : State) (s : State) k b bs :
    Same a0 (State.bar2Write s k b bs) ↔ Same a0 s := by
  simp [State.bar2Write]

@[simp] theorem same_bar2None (a0 : State) (s : State) write :
    Same a0 (State.bar2None s write) ↔ Same a0 s := by
  simp [State.bar2None]

@[simp] theorem same_bar2 (a0 : State) (s : State) l o w n :
    Same a0 (State.bar2 s l o w n) ↔ Same a0 s := by
  unfold State.bar2
  (repeat' split) <;> simp

@[simp] theorem same_unitHeads (a0 : State) (s : State) u :
    Same a0 (State.unitHeads s u) ↔ Same a0 s := by
  unfold State.unitHeads
  (try simp only [])
  repeat' (first | split | with_reducible exact Iff.rfl | refine (same_foldl _ _ _ _ fun _ _ => ?_).trans ?_ | refine (same_foldl_fst _ _ _ _ fun _ _ => ?_).trans ?_ | simp)

@[simp] theorem same_headsCheck (a0 : State) (s : State) :
    Same a0 (State.headsCheck s) ↔ Same a0 s := by
  unfold State.headsCheck
  (try simp only [])
  repeat' (first | split | with_reducible exact Iff.rfl | refine (same_foldl _ _ _ _ fun _ _ => ?_).trans ?_ | refine (same_foldl_fst _ _ _ _ fun _ _ => ?_).trans ?_ | simp)

@[simp] theorem same_unitStall (a0 : State) (s : State) u x :
    Same a0 (State.unitStall s u x) ↔ Same a0 s := by
  unfold State.unitStall
  (try simp only [])
  repeat' (first | split | with_reducible exact Iff.rfl | refine (same_foldl _ _ _ _ fun _ _ => ?_).trans ?_ | refine (same_foldl_fst _ _ _ _ fun _ _ => ?_).trans ?_ | simp)

@[simp] theorem same_scaleStalls (a0 : State) (s : State) k :
    Same a0 (State.scaleStalls s k) ↔ Same a0 s := by
  unfold State.scaleStalls
  (try simp only [])
  repeat' (first | split | with_reducible exact Iff.rfl | refine (same_foldl _ _ _ _ fun _ _ => ?_).trans ?_ | refine (same_foldl_fst _ _ _ _ fun _ _ => ?_).trans ?_ | simp)

@[simp] theorem same_slotStall (a0 : State) (s : State) key w :
    Same a0 (State.slotStall s key w) ↔ Same a0 s := by
  unfold State.slotStall
  (try simp only [])
  repeat' (first | split | with_reducible exact Iff.rfl | refine (same_foldl _ _ _ _ fun _ _ => ?_).trans ?_ | refine (same_foldl_fst _ _ _ _ fun _ _ => ?_).trans ?_ | simp)

@[simp] theorem same_sourceStall (a0 : State) (s : State) key :
    Same a0 (State.sourceStall s key) ↔ Same a0 s := by
  unfold State.sourceStall
  (try simp only [])
  repeat' (first | split | with_reducible exact Iff.rfl | refine (same_foldl _ _ _ _ fun _ _ => ?_).trans ?_ | refine (same_foldl_fst _ _ _ _ fun _ _ => ?_).trans ?_ | simp)

@[simp] theorem same_crossStall (a0 : State) (s : State) key inward ps :
    Same a0 (State.crossStall s key inward ps) ↔ Same a0 s := by
  unfold State.crossStall
  (try simp only [])
  repeat' (first | split | with_reducible exact Iff.rfl | refine (same_foldl _ _ _ _ fun _ _ => ?_).trans ?_ | refine (same_foldl_fst _ _ _ _ fun _ _ => ?_).trans ?_ | simp)

@[simp] theorem same_bridgeStall (a0 : State) (s : State) key ps :
    Same a0 (State.bridgeStall s key ps) ↔ Same a0 s := by
  unfold State.bridgeStall
  (try simp only [])
  repeat' (first | split | with_reducible exact Iff.rfl | refine (same_foldl _ _ _ _ fun _ _ => ?_).trans ?_ | refine (same_foldl_fst _ _ _ _ fun _ _ => ?_).trans ?_ | simp)

@[simp] theorem same_memStalls (a0 : State) (s : State) r ms :
    Same a0 (State.memStalls s r ms) ↔ Same a0 s := by
  unfold State.memStalls
  (try simp only [])
  repeat' (first | split | with_reducible exact Iff.rfl | refine (same_foldl _ _ _ _ fun _ _ => ?_).trans ?_ | refine (same_foldl_fst _ _ _ _ fun _ _ => ?_).trans ?_ | simp)

@[simp] theorem same_gauStall (a0 : State) (s : State) k l :
    Same a0 (State.gauStall s k l) ↔ Same a0 s := by
  unfold State.gauStall
  (try simp only [])
  repeat' (first | split | with_reducible exact Iff.rfl | refine (same_foldl _ _ _ _ fun _ _ => ?_).trans ?_ | refine (same_foldl_fst _ _ _ _ fun _ _ => ?_).trans ?_ | simp)

@[simp] theorem same_stalls (a0 : State) (s : State) :
    Same a0 (State.stalls s) ↔ Same a0 s := by
  unfold State.stalls
  (try simp only [])
  repeat' (first | split | with_reducible exact Iff.rfl | refine (same_foldl _ _ _ _ fun _ _ => ?_).trans ?_ | refine (same_foldl_fst _ _ _ _ fun _ _ => ?_).trans ?_ | simp)

@[simp] theorem same_cycleOver (a0 : State) (s : State) :
    Same a0 (State.cycleOver s) ↔ Same a0 s := by
  unfold State.cycleOver
  (try simp only [])
  repeat' (first | split | with_reducible exact Iff.rfl | refine (same_foldl _ _ _ _ fun _ _ => ?_).trans ?_ | refine (same_foldl_fst _ _ _ _ fun _ _ => ?_).trans ?_ | simp)

@[simp] theorem same_admit (a0 : State) (s : State) :
    Same a0 (State.admitCycle s) ↔ Same a0 s := by
  unfold State.admitCycle
  (try simp only [])
  repeat' (first | split | with_reducible exact Iff.rfl | refine (same_foldl _ _ _ _ fun _ _ => ?_).trans ?_ | refine (same_foldl_fst _ _ _ _ fun _ _ => ?_).trans ?_ | simp)

/-! ### Tick -/

@[simp] theorem same_cycleCounts (a0 : State) (s : State) d :
    Same a0 (State.cycleCounts s d) ↔ Same a0 s := by
  simp [State.cycleCounts]

@[simp] theorem same_advance (a0 : State) (s : State) :
    Same a0 (State.advance s) ↔ Same a0 s := by
  simp [State.advance]

@[simp] theorem same_tick (a0 : State) (s : State) :
    Same a0 (State.tick s) ↔ Same a0 s := by
  simp [State.tick]

end Sys2Proof.Machine
end

