-- ==== Sys2Proof/Laws/State.lean ====
section
/-! SUPPORT. What each plain update of State leaves alone, field by field, and what it writes. -/

namespace Sys2Proof.Machine

/-! ### setReg -/

@[simp] theorem setReg_pending (s : State) (a : Nat) (v : Word) : (s.setReg a v).pending = s.pending := rfl
@[simp] theorem setReg_hw (s : State) (a : Nat) (v : Word) : (s.setReg a v).hw = s.hw := rfl
@[simp] theorem setReg_cyc (s : State) (a : Nat) (v : Word) : (s.setReg a v).cyc = s.cyc := rfl
@[simp] theorem setReg_now (s : State) (a : Nat) (v : Word) : (s.setReg a v).now = s.now := rfl
@[simp] theorem setReg_readData (s : State) (a : Nat) (v : Word) : (s.setReg a v).readData = s.readData := rfl
@[simp] theorem setReg_readBytes (s : State) (a : Nat) (v : Word) : (s.setReg a v).readBytes = s.readBytes := rfl
@[simp] theorem setReg_readEnd (s : State) (a : Nat) (v : Word) : (s.setReg a v).readEnd = s.readEnd := rfl
@[simp] theorem setReg_free (s : State) (a : Nat) (v : Word) : (s.setReg a v).free = s.free := rfl
@[simp] theorem setReg_ports (s : State) (a : Nat) (v : Word) : (s.setReg a v).ports = s.ports := rfl
@[simp] theorem setReg_ops (s : State) (a : Nat) (v : Word) : (s.setReg a v).ops = s.ops := rfl
@[simp] theorem setReg_parts (s : State) (a : Nat) (v : Word) : (s.setReg a v).parts = s.parts := rfl
@[simp] theorem setReg_lat (s : State) (a : Nat) (v : Word) : (s.setReg a v).lat = s.lat := rfl
@[simp] theorem setReg_seq (s : State) (a : Nat) (v : Word) : (s.setReg a v).seq = s.seq := rfl
@[simp] theorem setReg_gau (s : State) (a : Nat) (v : Word) : (s.setReg a v).gau = s.gau := rfl
@[simp] theorem setReg_chains (s : State) (a : Nat) (v : Word) : (s.setReg a v).chains = s.chains := rfl
@[simp] theorem setReg_mit (s : State) (a : Nat) (v : Word) : (s.setReg a v).mit = s.mit := rfl
@[simp] theorem setReg_flt (s : State) (a : Nat) (v : Word) : (s.setReg a v).flt = s.flt := rfl
@[simp] theorem setReg_cnt (s : State) (a : Nat) (v : Word) : (s.setReg a v).cnt = s.cnt := rfl
@[simp] theorem setReg_tim (s : State) (a : Nat) (v : Word) : (s.setReg a v).tim = s.tim := rfl
@[simp] theorem setReg_deep (s : State) (a : Nat) (v : Word) : (s.setReg a v).deep = s.deep := rfl
@[simp] theorem setReg_cap (s : State) (a : Nat) (v : Word) : (s.setReg a v).cap = s.cap := rfl
@[simp] theorem setReg_lan (s : State) (a : Nat) (v : Word) : (s.setReg a v).lan = s.lan := rfl
@[simp] theorem setReg_wyl (s : State) (a : Nat) (v : Word) : (s.setReg a v).wyl = s.wyl := rfl
@[simp] theorem setReg_sys (s : State) (a : Nat) (v : Word) : (s.setReg a v).sys = s.sys := rfl
@[simp] theorem setReg_barrier (s : State) (a : Nat) (v : Word) : (s.setReg a v).barrier = s.barrier := rfl

/-! ### setField -/

@[simp] theorem setField_pending (s : State) (a hi lo v : Nat) : (s.setField a hi lo v).pending = s.pending := rfl
@[simp] theorem setField_hw (s : State) (a hi lo v : Nat) : (s.setField a hi lo v).hw = s.hw := rfl
@[simp] theorem setField_cyc (s : State) (a hi lo v : Nat) : (s.setField a hi lo v).cyc = s.cyc := rfl
@[simp] theorem setField_now (s : State) (a hi lo v : Nat) : (s.setField a hi lo v).now = s.now := rfl
@[simp] theorem setField_readData (s : State) (a hi lo v : Nat) : (s.setField a hi lo v).readData = s.readData := rfl
@[simp] theorem setField_readBytes (s : State) (a hi lo v : Nat) : (s.setField a hi lo v).readBytes = s.readBytes := rfl
@[simp] theorem setField_readEnd (s : State) (a hi lo v : Nat) : (s.setField a hi lo v).readEnd = s.readEnd := rfl
@[simp] theorem setField_free (s : State) (a hi lo v : Nat) : (s.setField a hi lo v).free = s.free := rfl
@[simp] theorem setField_ports (s : State) (a hi lo v : Nat) : (s.setField a hi lo v).ports = s.ports := rfl
@[simp] theorem setField_ops (s : State) (a hi lo v : Nat) : (s.setField a hi lo v).ops = s.ops := rfl
@[simp] theorem setField_parts (s : State) (a hi lo v : Nat) : (s.setField a hi lo v).parts = s.parts := rfl
@[simp] theorem setField_lat (s : State) (a hi lo v : Nat) : (s.setField a hi lo v).lat = s.lat := rfl
@[simp] theorem setField_seq (s : State) (a hi lo v : Nat) : (s.setField a hi lo v).seq = s.seq := rfl
@[simp] theorem setField_gau (s : State) (a hi lo v : Nat) : (s.setField a hi lo v).gau = s.gau := rfl
@[simp] theorem setField_chains (s : State) (a hi lo v : Nat) : (s.setField a hi lo v).chains = s.chains := rfl
@[simp] theorem setField_mit (s : State) (a hi lo v : Nat) : (s.setField a hi lo v).mit = s.mit := rfl
@[simp] theorem setField_flt (s : State) (a hi lo v : Nat) : (s.setField a hi lo v).flt = s.flt := rfl
@[simp] theorem setField_cnt (s : State) (a hi lo v : Nat) : (s.setField a hi lo v).cnt = s.cnt := rfl
@[simp] theorem setField_tim (s : State) (a hi lo v : Nat) : (s.setField a hi lo v).tim = s.tim := rfl
@[simp] theorem setField_deep (s : State) (a hi lo v : Nat) : (s.setField a hi lo v).deep = s.deep := rfl
@[simp] theorem setField_cap (s : State) (a hi lo v : Nat) : (s.setField a hi lo v).cap = s.cap := rfl
@[simp] theorem setField_lan (s : State) (a hi lo v : Nat) : (s.setField a hi lo v).lan = s.lan := rfl
@[simp] theorem setField_wyl (s : State) (a hi lo v : Nat) : (s.setField a hi lo v).wyl = s.wyl := rfl
@[simp] theorem setField_sys (s : State) (a hi lo v : Nat) : (s.setField a hi lo v).sys = s.sys := rfl
@[simp] theorem setField_barrier (s : State) (a hi lo v : Nat) : (s.setField a hi lo v).barrier = s.barrier := rfl

/-! ### setFlag -/

@[simp] theorem setFlag_pending (s : State) (a i : Nat) (b : Bool) : (s.setFlag a i b).pending = s.pending := rfl
@[simp] theorem setFlag_hw (s : State) (a i : Nat) (b : Bool) : (s.setFlag a i b).hw = s.hw := rfl
@[simp] theorem setFlag_now (s : State) (a i : Nat) (b : Bool) : (s.setFlag a i b).now = s.now := rfl
@[simp] theorem setFlag_readData (s : State) (a i : Nat) (b : Bool) : (s.setFlag a i b).readData = s.readData := rfl
@[simp] theorem setFlag_readBytes (s : State) (a i : Nat) (b : Bool) : (s.setFlag a i b).readBytes = s.readBytes := rfl
@[simp] theorem setFlag_readEnd (s : State) (a i : Nat) (b : Bool) : (s.setFlag a i b).readEnd = s.readEnd := rfl
@[simp] theorem setFlag_free (s : State) (a i : Nat) (b : Bool) : (s.setFlag a i b).free = s.free := rfl
@[simp] theorem setFlag_ports (s : State) (a i : Nat) (b : Bool) : (s.setFlag a i b).ports = s.ports := rfl
@[simp] theorem setFlag_ops (s : State) (a i : Nat) (b : Bool) : (s.setFlag a i b).ops = s.ops := rfl
@[simp] theorem setFlag_parts (s : State) (a i : Nat) (b : Bool) : (s.setFlag a i b).parts = s.parts := rfl
@[simp] theorem setFlag_lat (s : State) (a i : Nat) (b : Bool) : (s.setFlag a i b).lat = s.lat := rfl
@[simp] theorem setFlag_seq (s : State) (a i : Nat) (b : Bool) : (s.setFlag a i b).seq = s.seq := rfl
@[simp] theorem setFlag_gau (s : State) (a i : Nat) (b : Bool) : (s.setFlag a i b).gau = s.gau := rfl
@[simp] theorem setFlag_chains (s : State) (a i : Nat) (b : Bool) : (s.setFlag a i b).chains = s.chains := rfl
@[simp] theorem setFlag_mit (s : State) (a i : Nat) (b : Bool) : (s.setFlag a i b).mit = s.mit := rfl
@[simp] theorem setFlag_flt (s : State) (a i : Nat) (b : Bool) : (s.setFlag a i b).flt = s.flt := rfl
@[simp] theorem setFlag_cnt (s : State) (a i : Nat) (b : Bool) : (s.setFlag a i b).cnt = s.cnt := rfl
@[simp] theorem setFlag_tim (s : State) (a i : Nat) (b : Bool) : (s.setFlag a i b).tim = s.tim := rfl
@[simp] theorem setFlag_deep (s : State) (a i : Nat) (b : Bool) : (s.setFlag a i b).deep = s.deep := rfl
@[simp] theorem setFlag_cap (s : State) (a i : Nat) (b : Bool) : (s.setFlag a i b).cap = s.cap := rfl
@[simp] theorem setFlag_lan (s : State) (a i : Nat) (b : Bool) : (s.setFlag a i b).lan = s.lan := rfl
@[simp] theorem setFlag_wyl (s : State) (a i : Nat) (b : Bool) : (s.setFlag a i b).wyl = s.wyl := rfl
@[simp] theorem setFlag_sys (s : State) (a i : Nat) (b : Bool) : (s.setFlag a i b).sys = s.sys := rfl
@[simp] theorem setFlag_barrier (s : State) (a i : Nat) (b : Bool) : (s.setFlag a i b).barrier = s.barrier := rfl

/-! ### addField -/

@[simp] theorem addField_pending (s : State) (a hi lo n : Nat) : (s.addField a hi lo n).pending = s.pending := rfl
@[simp] theorem addField_hw (s : State) (a hi lo n : Nat) : (s.addField a hi lo n).hw = s.hw := rfl
@[simp] theorem addField_now (s : State) (a hi lo n : Nat) : (s.addField a hi lo n).now = s.now := rfl
@[simp] theorem addField_readData (s : State) (a hi lo n : Nat) : (s.addField a hi lo n).readData = s.readData := rfl
@[simp] theorem addField_readBytes (s : State) (a hi lo n : Nat) : (s.addField a hi lo n).readBytes = s.readBytes := rfl
@[simp] theorem addField_readEnd (s : State) (a hi lo n : Nat) : (s.addField a hi lo n).readEnd = s.readEnd := rfl
@[simp] theorem addField_free (s : State) (a hi lo n : Nat) : (s.addField a hi lo n).free = s.free := rfl
@[simp] theorem addField_ports (s : State) (a hi lo n : Nat) : (s.addField a hi lo n).ports = s.ports := rfl
@[simp] theorem addField_ops (s : State) (a hi lo n : Nat) : (s.addField a hi lo n).ops = s.ops := rfl
@[simp] theorem addField_parts (s : State) (a hi lo n : Nat) : (s.addField a hi lo n).parts = s.parts := rfl
@[simp] theorem addField_lat (s : State) (a hi lo n : Nat) : (s.addField a hi lo n).lat = s.lat := rfl
@[simp] theorem addField_seq (s : State) (a hi lo n : Nat) : (s.addField a hi lo n).seq = s.seq := rfl
@[simp] theorem addField_gau (s : State) (a hi lo n : Nat) : (s.addField a hi lo n).gau = s.gau := rfl
@[simp] theorem addField_chains (s : State) (a hi lo n : Nat) : (s.addField a hi lo n).chains = s.chains := rfl
@[simp] theorem addField_mit (s : State) (a hi lo n : Nat) : (s.addField a hi lo n).mit = s.mit := rfl
@[simp] theorem addField_flt (s : State) (a hi lo n : Nat) : (s.addField a hi lo n).flt = s.flt := rfl
@[simp] theorem addField_cnt (s : State) (a hi lo n : Nat) : (s.addField a hi lo n).cnt = s.cnt := rfl
@[simp] theorem addField_tim (s : State) (a hi lo n : Nat) : (s.addField a hi lo n).tim = s.tim := rfl
@[simp] theorem addField_deep (s : State) (a hi lo n : Nat) : (s.addField a hi lo n).deep = s.deep := rfl
@[simp] theorem addField_cap (s : State) (a hi lo n : Nat) : (s.addField a hi lo n).cap = s.cap := rfl
@[simp] theorem addField_lan (s : State) (a hi lo n : Nat) : (s.addField a hi lo n).lan = s.lan := rfl
@[simp] theorem addField_wyl (s : State) (a hi lo n : Nat) : (s.addField a hi lo n).wyl = s.wyl := rfl
@[simp] theorem addField_sys (s : State) (a hi lo n : Nat) : (s.addField a hi lo n).sys = s.sys := rfl
@[simp] theorem addField_barrier (s : State) (a hi lo n : Nat) : (s.addField a hi lo n).barrier = s.barrier := rfl

/-! ### addReg -/

@[simp] theorem addReg_pending (s : State) (a n : Nat) : (s.addReg a n).pending = s.pending := rfl
@[simp] theorem addReg_hw (s : State) (a n : Nat) : (s.addReg a n).hw = s.hw := rfl
@[simp] theorem addReg_now (s : State) (a n : Nat) : (s.addReg a n).now = s.now := rfl
@[simp] theorem addReg_readData (s : State) (a n : Nat) : (s.addReg a n).readData = s.readData := rfl
@[simp] theorem addReg_readBytes (s : State) (a n : Nat) : (s.addReg a n).readBytes = s.readBytes := rfl
@[simp] theorem addReg_readEnd (s : State) (a n : Nat) : (s.addReg a n).readEnd = s.readEnd := rfl
@[simp] theorem addReg_free (s : State) (a n : Nat) : (s.addReg a n).free = s.free := rfl
@[simp] theorem addReg_ports (s : State) (a n : Nat) : (s.addReg a n).ports = s.ports := rfl
@[simp] theorem addReg_ops (s : State) (a n : Nat) : (s.addReg a n).ops = s.ops := rfl
@[simp] theorem addReg_parts (s : State) (a n : Nat) : (s.addReg a n).parts = s.parts := rfl
@[simp] theorem addReg_lat (s : State) (a n : Nat) : (s.addReg a n).lat = s.lat := rfl
@[simp] theorem addReg_seq (s : State) (a n : Nat) : (s.addReg a n).seq = s.seq := rfl
@[simp] theorem addReg_gau (s : State) (a n : Nat) : (s.addReg a n).gau = s.gau := rfl
@[simp] theorem addReg_chains (s : State) (a n : Nat) : (s.addReg a n).chains = s.chains := rfl
@[simp] theorem addReg_mit (s : State) (a n : Nat) : (s.addReg a n).mit = s.mit := rfl
@[simp] theorem addReg_flt (s : State) (a n : Nat) : (s.addReg a n).flt = s.flt := rfl
@[simp] theorem addReg_cnt (s : State) (a n : Nat) : (s.addReg a n).cnt = s.cnt := rfl
@[simp] theorem addReg_tim (s : State) (a n : Nat) : (s.addReg a n).tim = s.tim := rfl
@[simp] theorem addReg_deep (s : State) (a n : Nat) : (s.addReg a n).deep = s.deep := rfl
@[simp] theorem addReg_cap (s : State) (a n : Nat) : (s.addReg a n).cap = s.cap := rfl
@[simp] theorem addReg_lan (s : State) (a n : Nat) : (s.addReg a n).lan = s.lan := rfl
@[simp] theorem addReg_wyl (s : State) (a n : Nat) : (s.addReg a n).wyl = s.wyl := rfl
@[simp] theorem addReg_sys (s : State) (a n : Nat) : (s.addReg a n).sys = s.sys := rfl
@[simp] theorem addReg_barrier (s : State) (a n : Nat) : (s.addReg a n).barrier = s.barrier := rfl

/-! ### maxField -/

@[simp] theorem maxField_pending (s : State) (a hi lo v : Nat) : (s.maxField a hi lo v).pending = s.pending := rfl
@[simp] theorem maxField_hw (s : State) (a hi lo v : Nat) : (s.maxField a hi lo v).hw = s.hw := rfl
@[simp] theorem maxField_now (s : State) (a hi lo v : Nat) : (s.maxField a hi lo v).now = s.now := rfl
@[simp] theorem maxField_readData (s : State) (a hi lo v : Nat) : (s.maxField a hi lo v).readData = s.readData := rfl
@[simp] theorem maxField_readBytes (s : State) (a hi lo v : Nat) : (s.maxField a hi lo v).readBytes = s.readBytes := rfl
@[simp] theorem maxField_readEnd (s : State) (a hi lo v : Nat) : (s.maxField a hi lo v).readEnd = s.readEnd := rfl
@[simp] theorem maxField_free (s : State) (a hi lo v : Nat) : (s.maxField a hi lo v).free = s.free := rfl
@[simp] theorem maxField_ports (s : State) (a hi lo v : Nat) : (s.maxField a hi lo v).ports = s.ports := rfl
@[simp] theorem maxField_ops (s : State) (a hi lo v : Nat) : (s.maxField a hi lo v).ops = s.ops := rfl
@[simp] theorem maxField_parts (s : State) (a hi lo v : Nat) : (s.maxField a hi lo v).parts = s.parts := rfl
@[simp] theorem maxField_lat (s : State) (a hi lo v : Nat) : (s.maxField a hi lo v).lat = s.lat := rfl
@[simp] theorem maxField_seq (s : State) (a hi lo v : Nat) : (s.maxField a hi lo v).seq = s.seq := rfl
@[simp] theorem maxField_gau (s : State) (a hi lo v : Nat) : (s.maxField a hi lo v).gau = s.gau := rfl
@[simp] theorem maxField_chains (s : State) (a hi lo v : Nat) : (s.maxField a hi lo v).chains = s.chains := rfl
@[simp] theorem maxField_mit (s : State) (a hi lo v : Nat) : (s.maxField a hi lo v).mit = s.mit := rfl
@[simp] theorem maxField_flt (s : State) (a hi lo v : Nat) : (s.maxField a hi lo v).flt = s.flt := rfl
@[simp] theorem maxField_cnt (s : State) (a hi lo v : Nat) : (s.maxField a hi lo v).cnt = s.cnt := rfl
@[simp] theorem maxField_tim (s : State) (a hi lo v : Nat) : (s.maxField a hi lo v).tim = s.tim := rfl
@[simp] theorem maxField_deep (s : State) (a hi lo v : Nat) : (s.maxField a hi lo v).deep = s.deep := rfl
@[simp] theorem maxField_cap (s : State) (a hi lo v : Nat) : (s.maxField a hi lo v).cap = s.cap := rfl
@[simp] theorem maxField_lan (s : State) (a hi lo v : Nat) : (s.maxField a hi lo v).lan = s.lan := rfl
@[simp] theorem maxField_wyl (s : State) (a hi lo v : Nat) : (s.maxField a hi lo v).wyl = s.wyl := rfl
@[simp] theorem maxField_sys (s : State) (a hi lo v : Nat) : (s.maxField a hi lo v).sys = s.sys := rfl
@[simp] theorem maxField_barrier (s : State) (a hi lo v : Nat) : (s.maxField a hi lo v).barrier = s.barrier := rfl

/-! ### putUnit -/

@[simp] theorem putUnit_pending (s : State) (u : Nat) (x : UnitState) : (s.putUnit u x).pending = s.pending := rfl
@[simp] theorem putUnit_hw (s : State) (u : Nat) (x : UnitState) : (s.putUnit u x).hw = s.hw := rfl
@[simp] theorem putUnit_cyc (s : State) (u : Nat) (x : UnitState) : (s.putUnit u x).cyc = s.cyc := rfl
@[simp] theorem putUnit_now (s : State) (u : Nat) (x : UnitState) : (s.putUnit u x).now = s.now := rfl
@[simp] theorem putUnit_regs (s : State) (u : Nat) (x : UnitState) : (s.putUnit u x).regs = s.regs := rfl
@[simp] theorem putUnit_readData (s : State) (u : Nat) (x : UnitState) : (s.putUnit u x).readData = s.readData := rfl
@[simp] theorem putUnit_readBytes (s : State) (u : Nat) (x : UnitState) : (s.putUnit u x).readBytes = s.readBytes := rfl
@[simp] theorem putUnit_readEnd (s : State) (u : Nat) (x : UnitState) : (s.putUnit u x).readEnd = s.readEnd := rfl
@[simp] theorem putUnit_free (s : State) (u : Nat) (x : UnitState) : (s.putUnit u x).free = s.free := rfl
@[simp] theorem putUnit_ports (s : State) (u : Nat) (x : UnitState) : (s.putUnit u x).ports = s.ports := rfl
@[simp] theorem putUnit_ops (s : State) (u : Nat) (x : UnitState) : (s.putUnit u x).ops = s.ops := rfl
@[simp] theorem putUnit_parts (s : State) (u : Nat) (x : UnitState) : (s.putUnit u x).parts = s.parts := rfl
@[simp] theorem putUnit_seq (s : State) (u : Nat) (x : UnitState) : (s.putUnit u x).seq = s.seq := rfl
@[simp] theorem putUnit_gau (s : State) (u : Nat) (x : UnitState) : (s.putUnit u x).gau = s.gau := rfl
@[simp] theorem putUnit_chains (s : State) (u : Nat) (x : UnitState) : (s.putUnit u x).chains = s.chains := rfl
@[simp] theorem putUnit_mit (s : State) (u : Nat) (x : UnitState) : (s.putUnit u x).mit = s.mit := rfl
@[simp] theorem putUnit_flt (s : State) (u : Nat) (x : UnitState) : (s.putUnit u x).flt = s.flt := rfl
@[simp] theorem putUnit_cnt (s : State) (u : Nat) (x : UnitState) : (s.putUnit u x).cnt = s.cnt := rfl
@[simp] theorem putUnit_tim (s : State) (u : Nat) (x : UnitState) : (s.putUnit u x).tim = s.tim := rfl
@[simp] theorem putUnit_deep (s : State) (u : Nat) (x : UnitState) : (s.putUnit u x).deep = s.deep := rfl
@[simp] theorem putUnit_cap (s : State) (u : Nat) (x : UnitState) : (s.putUnit u x).cap = s.cap := rfl
@[simp] theorem putUnit_lan (s : State) (u : Nat) (x : UnitState) : (s.putUnit u x).lan = s.lan := rfl
@[simp] theorem putUnit_wyl (s : State) (u : Nat) (x : UnitState) : (s.putUnit u x).wyl = s.wyl := rfl
@[simp] theorem putUnit_sys (s : State) (u : Nat) (x : UnitState) : (s.putUnit u x).sys = s.sys := rfl
@[simp] theorem putUnit_barrier (s : State) (u : Nat) (x : UnitState) : (s.putUnit u x).barrier = s.barrier := rfl

/-! ### putCluster -/

@[simp] theorem putCluster_pending (s : State) (k : Nat) (x : ClusterState) : (s.putCluster k x).pending = s.pending := rfl
@[simp] theorem putCluster_hw (s : State) (k : Nat) (x : ClusterState) : (s.putCluster k x).hw = s.hw := rfl
@[simp] theorem putCluster_cyc (s : State) (k : Nat) (x : ClusterState) : (s.putCluster k x).cyc = s.cyc := rfl
@[simp] theorem putCluster_now (s : State) (k : Nat) (x : ClusterState) : (s.putCluster k x).now = s.now := rfl
@[simp] theorem putCluster_regs (s : State) (k : Nat) (x : ClusterState) : (s.putCluster k x).regs = s.regs := rfl
@[simp] theorem putCluster_readData (s : State) (k : Nat) (x : ClusterState) : (s.putCluster k x).readData = s.readData := rfl
@[simp] theorem putCluster_readBytes (s : State) (k : Nat) (x : ClusterState) : (s.putCluster k x).readBytes = s.readBytes := rfl
@[simp] theorem putCluster_readEnd (s : State) (k : Nat) (x : ClusterState) : (s.putCluster k x).readEnd = s.readEnd := rfl
@[simp] theorem putCluster_free (s : State) (k : Nat) (x : ClusterState) : (s.putCluster k x).free = s.free := rfl
@[simp] theorem putCluster_ports (s : State) (k : Nat) (x : ClusterState) : (s.putCluster k x).ports = s.ports := rfl
@[simp] theorem putCluster_ops (s : State) (k : Nat) (x : ClusterState) : (s.putCluster k x).ops = s.ops := rfl
@[simp] theorem putCluster_parts (s : State) (k : Nat) (x : ClusterState) : (s.putCluster k x).parts = s.parts := rfl
@[simp] theorem putCluster_seq (s : State) (k : Nat) (x : ClusterState) : (s.putCluster k x).seq = s.seq := rfl
@[simp] theorem putCluster_gau (s : State) (k : Nat) (x : ClusterState) : (s.putCluster k x).gau = s.gau := rfl
@[simp] theorem putCluster_chains (s : State) (k : Nat) (x : ClusterState) : (s.putCluster k x).chains = s.chains := rfl
@[simp] theorem putCluster_mit (s : State) (k : Nat) (x : ClusterState) : (s.putCluster k x).mit = s.mit := rfl
@[simp] theorem putCluster_flt (s : State) (k : Nat) (x : ClusterState) : (s.putCluster k x).flt = s.flt := rfl
@[simp] theorem putCluster_cnt (s : State) (k : Nat) (x : ClusterState) : (s.putCluster k x).cnt = s.cnt := rfl
@[simp] theorem putCluster_tim (s : State) (k : Nat) (x : ClusterState) : (s.putCluster k x).tim = s.tim := rfl
@[simp] theorem putCluster_deep (s : State) (k : Nat) (x : ClusterState) : (s.putCluster k x).deep = s.deep := rfl
@[simp] theorem putCluster_cap (s : State) (k : Nat) (x : ClusterState) : (s.putCluster k x).cap = s.cap := rfl
@[simp] theorem putCluster_lan (s : State) (k : Nat) (x : ClusterState) : (s.putCluster k x).lan = s.lan := rfl
@[simp] theorem putCluster_wyl (s : State) (k : Nat) (x : ClusterState) : (s.putCluster k x).wyl = s.wyl := rfl
@[simp] theorem putCluster_sys (s : State) (k : Nat) (x : ClusterState) : (s.putCluster k x).sys = s.sys := rfl
@[simp] theorem putCluster_barrier (s : State) (k : Nat) (x : ClusterState) : (s.putCluster k x).barrier = s.barrier := rfl

/-! ### putPort -/

@[simp] theorem putPort_pending (s : State) (p : Port) (x : PortState) : (s.putPort p x).pending = s.pending := rfl
@[simp] theorem putPort_hw (s : State) (p : Port) (x : PortState) : (s.putPort p x).hw = s.hw := rfl
@[simp] theorem putPort_cyc (s : State) (p : Port) (x : PortState) : (s.putPort p x).cyc = s.cyc := rfl
@[simp] theorem putPort_now (s : State) (p : Port) (x : PortState) : (s.putPort p x).now = s.now := rfl
@[simp] theorem putPort_regs (s : State) (p : Port) (x : PortState) : (s.putPort p x).regs = s.regs := rfl
@[simp] theorem putPort_readData (s : State) (p : Port) (x : PortState) : (s.putPort p x).readData = s.readData := rfl
@[simp] theorem putPort_readBytes (s : State) (p : Port) (x : PortState) : (s.putPort p x).readBytes = s.readBytes := rfl
@[simp] theorem putPort_readEnd (s : State) (p : Port) (x : PortState) : (s.putPort p x).readEnd = s.readEnd := rfl
@[simp] theorem putPort_free (s : State) (p : Port) (x : PortState) : (s.putPort p x).free = s.free := rfl
@[simp] theorem putPort_ops (s : State) (p : Port) (x : PortState) : (s.putPort p x).ops = s.ops := rfl
@[simp] theorem putPort_parts (s : State) (p : Port) (x : PortState) : (s.putPort p x).parts = s.parts := rfl
@[simp] theorem putPort_lat (s : State) (p : Port) (x : PortState) : (s.putPort p x).lat = s.lat := rfl
@[simp] theorem putPort_seq (s : State) (p : Port) (x : PortState) : (s.putPort p x).seq = s.seq := rfl
@[simp] theorem putPort_gau (s : State) (p : Port) (x : PortState) : (s.putPort p x).gau = s.gau := rfl
@[simp] theorem putPort_chains (s : State) (p : Port) (x : PortState) : (s.putPort p x).chains = s.chains := rfl
@[simp] theorem putPort_mit (s : State) (p : Port) (x : PortState) : (s.putPort p x).mit = s.mit := rfl
@[simp] theorem putPort_flt (s : State) (p : Port) (x : PortState) : (s.putPort p x).flt = s.flt := rfl
@[simp] theorem putPort_cnt (s : State) (p : Port) (x : PortState) : (s.putPort p x).cnt = s.cnt := rfl
@[simp] theorem putPort_tim (s : State) (p : Port) (x : PortState) : (s.putPort p x).tim = s.tim := rfl
@[simp] theorem putPort_deep (s : State) (p : Port) (x : PortState) : (s.putPort p x).deep = s.deep := rfl
@[simp] theorem putPort_cap (s : State) (p : Port) (x : PortState) : (s.putPort p x).cap = s.cap := rfl
@[simp] theorem putPort_lan (s : State) (p : Port) (x : PortState) : (s.putPort p x).lan = s.lan := rfl
@[simp] theorem putPort_wyl (s : State) (p : Port) (x : PortState) : (s.putPort p x).wyl = s.wyl := rfl
@[simp] theorem putPort_sys (s : State) (p : Port) (x : PortState) : (s.putPort p x).sys = s.sys := rfl
@[simp] theorem putPort_barrier (s : State) (p : Port) (x : PortState) : (s.putPort p x).barrier = s.barrier := rfl

/-! ### putPart -/

@[simp] theorem putPart_pending (s : State) (p : Nat) (x : Partition) : (s.putPart p x).pending = s.pending := rfl
@[simp] theorem putPart_hw (s : State) (p : Nat) (x : Partition) : (s.putPart p x).hw = s.hw := rfl
@[simp] theorem putPart_cyc (s : State) (p : Nat) (x : Partition) : (s.putPart p x).cyc = s.cyc := rfl
@[simp] theorem putPart_now (s : State) (p : Nat) (x : Partition) : (s.putPart p x).now = s.now := rfl
@[simp] theorem putPart_regs (s : State) (p : Nat) (x : Partition) : (s.putPart p x).regs = s.regs := rfl
@[simp] theorem putPart_readData (s : State) (p : Nat) (x : Partition) : (s.putPart p x).readData = s.readData := rfl
@[simp] theorem putPart_readBytes (s : State) (p : Nat) (x : Partition) : (s.putPart p x).readBytes = s.readBytes := rfl
@[simp] theorem putPart_readEnd (s : State) (p : Nat) (x : Partition) : (s.putPart p x).readEnd = s.readEnd := rfl
@[simp] theorem putPart_free (s : State) (p : Nat) (x : Partition) : (s.putPart p x).free = s.free := rfl
@[simp] theorem putPart_ports (s : State) (p : Nat) (x : Partition) : (s.putPart p x).ports = s.ports := rfl
@[simp] theorem putPart_ops (s : State) (p : Nat) (x : Partition) : (s.putPart p x).ops = s.ops := rfl
@[simp] theorem putPart_lat (s : State) (p : Nat) (x : Partition) : (s.putPart p x).lat = s.lat := rfl
@[simp] theorem putPart_seq (s : State) (p : Nat) (x : Partition) : (s.putPart p x).seq = s.seq := rfl
@[simp] theorem putPart_gau (s : State) (p : Nat) (x : Partition) : (s.putPart p x).gau = s.gau := rfl
@[simp] theorem putPart_chains (s : State) (p : Nat) (x : Partition) : (s.putPart p x).chains = s.chains := rfl
@[simp] theorem putPart_mit (s : State) (p : Nat) (x : Partition) : (s.putPart p x).mit = s.mit := rfl
@[simp] theorem putPart_flt (s : State) (p : Nat) (x : Partition) : (s.putPart p x).flt = s.flt := rfl
@[simp] theorem putPart_cnt (s : State) (p : Nat) (x : Partition) : (s.putPart p x).cnt = s.cnt := rfl
@[simp] theorem putPart_tim (s : State) (p : Nat) (x : Partition) : (s.putPart p x).tim = s.tim := rfl
@[simp] theorem putPart_deep (s : State) (p : Nat) (x : Partition) : (s.putPart p x).deep = s.deep := rfl
@[simp] theorem putPart_cap (s : State) (p : Nat) (x : Partition) : (s.putPart p x).cap = s.cap := rfl
@[simp] theorem putPart_lan (s : State) (p : Nat) (x : Partition) : (s.putPart p x).lan = s.lan := rfl
@[simp] theorem putPart_wyl (s : State) (p : Nat) (x : Partition) : (s.putPart p x).wyl = s.wyl := rfl
@[simp] theorem putPart_sys (s : State) (p : Nat) (x : Partition) : (s.putPart p x).sys = s.sys := rfl
@[simp] theorem putPart_barrier (s : State) (p : Nat) (x : Partition) : (s.putPart p x).barrier = s.barrier := rfl

/-! ### putTb -/

@[simp] theorem putTb_pending (s : State) (t : Nat) (x : TimeBase) : (s.putTb t x).pending = s.pending := rfl
@[simp] theorem putTb_hw (s : State) (t : Nat) (x : TimeBase) : (s.putTb t x).hw = s.hw := rfl
@[simp] theorem putTb_cyc (s : State) (t : Nat) (x : TimeBase) : (s.putTb t x).cyc = s.cyc := rfl
@[simp] theorem putTb_now (s : State) (t : Nat) (x : TimeBase) : (s.putTb t x).now = s.now := rfl
@[simp] theorem putTb_regs (s : State) (t : Nat) (x : TimeBase) : (s.putTb t x).regs = s.regs := rfl
@[simp] theorem putTb_readData (s : State) (t : Nat) (x : TimeBase) : (s.putTb t x).readData = s.readData := rfl
@[simp] theorem putTb_readBytes (s : State) (t : Nat) (x : TimeBase) : (s.putTb t x).readBytes = s.readBytes := rfl
@[simp] theorem putTb_readEnd (s : State) (t : Nat) (x : TimeBase) : (s.putTb t x).readEnd = s.readEnd := rfl
@[simp] theorem putTb_free (s : State) (t : Nat) (x : TimeBase) : (s.putTb t x).free = s.free := rfl
@[simp] theorem putTb_ports (s : State) (t : Nat) (x : TimeBase) : (s.putTb t x).ports = s.ports := rfl
@[simp] theorem putTb_ops (s : State) (t : Nat) (x : TimeBase) : (s.putTb t x).ops = s.ops := rfl
@[simp] theorem putTb_parts (s : State) (t : Nat) (x : TimeBase) : (s.putTb t x).parts = s.parts := rfl
@[simp] theorem putTb_lat (s : State) (t : Nat) (x : TimeBase) : (s.putTb t x).lat = s.lat := rfl
@[simp] theorem putTb_seq (s : State) (t : Nat) (x : TimeBase) : (s.putTb t x).seq = s.seq := rfl
@[simp] theorem putTb_gau (s : State) (t : Nat) (x : TimeBase) : (s.putTb t x).gau = s.gau := rfl
@[simp] theorem putTb_chains (s : State) (t : Nat) (x : TimeBase) : (s.putTb t x).chains = s.chains := rfl
@[simp] theorem putTb_mit (s : State) (t : Nat) (x : TimeBase) : (s.putTb t x).mit = s.mit := rfl
@[simp] theorem putTb_flt (s : State) (t : Nat) (x : TimeBase) : (s.putTb t x).flt = s.flt := rfl
@[simp] theorem putTb_cnt (s : State) (t : Nat) (x : TimeBase) : (s.putTb t x).cnt = s.cnt := rfl
@[simp] theorem putTb_deep (s : State) (t : Nat) (x : TimeBase) : (s.putTb t x).deep = s.deep := rfl
@[simp] theorem putTb_cap (s : State) (t : Nat) (x : TimeBase) : (s.putTb t x).cap = s.cap := rfl
@[simp] theorem putTb_lan (s : State) (t : Nat) (x : TimeBase) : (s.putTb t x).lan = s.lan := rfl
@[simp] theorem putTb_wyl (s : State) (t : Nat) (x : TimeBase) : (s.putTb t x).wyl = s.wyl := rfl
@[simp] theorem putTb_sys (s : State) (t : Nat) (x : TimeBase) : (s.putTb t x).sys = s.sys := rfl
@[simp] theorem putTb_barrier (s : State) (t : Nat) (x : TimeBase) : (s.putTb t x).barrier = s.barrier := rfl

/-! ### putChain -/

@[simp] theorem putChain_pending (s : State) (p : Nat) (c : Chain) : (s.putChain p c).pending = s.pending := rfl
@[simp] theorem putChain_hw (s : State) (p : Nat) (c : Chain) : (s.putChain p c).hw = s.hw := rfl
@[simp] theorem putChain_cyc (s : State) (p : Nat) (c : Chain) : (s.putChain p c).cyc = s.cyc := rfl
@[simp] theorem putChain_now (s : State) (p : Nat) (c : Chain) : (s.putChain p c).now = s.now := rfl
@[simp] theorem putChain_regs (s : State) (p : Nat) (c : Chain) : (s.putChain p c).regs = s.regs := rfl
@[simp] theorem putChain_readData (s : State) (p : Nat) (c : Chain) : (s.putChain p c).readData = s.readData := rfl
@[simp] theorem putChain_readBytes (s : State) (p : Nat) (c : Chain) : (s.putChain p c).readBytes = s.readBytes := rfl
@[simp] theorem putChain_readEnd (s : State) (p : Nat) (c : Chain) : (s.putChain p c).readEnd = s.readEnd := rfl
@[simp] theorem putChain_free (s : State) (p : Nat) (c : Chain) : (s.putChain p c).free = s.free := rfl
@[simp] theorem putChain_ports (s : State) (p : Nat) (c : Chain) : (s.putChain p c).ports = s.ports := rfl
@[simp] theorem putChain_ops (s : State) (p : Nat) (c : Chain) : (s.putChain p c).ops = s.ops := rfl
@[simp] theorem putChain_parts (s : State) (p : Nat) (c : Chain) : (s.putChain p c).parts = s.parts := rfl
@[simp] theorem putChain_lat (s : State) (p : Nat) (c : Chain) : (s.putChain p c).lat = s.lat := rfl
@[simp] theorem putChain_seq (s : State) (p : Nat) (c : Chain) : (s.putChain p c).seq = s.seq := rfl
@[simp] theorem putChain_gau (s : State) (p : Nat) (c : Chain) : (s.putChain p c).gau = s.gau := rfl
@[simp] theorem putChain_mit (s : State) (p : Nat) (c : Chain) : (s.putChain p c).mit = s.mit := rfl
@[simp] theorem putChain_flt (s : State) (p : Nat) (c : Chain) : (s.putChain p c).flt = s.flt := rfl
@[simp] theorem putChain_cnt (s : State) (p : Nat) (c : Chain) : (s.putChain p c).cnt = s.cnt := rfl
@[simp] theorem putChain_tim (s : State) (p : Nat) (c : Chain) : (s.putChain p c).tim = s.tim := rfl
@[simp] theorem putChain_deep (s : State) (p : Nat) (c : Chain) : (s.putChain p c).deep = s.deep := rfl
@[simp] theorem putChain_cap (s : State) (p : Nat) (c : Chain) : (s.putChain p c).cap = s.cap := rfl
@[simp] theorem putChain_lan (s : State) (p : Nat) (c : Chain) : (s.putChain p c).lan = s.lan := rfl
@[simp] theorem putChain_wyl (s : State) (p : Nat) (c : Chain) : (s.putChain p c).wyl = s.wyl := rfl
@[simp] theorem putChain_sys (s : State) (p : Nat) (c : Chain) : (s.putChain p c).sys = s.sys := rfl
@[simp] theorem putChain_barrier (s : State) (p : Nat) (c : Chain) : (s.putChain p c).barrier = s.barrier := rfl

/-! ### readOut -/

@[simp] theorem readOut_pending (s : State) (w : Nat) : (s.readOut w).pending = s.pending := rfl
@[simp] theorem readOut_hw (s : State) (w : Nat) : (s.readOut w).hw = s.hw := rfl
@[simp] theorem readOut_cyc (s : State) (w : Nat) : (s.readOut w).cyc = s.cyc := rfl
@[simp] theorem readOut_now (s : State) (w : Nat) : (s.readOut w).now = s.now := rfl
@[simp] theorem readOut_regs (s : State) (w : Nat) : (s.readOut w).regs = s.regs := rfl
@[simp] theorem readOut_readBytes (s : State) (w : Nat) : (s.readOut w).readBytes = s.readBytes := rfl
@[simp] theorem readOut_free (s : State) (w : Nat) : (s.readOut w).free = s.free := rfl
@[simp] theorem readOut_ports (s : State) (w : Nat) : (s.readOut w).ports = s.ports := rfl
@[simp] theorem readOut_ops (s : State) (w : Nat) : (s.readOut w).ops = s.ops := rfl
@[simp] theorem readOut_parts (s : State) (w : Nat) : (s.readOut w).parts = s.parts := rfl
@[simp] theorem readOut_lat (s : State) (w : Nat) : (s.readOut w).lat = s.lat := rfl
@[simp] theorem readOut_seq (s : State) (w : Nat) : (s.readOut w).seq = s.seq := rfl
@[simp] theorem readOut_gau (s : State) (w : Nat) : (s.readOut w).gau = s.gau := rfl
@[simp] theorem readOut_chains (s : State) (w : Nat) : (s.readOut w).chains = s.chains := rfl
@[simp] theorem readOut_mit (s : State) (w : Nat) : (s.readOut w).mit = s.mit := rfl
@[simp] theorem readOut_flt (s : State) (w : Nat) : (s.readOut w).flt = s.flt := rfl
@[simp] theorem readOut_cnt (s : State) (w : Nat) : (s.readOut w).cnt = s.cnt := rfl
@[simp] theorem readOut_tim (s : State) (w : Nat) : (s.readOut w).tim = s.tim := rfl
@[simp] theorem readOut_deep (s : State) (w : Nat) : (s.readOut w).deep = s.deep := rfl
@[simp] theorem readOut_cap (s : State) (w : Nat) : (s.readOut w).cap = s.cap := rfl
@[simp] theorem readOut_lan (s : State) (w : Nat) : (s.readOut w).lan = s.lan := rfl
@[simp] theorem readOut_wyl (s : State) (w : Nat) : (s.readOut w).wyl = s.wyl := rfl
@[simp] theorem readOut_sys (s : State) (w : Nat) : (s.readOut w).sys = s.sys := rfl
@[simp] theorem readOut_barrier (s : State) (w : Nat) : (s.readOut w).barrier = s.barrier := rfl

/-! ### Accessors past an update of something else -/

@[simp] theorem unit_setReg (s : State) (a : Nat) (v : Word) (w : Nat) : (s.setReg a v).unit w = s.unit w := rfl
@[simp] theorem cluster_setReg (s : State) (a : Nat) (v : Word) (j : Nat) : (s.setReg a v).cluster j = s.cluster j := rfl
@[simp] theorem port_setReg (s : State) (a : Nat) (v : Word) (q : Port) : (s.setReg a v).port q = s.port q := rfl
@[simp] theorem part_setReg (s : State) (a : Nat) (v : Word) (q : Nat) : (s.setReg a v).part q = s.part q := rfl
@[simp] theorem tb_setReg (s : State) (a : Nat) (v : Word) (y : Nat) : (s.setReg a v).tb y = s.tb y := rfl
@[simp] theorem cycle_setReg (s : State) (a : Nat) (v : Word) (d : Nat) : (s.setReg a v).cycle d = s.cycle d := rfl
@[simp] theorem inst_setReg (s : State) (a : Nat) (v : Word) (y : Nat) : (s.setReg a v).inst y = s.inst y := rfl
@[simp] theorem regionPart_setReg (s : State) (a : Nat) (v : Word) (r : Nat) : (s.setReg a v).regionPart r = s.regionPart r := rfl
@[simp] theorem unit_setField (s : State) (a hi lo v : Nat) (w : Nat) : (s.setField a hi lo v).unit w = s.unit w := rfl
@[simp] theorem cluster_setField (s : State) (a hi lo v : Nat) (j : Nat) : (s.setField a hi lo v).cluster j = s.cluster j := rfl
@[simp] theorem port_setField (s : State) (a hi lo v : Nat) (q : Port) : (s.setField a hi lo v).port q = s.port q := rfl
@[simp] theorem part_setField (s : State) (a hi lo v : Nat) (q : Nat) : (s.setField a hi lo v).part q = s.part q := rfl
@[simp] theorem tb_setField (s : State) (a hi lo v : Nat) (y : Nat) : (s.setField a hi lo v).tb y = s.tb y := rfl
@[simp] theorem cycle_setField (s : State) (a hi lo v : Nat) (d : Nat) : (s.setField a hi lo v).cycle d = s.cycle d := rfl
@[simp] theorem inst_setField (s : State) (a hi lo v : Nat) (y : Nat) : (s.setField a hi lo v).inst y = s.inst y := rfl
@[simp] theorem regionPart_setField (s : State) (a hi lo v : Nat) (r : Nat) : (s.setField a hi lo v).regionPart r = s.regionPart r := rfl
@[simp] theorem unit_setFlag (s : State) (a i : Nat) (b : Bool) (w : Nat) : (s.setFlag a i b).unit w = s.unit w := rfl
@[simp] theorem cluster_setFlag (s : State) (a i : Nat) (b : Bool) (j : Nat) : (s.setFlag a i b).cluster j = s.cluster j := rfl
@[simp] theorem port_setFlag (s : State) (a i : Nat) (b : Bool) (q : Port) : (s.setFlag a i b).port q = s.port q := rfl
@[simp] theorem part_setFlag (s : State) (a i : Nat) (b : Bool) (q : Nat) : (s.setFlag a i b).part q = s.part q := rfl
@[simp] theorem tb_setFlag (s : State) (a i : Nat) (b : Bool) (y : Nat) : (s.setFlag a i b).tb y = s.tb y := rfl
@[simp] theorem cycle_setFlag (s : State) (a i : Nat) (b : Bool) (d : Nat) : (s.setFlag a i b).cycle d = s.cycle d := rfl
@[simp] theorem inst_setFlag (s : State) (a i : Nat) (b : Bool) (y : Nat) : (s.setFlag a i b).inst y = s.inst y := rfl
@[simp] theorem regionPart_setFlag (s : State) (a i : Nat) (b : Bool) (r : Nat) : (s.setFlag a i b).regionPart r = s.regionPart r := rfl
@[simp] theorem unit_addField (s : State) (a hi lo n : Nat) (w : Nat) : (s.addField a hi lo n).unit w = s.unit w := rfl
@[simp] theorem cluster_addField (s : State) (a hi lo n : Nat) (j : Nat) : (s.addField a hi lo n).cluster j = s.cluster j := rfl
@[simp] theorem port_addField (s : State) (a hi lo n : Nat) (q : Port) : (s.addField a hi lo n).port q = s.port q := rfl
@[simp] theorem part_addField (s : State) (a hi lo n : Nat) (q : Nat) : (s.addField a hi lo n).part q = s.part q := rfl
@[simp] theorem tb_addField (s : State) (a hi lo n : Nat) (y : Nat) : (s.addField a hi lo n).tb y = s.tb y := rfl
@[simp] theorem cycle_addField (s : State) (a hi lo n : Nat) (d : Nat) : (s.addField a hi lo n).cycle d = s.cycle d := rfl
@[simp] theorem inst_addField (s : State) (a hi lo n : Nat) (y : Nat) : (s.addField a hi lo n).inst y = s.inst y := rfl
@[simp] theorem regionPart_addField (s : State) (a hi lo n : Nat) (r : Nat) : (s.addField a hi lo n).regionPart r = s.regionPart r := rfl
@[simp] theorem unit_addReg (s : State) (a n : Nat) (w : Nat) : (s.addReg a n).unit w = s.unit w := rfl
@[simp] theorem cluster_addReg (s : State) (a n : Nat) (j : Nat) : (s.addReg a n).cluster j = s.cluster j := rfl
@[simp] theorem port_addReg (s : State) (a n : Nat) (q : Port) : (s.addReg a n).port q = s.port q := rfl
@[simp] theorem part_addReg (s : State) (a n : Nat) (q : Nat) : (s.addReg a n).part q = s.part q := rfl
@[simp] theorem tb_addReg (s : State) (a n : Nat) (y : Nat) : (s.addReg a n).tb y = s.tb y := rfl
@[simp] theorem cycle_addReg (s : State) (a n : Nat) (d : Nat) : (s.addReg a n).cycle d = s.cycle d := rfl
@[simp] theorem inst_addReg (s : State) (a n : Nat) (y : Nat) : (s.addReg a n).inst y = s.inst y := rfl
@[simp] theorem regionPart_addReg (s : State) (a n : Nat) (r : Nat) : (s.addReg a n).regionPart r = s.regionPart r := rfl
@[simp] theorem unit_maxField (s : State) (a hi lo v : Nat) (w : Nat) : (s.maxField a hi lo v).unit w = s.unit w := rfl
@[simp] theorem cluster_maxField (s : State) (a hi lo v : Nat) (j : Nat) : (s.maxField a hi lo v).cluster j = s.cluster j := rfl
@[simp] theorem port_maxField (s : State) (a hi lo v : Nat) (q : Port) : (s.maxField a hi lo v).port q = s.port q := rfl
@[simp] theorem part_maxField (s : State) (a hi lo v : Nat) (q : Nat) : (s.maxField a hi lo v).part q = s.part q := rfl
@[simp] theorem tb_maxField (s : State) (a hi lo v : Nat) (y : Nat) : (s.maxField a hi lo v).tb y = s.tb y := rfl
@[simp] theorem cycle_maxField (s : State) (a hi lo v : Nat) (d : Nat) : (s.maxField a hi lo v).cycle d = s.cycle d := rfl
@[simp] theorem inst_maxField (s : State) (a hi lo v : Nat) (y : Nat) : (s.maxField a hi lo v).inst y = s.inst y := rfl
@[simp] theorem regionPart_maxField (s : State) (a hi lo v : Nat) (r : Nat) : (s.maxField a hi lo v).regionPart r = s.regionPart r := rfl
@[simp] theorem reg_putUnit (s : State) (u : Nat) (x : UnitState) (b : Nat) : (s.putUnit u x).reg b = s.reg b := rfl
@[simp] theorem field_putUnit (s : State) (u : Nat) (x : UnitState) (b h l : Nat) : (s.putUnit u x).field b h l = s.field b h l := rfl
@[simp] theorem flag_putUnit (s : State) (u : Nat) (x : UnitState) (b i : Nat) : (s.putUnit u x).flag b i = s.flag b i := rfl
@[simp] theorem port_putUnit (s : State) (u : Nat) (x : UnitState) (q : Port) : (s.putUnit u x).port q = s.port q := rfl
@[simp] theorem part_putUnit (s : State) (u : Nat) (x : UnitState) (q : Nat) : (s.putUnit u x).part q = s.part q := rfl
@[simp] theorem tb_putUnit (s : State) (u : Nat) (x : UnitState) (y : Nat) : (s.putUnit u x).tb y = s.tb y := rfl
@[simp] theorem cycle_putUnit (s : State) (u : Nat) (x : UnitState) (d : Nat) : (s.putUnit u x).cycle d = s.cycle d := rfl
@[simp] theorem inst_putUnit (s : State) (u : Nat) (x : UnitState) (y : Nat) : (s.putUnit u x).inst y = s.inst y := rfl
@[simp] theorem regionPart_putUnit (s : State) (u : Nat) (x : UnitState) (r : Nat) : (s.putUnit u x).regionPart r = s.regionPart r := rfl
@[simp] theorem reg_putCluster (s : State) (k : Nat) (x : ClusterState) (b : Nat) : (s.putCluster k x).reg b = s.reg b := rfl
@[simp] theorem field_putCluster (s : State) (k : Nat) (x : ClusterState) (b h l : Nat) : (s.putCluster k x).field b h l = s.field b h l := rfl
@[simp] theorem flag_putCluster (s : State) (k : Nat) (x : ClusterState) (b i : Nat) : (s.putCluster k x).flag b i = s.flag b i := rfl
@[simp] theorem port_putCluster (s : State) (k : Nat) (x : ClusterState) (q : Port) : (s.putCluster k x).port q = s.port q := rfl
@[simp] theorem part_putCluster (s : State) (k : Nat) (x : ClusterState) (q : Nat) : (s.putCluster k x).part q = s.part q := rfl
@[simp] theorem tb_putCluster (s : State) (k : Nat) (x : ClusterState) (y : Nat) : (s.putCluster k x).tb y = s.tb y := rfl
@[simp] theorem cycle_putCluster (s : State) (k : Nat) (x : ClusterState) (d : Nat) : (s.putCluster k x).cycle d = s.cycle d := rfl
@[simp] theorem inst_putCluster (s : State) (k : Nat) (x : ClusterState) (y : Nat) : (s.putCluster k x).inst y = s.inst y := rfl
@[simp] theorem regionPart_putCluster (s : State) (k : Nat) (x : ClusterState) (r : Nat) : (s.putCluster k x).regionPart r = s.regionPart r := rfl
@[simp] theorem reg_putPort (s : State) (p : Port) (x : PortState) (b : Nat) : (s.putPort p x).reg b = s.reg b := rfl
@[simp] theorem field_putPort (s : State) (p : Port) (x : PortState) (b h l : Nat) : (s.putPort p x).field b h l = s.field b h l := rfl
@[simp] theorem flag_putPort (s : State) (p : Port) (x : PortState) (b i : Nat) : (s.putPort p x).flag b i = s.flag b i := rfl
@[simp] theorem unit_putPort (s : State) (p : Port) (x : PortState) (w : Nat) : (s.putPort p x).unit w = s.unit w := rfl
@[simp] theorem cluster_putPort (s : State) (p : Port) (x : PortState) (j : Nat) : (s.putPort p x).cluster j = s.cluster j := rfl
@[simp] theorem part_putPort (s : State) (p : Port) (x : PortState) (q : Nat) : (s.putPort p x).part q = s.part q := rfl
@[simp] theorem tb_putPort (s : State) (p : Port) (x : PortState) (y : Nat) : (s.putPort p x).tb y = s.tb y := rfl
@[simp] theorem cycle_putPort (s : State) (p : Port) (x : PortState) (d : Nat) : (s.putPort p x).cycle d = s.cycle d := rfl
@[simp] theorem inst_putPort (s : State) (p : Port) (x : PortState) (y : Nat) : (s.putPort p x).inst y = s.inst y := rfl
@[simp] theorem regionPart_putPort (s : State) (p : Port) (x : PortState) (r : Nat) : (s.putPort p x).regionPart r = s.regionPart r := rfl
@[simp] theorem reg_putPart (s : State) (p : Nat) (x : Partition) (b : Nat) : (s.putPart p x).reg b = s.reg b := rfl
@[simp] theorem field_putPart (s : State) (p : Nat) (x : Partition) (b h l : Nat) : (s.putPart p x).field b h l = s.field b h l := rfl
@[simp] theorem flag_putPart (s : State) (p : Nat) (x : Partition) (b i : Nat) : (s.putPart p x).flag b i = s.flag b i := rfl
@[simp] theorem unit_putPart (s : State) (p : Nat) (x : Partition) (w : Nat) : (s.putPart p x).unit w = s.unit w := rfl
@[simp] theorem cluster_putPart (s : State) (p : Nat) (x : Partition) (j : Nat) : (s.putPart p x).cluster j = s.cluster j := rfl
@[simp] theorem port_putPart (s : State) (p : Nat) (x : Partition) (q : Port) : (s.putPart p x).port q = s.port q := rfl
@[simp] theorem tb_putPart (s : State) (p : Nat) (x : Partition) (y : Nat) : (s.putPart p x).tb y = s.tb y := rfl
@[simp] theorem cycle_putPart (s : State) (p : Nat) (x : Partition) (d : Nat) : (s.putPart p x).cycle d = s.cycle d := rfl
@[simp] theorem inst_putPart (s : State) (p : Nat) (x : Partition) (y : Nat) : (s.putPart p x).inst y = s.inst y := rfl
@[simp] theorem reg_putTb (s : State) (t : Nat) (x : TimeBase) (b : Nat) : (s.putTb t x).reg b = s.reg b := rfl
@[simp] theorem field_putTb (s : State) (t : Nat) (x : TimeBase) (b h l : Nat) : (s.putTb t x).field b h l = s.field b h l := rfl
@[simp] theorem flag_putTb (s : State) (t : Nat) (x : TimeBase) (b i : Nat) : (s.putTb t x).flag b i = s.flag b i := rfl
@[simp] theorem unit_putTb (s : State) (t : Nat) (x : TimeBase) (w : Nat) : (s.putTb t x).unit w = s.unit w := rfl
@[simp] theorem cluster_putTb (s : State) (t : Nat) (x : TimeBase) (j : Nat) : (s.putTb t x).cluster j = s.cluster j := rfl
@[simp] theorem port_putTb (s : State) (t : Nat) (x : TimeBase) (q : Port) : (s.putTb t x).port q = s.port q := rfl
@[simp] theorem part_putTb (s : State) (t : Nat) (x : TimeBase) (q : Nat) : (s.putTb t x).part q = s.part q := rfl
@[simp] theorem cycle_putTb (s : State) (t : Nat) (x : TimeBase) (d : Nat) : (s.putTb t x).cycle d = s.cycle d := rfl
@[simp] theorem inst_putTb (s : State) (t : Nat) (x : TimeBase) (y : Nat) : (s.putTb t x).inst y = s.inst y := rfl
@[simp] theorem regionPart_putTb (s : State) (t : Nat) (x : TimeBase) (r : Nat) : (s.putTb t x).regionPart r = s.regionPart r := rfl
@[simp] theorem reg_putChain (s : State) (p : Nat) (c : Chain) (b : Nat) : (s.putChain p c).reg b = s.reg b := rfl
@[simp] theorem field_putChain (s : State) (p : Nat) (c : Chain) (b h l : Nat) : (s.putChain p c).field b h l = s.field b h l := rfl
@[simp] theorem flag_putChain (s : State) (p : Nat) (c : Chain) (b i : Nat) : (s.putChain p c).flag b i = s.flag b i := rfl
@[simp] theorem unit_putChain (s : State) (p : Nat) (c : Chain) (w : Nat) : (s.putChain p c).unit w = s.unit w := rfl
@[simp] theorem cluster_putChain (s : State) (p : Nat) (c : Chain) (j : Nat) : (s.putChain p c).cluster j = s.cluster j := rfl
@[simp] theorem port_putChain (s : State) (p : Nat) (c : Chain) (q : Port) : (s.putChain p c).port q = s.port q := rfl
@[simp] theorem part_putChain (s : State) (p : Nat) (c : Chain) (q : Nat) : (s.putChain p c).part q = s.part q := rfl
@[simp] theorem tb_putChain (s : State) (p : Nat) (c : Chain) (y : Nat) : (s.putChain p c).tb y = s.tb y := rfl
@[simp] theorem cycle_putChain (s : State) (p : Nat) (c : Chain) (d : Nat) : (s.putChain p c).cycle d = s.cycle d := rfl
@[simp] theorem inst_putChain (s : State) (p : Nat) (c : Chain) (y : Nat) : (s.putChain p c).inst y = s.inst y := rfl
@[simp] theorem regionPart_putChain (s : State) (p : Nat) (c : Chain) (r : Nat) : (s.putChain p c).regionPart r = s.regionPart r := rfl
@[simp] theorem reg_readOut (s : State) (w : Nat) (b : Nat) : (s.readOut w).reg b = s.reg b := rfl
@[simp] theorem field_readOut (s : State) (w : Nat) (b h l : Nat) : (s.readOut w).field b h l = s.field b h l := rfl
@[simp] theorem flag_readOut (s : State) (w : Nat) (b i : Nat) : (s.readOut w).flag b i = s.flag b i := rfl
@[simp] theorem unit_readOut (s : State) (w : Nat) (w' : Nat) : (s.readOut w).unit w' = s.unit w' := rfl
@[simp] theorem cluster_readOut (s : State) (w : Nat) (j : Nat) : (s.readOut w).cluster j = s.cluster j := rfl
@[simp] theorem port_readOut (s : State) (w : Nat) (q : Port) : (s.readOut w).port q = s.port q := rfl
@[simp] theorem part_readOut (s : State) (w : Nat) (q : Nat) : (s.readOut w).part q = s.part q := rfl
@[simp] theorem tb_readOut (s : State) (w : Nat) (y : Nat) : (s.readOut w).tb y = s.tb y := rfl
@[simp] theorem cycle_readOut (s : State) (w : Nat) (d : Nat) : (s.readOut w).cycle d = s.cycle d := rfl
@[simp] theorem inst_readOut (s : State) (w : Nat) (y : Nat) : (s.readOut w).inst y = s.inst y := rfl
@[simp] theorem regionPart_readOut (s : State) (w : Nat) (r : Nat) : (s.readOut w).regionPart r = s.regionPart r := rfl

/-! ### Accessors of an updated record -/

@[simp] theorem reg_mk (s : State) x_pending x_hw x_now x_cyc x_readData x_readBytes x_readEnd x_free x_ports x_ops x_parts x_lat x_seq x_gau x_chains x_mit x_flt x_cnt x_tim x_deep x_cap x_lan x_wyl x_sys x_barrier (b : Nat) :
    (State.mk x_pending x_hw x_now s.regs x_cyc x_readData x_readBytes x_readEnd x_free x_ports x_ops x_parts x_lat x_seq x_gau x_chains x_mit x_flt x_cnt x_tim x_deep x_cap x_lan x_wyl x_sys x_barrier).reg b = s.reg b := rfl
@[simp] theorem field_mk (s : State) x_pending x_hw x_now x_cyc x_readData x_readBytes x_readEnd x_free x_ports x_ops x_parts x_lat x_seq x_gau x_chains x_mit x_flt x_cnt x_tim x_deep x_cap x_lan x_wyl x_sys x_barrier (b h l : Nat) :
    (State.mk x_pending x_hw x_now s.regs x_cyc x_readData x_readBytes x_readEnd x_free x_ports x_ops x_parts x_lat x_seq x_gau x_chains x_mit x_flt x_cnt x_tim x_deep x_cap x_lan x_wyl x_sys x_barrier).field b h l = s.field b h l := rfl
@[simp] theorem flag_mk (s : State) x_pending x_hw x_now x_cyc x_readData x_readBytes x_readEnd x_free x_ports x_ops x_parts x_lat x_seq x_gau x_chains x_mit x_flt x_cnt x_tim x_deep x_cap x_lan x_wyl x_sys x_barrier (b i : Nat) :
    (State.mk x_pending x_hw x_now s.regs x_cyc x_readData x_readBytes x_readEnd x_free x_ports x_ops x_parts x_lat x_seq x_gau x_chains x_mit x_flt x_cnt x_tim x_deep x_cap x_lan x_wyl x_sys x_barrier).flag b i = s.flag b i := rfl
@[simp] theorem unit_mk (s : State) x_pending x_hw x_now x_regs x_cyc x_readData x_readBytes x_readEnd x_free x_ports x_ops x_parts x_seq x_gau x_chains x_mit x_flt x_cnt x_tim x_deep x_cap x_lan x_wyl x_sys x_barrier (w : Nat) :
    (State.mk x_pending x_hw x_now x_regs x_cyc x_readData x_readBytes x_readEnd x_free x_ports x_ops x_parts s.lat x_seq x_gau x_chains x_mit x_flt x_cnt x_tim x_deep x_cap x_lan x_wyl x_sys x_barrier).unit w = s.unit w := rfl
@[simp] theorem cluster_mk (s : State) x_pending x_hw x_now x_regs x_cyc x_readData x_readBytes x_readEnd x_free x_ports x_ops x_parts x_seq x_gau x_chains x_mit x_flt x_cnt x_tim x_deep x_cap x_lan x_wyl x_sys x_barrier (j : Nat) :
    (State.mk x_pending x_hw x_now x_regs x_cyc x_readData x_readBytes x_readEnd x_free x_ports x_ops x_parts s.lat x_seq x_gau x_chains x_mit x_flt x_cnt x_tim x_deep x_cap x_lan x_wyl x_sys x_barrier).cluster j = s.cluster j := rfl
@[simp] theorem port_mk (s : State) x_pending x_hw x_now x_regs x_cyc x_readData x_readBytes x_readEnd x_free x_ops x_parts x_lat x_seq x_gau x_chains x_mit x_flt x_cnt x_tim x_deep x_cap x_lan x_wyl x_sys x_barrier (q : Port) :
    (State.mk x_pending x_hw x_now x_regs x_cyc x_readData x_readBytes x_readEnd x_free s.ports x_ops x_parts x_lat x_seq x_gau x_chains x_mit x_flt x_cnt x_tim x_deep x_cap x_lan x_wyl x_sys x_barrier).port q = s.port q := rfl
@[simp] theorem part_mk (s : State) x_pending x_hw x_now x_regs x_cyc x_readData x_readBytes x_readEnd x_free x_ports x_ops x_lat x_seq x_gau x_chains x_mit x_flt x_cnt x_tim x_deep x_cap x_lan x_wyl x_sys x_barrier (q : Nat) :
    (State.mk x_pending x_hw x_now x_regs x_cyc x_readData x_readBytes x_readEnd x_free x_ports x_ops s.parts x_lat x_seq x_gau x_chains x_mit x_flt x_cnt x_tim x_deep x_cap x_lan x_wyl x_sys x_barrier).part q = s.part q := rfl
@[simp] theorem tb_mk (s : State) x_pending x_hw x_now x_regs x_cyc x_readData x_readBytes x_readEnd x_free x_ports x_ops x_parts x_lat x_seq x_gau x_chains x_mit x_flt x_cnt x_deep x_cap x_lan x_wyl x_sys x_barrier (y : Nat) :
    (State.mk x_pending x_hw x_now x_regs x_cyc x_readData x_readBytes x_readEnd x_free x_ports x_ops x_parts x_lat x_seq x_gau x_chains x_mit x_flt x_cnt s.tim x_deep x_cap x_lan x_wyl x_sys x_barrier).tb y = s.tb y := rfl
@[simp] theorem cycle_mk (s : State) x_pending x_hw x_now x_regs x_cyc x_readData x_readBytes x_readEnd x_free x_ports x_ops x_parts x_lat x_gau x_chains x_mit x_flt x_cnt x_tim x_deep x_cap x_lan x_wyl x_sys x_barrier (d : Nat) :
    (State.mk x_pending x_hw x_now x_regs x_cyc x_readData x_readBytes x_readEnd x_free x_ports x_ops x_parts x_lat s.seq x_gau x_chains x_mit x_flt x_cnt x_tim x_deep x_cap x_lan x_wyl x_sys x_barrier).cycle d = s.cycle d := rfl
@[simp] theorem inst_mk (s : State) x_pending x_hw x_now x_regs x_cyc x_readData x_readBytes x_readEnd x_free x_ports x_ops x_parts x_lat x_gau x_chains x_mit x_flt x_cnt x_tim x_deep x_cap x_lan x_wyl x_sys x_barrier (y : Nat) :
    (State.mk x_pending x_hw x_now x_regs x_cyc x_readData x_readBytes x_readEnd x_free x_ports x_ops x_parts x_lat s.seq x_gau x_chains x_mit x_flt x_cnt x_tim x_deep x_cap x_lan x_wyl x_sys x_barrier).inst y = s.inst y := rfl
@[simp] theorem regionPart_mk (s : State) x_pending x_hw x_now x_regs x_cyc x_readData x_readBytes x_readEnd x_free x_ports x_ops x_lat x_seq x_gau x_chains x_mit x_flt x_cnt x_tim x_deep x_cap x_lan x_wyl x_sys x_barrier (r : Nat) :
    (State.mk x_pending x_hw x_now x_regs x_cyc x_readData x_readBytes x_readEnd x_free x_ports x_ops s.parts x_lat x_seq x_gau x_chains x_mit x_flt x_cnt x_tim x_deep x_cap x_lan x_wyl x_sys x_barrier).regionPart r = s.regionPart r := rfl

/-! ### Reading what was written -/

theorem mapGetD_mapPut_ne {α : Type} [DecidableEq α] (m : AMap α) (k : Nat) (v d e : α) (j : Nat) (h : j ≠ k) :
    mapGetD (mapPut m k v d) j e = mapGetD m j e := by
  simp only [mapGetD, mapPut]
  split <;> simp [h]

@[simp] theorem reg_setReg (s : State) (a : Nat) (v : Word) (b : Nat) :
    (s.setReg a v).reg b = if b = a then v else s.reg b := by
  unfold State.reg State.setReg
  by_cases h : b = a
  · subst h
    simp
  · simp [mapGetD_mapPut_ne _ _ _ _ _ _ h, h]

@[simp] theorem reg_putCycle (s : State) (a : Nat) (e : RegCycle) (b : Nat) : (s.putCycle a e).reg b = s.reg b := rfl
@[simp] theorem part_putCycle (s : State) (a : Nat) (e : RegCycle) (p : Nat) : (s.putCycle a e).part p = s.part p := rfl

@[simp] theorem reg_happen (s : State) (a : Nat) (f : Word → Word) (b : Nat) :
    (s.happen a f).reg b = if b = a then f (s.reg a) else s.reg b := reg_setReg ..

/-- A flag that hardware sets stands in its register as a field of one bit does. -/
theorem reg_setFlag (s : State) (a i : Nat) (v : Bool) (b : Nat) :
    (s.setFlag a i v).reg b = (s.setField a i i (bitOf v)).reg b := by
  simp [State.setFlag, State.setField]

/-- A count raised stands in its register as its sum does. -/
theorem reg_addField (s : State) (a hi lo n b : Nat) : (s.addField a hi lo n).reg b =
    (s.setField a hi lo (min (2 ^ (hi + 1 - lo) - 1) (s.field a hi lo + n))).reg b := by
  simp [State.addField, State.setField, addBits, State.field]

@[simp] theorem unit_putUnit (s : State) (u : Nat) (x : UnitState) (w : Nat) :
    (s.putUnit u x).unit w = if w = u then x else s.unit w := by
  simp only [State.unit, State.putUnit, mapGetD_mapPut]

@[simp] theorem cluster_putCluster (s : State) (k : Nat) (x : ClusterState) (j : Nat) :
    (s.putCluster k x).cluster j = if j = k then x else s.cluster j := by
  simp only [State.cluster, State.putCluster, mapGetD_mapPut]

@[simp] theorem part_putPart (s : State) (p : Nat) (x : Partition) (q : Nat) :
    (s.putPart p x).part q = if q = p then x else s.part q := by
  simp only [State.part, State.putPart, mapGetD_mapPut]

@[simp] theorem tb_putTb (s : State) (t : Nat) (x : TimeBase) (u : Nat) :
    (s.putTb t x).tb u = if u = t then x else s.tb u := by
  simp only [State.tb, State.putTb, mapGetD_mapPut]

theorem portCode_inj {p q : Port} (h : portCode p = portCode q) : p = q := by
  cases p <;> cases q <;> first | rfl | (exact absurd h (by decide))

@[simp] theorem port_putPort (s : State) (p : Port) (x : PortState) (q : Port) :
    (s.putPort p x).port q = if q = p then x else s.port q := by
  simp only [State.port, State.putPort, mapGetD_mapPut]
  by_cases h : q = p
  · simp [h]
  · have k : portCode q ≠ portCode p := fun e => h (portCode_inj e)
    simp [h, k]

/-! ### Fields of registers -/

theorem testBit_setBits (w : Word) (hi lo v j : Nat) :
    (setBits w hi lo v).toNat.testBit j =
      if j < 32 ∧ lo ≤ j ∧ j < lo + (hi + 1 - lo) then v.testBit (j - lo) else w.toNat.testBit j := by
  have hb : w.toNat.testBit j = (decide (j < 32) && w.toNat.testBit j) := by
    by_cases h : j < 32
    · simp [h]
    · simp [h, Nat.testBit_lt_two_pow (Nat.lt_of_lt_of_le w.isLt (Nat.pow_le_pow_right (by decide) (Nat.not_lt.1 h)))]
  rw [hb]
  simp only [setBits, BitVec.testBit_toNat, BitVec.getLsbD_or, BitVec.getLsbD_and, BitVec.getLsbD_not, BitVec.getLsbD_ofNat,
    Nat.testBit_shiftLeft, Nat.testBit_two_pow_sub_one, ge_iff_le]
  by_cases h1 : j < 32 <;> by_cases h2 : lo ≤ j <;> by_cases h3 : j < lo + (hi + 1 - lo) <;>
    by_cases h4 : j - lo < hi + 1 - lo <;> first | (exfalso; omega) | simp [h1, h2, h3, h4]

@[simp] theorem flag_setField (s : State) (a hi lo v b j : Nat) :
    (s.setField a hi lo v).flag b j =
      if b = a ∧ j < 32 ∧ lo ≤ j ∧ j < lo + (hi + 1 - lo) then v.testBit (j - lo) else s.flag b j := by
  simp only [State.flag, State.setField, reg_setReg]
  by_cases h : b = a
  · subst h
    simp [testBit_setBits]
  · simp [h]

@[simp] theorem flag_setFlag (s : State) (a i : Nat) (v : Bool) (b j : Nat) :
    (s.setFlag a i v).flag b j = if b = a ∧ j < 32 ∧ j = i then v else s.flag b j := by
  have e : (s.setFlag a i v).flag b j = (s.setField a i i (bitOf v)).flag b j := by simp only [State.flag, reg_setFlag]
  rw [e, flag_setField]
  have h : ((b = a ∧ j < 32 ∧ i ≤ j ∧ j < i + (i + 1 - i)) ↔ (b = a ∧ j < 32 ∧ j = i)) := by omega
  simp only [h]
  split
  · next k => cases v <;> simp [bitOf, k.2.2]
  · rfl

theorem getBits_eq_of_testBit {w w' : Word} {hi lo : Nat}
    (h : ∀ j, lo ≤ j → j < lo + (hi + 1 - lo) → w.toNat.testBit j = w'.toNat.testBit j) :
    getBits w hi lo = getBits w' hi lo := by
  simp only [getBits, bitsOf]
  refine Nat.eq_of_testBit_eq fun i => ?_
  simp only [Nat.testBit_mod_two_pow, Nat.testBit_shiftRight]
  by_cases k : i < hi + 1 - lo
  · rw [h (lo + i) (by omega) (by omega)]
  · simp [k]

/-- A field that was written reads as the value, cut to its width. -/
theorem field_setField_same (s : State) (a hi lo v : Nat) (h : hi < 32) :
    (s.setField a hi lo v).field a hi lo = v % 2 ^ (hi + 1 - lo) := by
  simp only [State.field, State.setField, reg_setReg, getBits, bitsOf, if_true]
  refine Nat.eq_of_testBit_eq fun i => ?_
  simp only [Nat.testBit_mod_two_pow, Nat.testBit_shiftRight, testBit_setBits]
  by_cases k : i < hi + 1 - lo
  · simp [k, show lo + i < 32 by omega]
  · simp [k]

/-- Another register, or a field apart, reads as before. -/
theorem field_setField_apart (s : State) (a hi lo v b hi' lo' : Nat) (h : b ≠ a ∨ hi < lo' ∨ hi' < lo) :
    (s.setField a hi lo v).field b hi' lo' = s.field b hi' lo' := by
  simp only [State.field, State.setField, reg_setReg]
  by_cases e : b = a
  · subst e
    refine (if_pos rfl).symm ▸ getBits_eq_of_testBit fun j h1 h2 => ?_
    rw [testBit_setBits]
    split <;> first | omega | rfl
  · rw [if_neg e]

@[simp] theorem flag_setReg (s : State) (a : Nat) (v : Word) (b i : Nat) :
    (s.setReg a v).flag b i = if b = a then v.toNat.testBit i else s.flag b i := by
  simp only [State.flag, reg_setReg]
  split <;> rfl

@[simp] theorem field_setReg (s : State) (a : Nat) (v : Word) (b hi lo : Nat) :
    (s.setReg a v).field b hi lo = if b = a then getBits v hi lo else s.field b hi lo := by
  simp only [State.field, reg_setReg]
  split <;> rfl

@[simp] theorem reg_setField_ne (s : State) (a hi lo v b : Nat) (h : b ≠ a) : (s.setField a hi lo v).reg b = s.reg b := by
  simp [State.setField, h]

@[simp] theorem reg_setFlag_ne (s : State) (a i : Nat) (v : Bool) (b : Nat) (h : b ≠ a) : (s.setFlag a i v).reg b = s.reg b := by
  simp [State.setFlag, h]

@[simp] theorem reg_addField_ne (s : State) (a hi lo n b : Nat) (h : b ≠ a) : (s.addField a hi lo n).reg b = s.reg b := by
  simp [State.addField, h]

@[simp] theorem reg_addReg_ne (s : State) (a n b : Nat) (h : b ≠ a) : (s.addReg a n).reg b = s.reg b := by
  simp [State.addReg, h]

@[simp] theorem reg_maxField_ne (s : State) (a hi lo v b : Nat) (h : b ≠ a) : (s.maxField a hi lo v).reg b = s.reg b := by
  simp [State.maxField, h]

@[simp] theorem field_setField_ne (s : State) (a hi lo v b h l : Nat) (k : b ≠ a) :
    (s.setField a hi lo v).field b h l = s.field b h l := by
  simp [State.field, k]

@[simp] theorem field_setFlag_ne (s : State) (a i : Nat) (v : Bool) (b h l : Nat) (k : b ≠ a) :
    (s.setFlag a i v).field b h l = s.field b h l := by
  simp [State.field, k]

@[simp] theorem field_addField_ne (s : State) (a hi lo n b h l : Nat) (k : b ≠ a) :
    (s.addField a hi lo n).field b h l = s.field b h l := by
  simp [State.field, k]

@[simp] theorem field_addReg_ne (s : State) (a n b h l : Nat) (k : b ≠ a) : (s.addReg a n).field b h l = s.field b h l := by
  simp [State.field, k]

@[simp] theorem flag_addField_ne (s : State) (a hi lo n b i : Nat) (k : b ≠ a) :
    (s.addField a hi lo n).flag b i = s.flag b i := by
  simp [State.flag, k]

@[simp] theorem flag_addReg_ne (s : State) (a n b i : Nat) (k : b ≠ a) : (s.addReg a n).flag b i = s.flag b i := by
  simp [State.flag, k]

/-- A counting register after `n` more: the sum, held at the largest value (R502). -/
theorem reg_addReg_same (s : State) (a n : Nat) : ((s.addReg a n).reg a).toNat = min (2 ^ 32 - 1) ((s.reg a).toNat + n) := by
  have e : ∀ t : State, t.field a 31 0 = (t.reg a).toNat := fun t => by
    simp only [State.field, getBits, bitsOf, Nat.shiftRight_zero]
    exact Nat.mod_eq_of_lt (t.reg a).isLt
  have k : (s.addReg a n).field a 31 0 = (s.setField a 31 0 (min (2 ^ 32 - 1) (s.field a 31 0 + n))).field a 31 0 := by
    simp only [State.field, State.addReg, reg_addField]
  rw [← e, k, field_setField_same _ _ _ _ _ (by decide), e]
  exact Nat.mod_eq_of_lt (by omega)

end Sys2Proof.Machine
end

