-- ==== Sys2Proof/Safety.lean ====
section
/-! DEFINITION. What claims call safe: steps that answer a next state, and states whose regions are shared out as the spec
allows. -/

namespace Sys2Proof

/-- The step from `s` answers a next state. -/
def Completes (s : Machine.State) : Prop := ∃ t, Machine.step s = .next t

/-- Command `c` completes on `s`, and the state it answers has the property `P`. -/
def Answers (c : Instr) (s : Machine.State) (P : Machine.State → Prop) : Prop := ∃ t, Machine.exec c s = .next t ∧ P t

/-- The dispatcher takes `c` from its port, and `c` meets the checks that every command meets; its host memory answers (R615 to
R618, R621, R630, R656, R668). -/
def Machine.State.admits (s : Machine.State) (c : Instr) : Bool :=
  match Machine.cmdInfo c with
  | some (h, op, part) => decide (s.taking c h op part = .go) && ((s.dropHead h.port).gate h op part).isNone && !h.hostErr
  | none => false

/-- Command `c` ends with OK and RESULT `r`, and the state in which its completion entry is written has the property `P`. -/
def Ends (c : Instr) (s : Machine.State) (r : Nat) (P : Machine.State → Prop) : Prop :=
  ∃ h op part u, Machine.cmdInfo c = some (h, op, part) ∧ Machine.exec c s = .next (u.complete h op Machine.stOK 0 r) ∧ P u

/-- Command `c` becomes an operation in progress with status `st` that has run no step, and `P` holds of it and of the next
state. -/
def Begins (c : Instr) (s : Machine.State) (st : Nat) (P : Machine.State → Machine.Op → Prop) : Prop :=
  ∃ t o, Machine.exec c s = .next t ∧ o ∈ t.ops ∧ o.cmd = c ∧ o.status.toNat = st ∧ o.steps = 0 ∧ P t o

/-- The first `n` bytes of a command's host buffer: host memory, or the port buffer on a short-form port. -/
def Machine.State.hostBytes (s : Machine.State) (h : CmdHdr) (n : Nat) : List Byte :=
  let x := s.port h.port
  Machine.memRead (if Machine.portPcie h.port then x.host else x.buffer) h.hostAddr n

/-- The access of a command lies in its BAR (R697); every other command makes none. -/
def Instr.inBar : Instr → Bool
  | .registerWrite _ a _ _ | .rcRead _ a _ => decide (a < 2 ^ 28)
  | .apertureRead l a => decide (l < 2) && decide (a < 2 ^ 28)
  | .bar2Access l o w n => decide (l < 2) && decide (o + (match w with | some bs => bs.length | none => n) ≤ 2 ^ 36)
  | _ => true

/-- Regions that a part may have fused off: none on a KH16, two of each die on a KH12 (R2, R3). -/
def Machine.PartId.legal (p : Machine.PartId) : Bool :=
  let n := fun d => ((List.range 8).filter (fun i => p.fused.toNat.testBit (8 * d + i))).length
  match p.grade with
  | .kh16 => decide (p.fused = 0)
  | .kh12 => decide (n 0 = 2) && decide (n 1 = 2)

/-- The invariant of the block. -/
structure Inv (s : Machine.State) : Prop where
  /-- the part is one that exists (R3) -/
  legal : s.hw.legal = true
  /-- every command that waits is well formed -/
  wf : ∀ c ∈ s.pending, c.wf = true
  /-- no region belongs to two partitions (R31, R293) -/
  disjoint : ∀ p q, p < 16 → q < 16 → p ≠ q → (s.part p).regions &&& (s.part q).regions = 0
  /-- no partition holds a fused region (R3) -/
  fused : ∀ p, p < 16 → (s.part p).regions &&& s.hw.fused = 0

end Sys2Proof
end

