-- ==== Sys2Proof/Certificates/Slice0/Obligations.lean ====
section
/-! DEFINITION. The statements for the provers. Those named `…Complete` say of each command they name that it answers a next
state, and what its own effect leaves there. -/

open Sys2Proof Sys2Proof.Machine

/-- With a command waiting, a step takes the front one and is exec of it on the state with the queue's rest. -/
def Obligations.StepTakesTheFrontCommand : Prop :=
  ∀ (s : State) (c : Instr) (cs : List Instr), s.pending = c :: cs → Machine.step s = exec c { s with pending := cs }

/-- The model's choice (log entry on the empty queue): with no command waiting, a step is one lattice cycle. The
schedule counts advance, 64 bits wide; the G1 counter adds its increment at each eighth cycle (R211, R556). -/
def Obligations.EmptyQueueIsOneCycle : Prop :=
  ∀ (s : State), s.pending = [] → ∃ t, Machine.step s = .next t ∧ t.now = s.now + 1
    ∧ t.seq.count0 = (s.seq.count0 + 1) % 2 ^ 64 ∧ t.seq.count1 = (s.seq.count1 + 1) % 2 ^ 64
    ∧ t.seq.insts.map (·.id) = s.seq.insts.map (·.id) ∧ t.cyc = [] ∧ t.lat.used = []
    ∧ t.tim.g1 = (if (s.now + 1) % 8 = 0 then (s.tim.g1 + (s.reg (aTim 0x30000)).toNat) % 2 ^ 88 else s.tim.g1)
    ∧ t.pending = [] ∧ t.parts = s.parts ∧ t.ops = s.ops ∧ t.flt.stack = s.flt.stack ∧ t.chains = s.chains ∧ t.mit = s.mit
    ∧ t.cap = s.cap ∧ t.lan = s.lan ∧ t.wyl = s.wyl ∧ t.sys = s.sys ∧ t.barrier = s.barrier ∧ t.hw = s.hw ∧ t.free = s.free

/-- Every step keeps the invariant: the part is legal, waiting commands are well formed, no two partitions share a
region and no partition holds a fused one (R3, R31, R293, R297). -/
def Obligations.EveryStepKeepsInv : Prop :=
  ∀ (s t : State), Inv s → Machine.step s = .next t → Inv t

/-- The invariant holds at reset. -/
def Obligations.ResetMeetsInv : Prop := Inv State.reset

/-- The model's only stop: an access beyond its BAR faults; every other command, on every state, answers a next state
(R697). -/
def Obligations.OnlyAccessesBeyondTheBarStop : Prop :=
  ∀ (c : Instr) (s : State),
    (c.inBar = true → ∃ t, exec c s = .next t) ∧ (c.inBar = false → exec c s = .fault .outsideSpace)

/-- No command touches the queue or the part's identity, and regions change hands by BIND, UNBIND and cold reset alone
(R31, R293, R297, R298, R648). -/
def Obligations.RegionsMoveByBindingAlone : Prop :=
  ∀ (c : Instr) (s t : State), exec c s = .next t → t.pending = s.pending ∧ t.hw = s.hw
    ∧ ((∀ h p rs b n, c ≠ .bind h p rs b n) → (∀ h p rs, c ≠ .unbind h p rs) → c ≠ .coldReset →
        ∀ p, (t.part p).regions = (s.part p).regions)

/-- A taken command that fails a check which every command meets completes with the status of the first that fails, and
nothing but its port and the port's interrupt changes: a command from a port that does not own the partition gets
REFUSED_OWNER (R16, R294, R618, R632). The dispatcher takes one command from a port in a dispatcher cycle, and of two
ports the one first in the port order: any other command stays ready, or becomes ready (R41, R300, R615). Before the
boot state is host-usable the dispatcher takes no command: it stays ready, or becomes ready (R616). Where a rule leaves
a corner open, the model's choice stands: log entries 7 and 8. -/
def Obligations.CommonChecksRefuse : Prop :=
  (
    ∀ (c : Instr) (s : State) (h : CmdHdr) (op : Nat) (part : Option Nat), cmdInfo c = some (h, op, part) →
      s.taking c h op part = .go →
      (∀ st d, (s.dropHead h.port).gate h op part = some (st, d) →
        exec c s = .next ((s.dropHead h.port).complete h op st d 0)
        ∧ ∃ u, exec c s = .next u ∧ u = { s with ports := u.ports, regs := u.regs, cyc := u.cyc })
      ∧ (∀ p, part = some p → p < 16 → h.clean = true → h.unknown = none → (opPackage op = true → op ≠ 0x60 → s.portPkg h.port = true) →
        (s.part p).owner ≠ some h.port → op ≠ 0x10 →
        exec c s = .next ((s.dropHead h.port).complete h op stOwner (det618 3) 0)))
  ∧ (
    ∀ (c : Instr) (s : State) (h : CmdHdr) (op : Nat) (part : Option Nat), cmdInfo c = some (h, op, part) →
      s.ownTaking c h op part = .go →
      ((s.portTaken h.port = true ∨ s.portBefore h.port = true) →
        ((s.port h.port).ready.any (fun d => sameCmd d c) = true → exec c s = .next s)
        ∧ ((s.port h.port).ready.any (fun d => sameCmd d c) = false → exec c s = .next (s.pushReady h.port c)))
      ∧ (s.portTaken h.port = false → s.portBefore h.port = false → s.taking c h op part = .go))
  ∧ (
    ∀ (c : Instr) (s : State) (h : CmdHdr) (op : Nat) (part : Option Nat), cmdInfo c = some (h, op, part) → s.sys.boot ≠ .ready →
      ((s.port h.port).ready.any (fun d => sameCmd d c) = true → exec c s = .next s)
      ∧ ((s.port h.port).ready.any (fun d => sameCmd d c) = false → exec c s = .next (s.pushReady h.port c)))

/-- Frames of rows that write one part of the state alone: no register, memory, partition, log or counter beside it. -/
def Obligations.FramesOfTheSmallRows : Prop :=
  ∀ (c : Instr) (s t : State), exec c s = .next t →
    match c with
    | .bypass | .clamp | .highz | .trstN | .extest _ | .extestPulse _ | .extestTrain _ | .samplePreload _ | .debugBlockExpiry
    | .flashRequest | .flashRelease _ | .mailboxReport _ _ | .thermtrip _ _ | .pcieLinkUp _ => t = { s with sys := t.sys }
    | .idcode => t = { s with sys := t.sys, readData := t.readData }
    | .glinLock | .glinResponse _ => t = { s with sys := t.sys, regs := t.regs, cyc := t.cyc }
    | .tbSet _ | .tbStep _ | .tbSetOnPps _ | .g1Load | .g1LoadNow | .g1LoadAtPps | .ppsOutPulse | .ppsOutPulseEnd | .ref10mOutEdge
    | .ptpDelayReq _ _ _ => t = { s with tim := t.tim }
    | .manadjWrite _ _ | .ppsInEdge _ _ _ | .ref10mInEdge _ _ _ | .ptpSync _ _ _ _ | .ptpFollowUp _ _ | .ptpDelayResp _ _ =>
      t = { s with tim := t.tim, regs := t.regs, cyc := t.cyc }
    | .tcPtpMessage _ _ _ _ => t = { s with tim := t.tim, regs := t.regs, cyc := t.cyc }
    | .tcFrameSend _ _ _ => t = { s with tim := t.tim, lan := t.lan, regs := t.regs, cyc := t.cyc }
    | .holdover _ | .ref10mInLoss | .timSnap | .cntSnap _ | .cntUpSnap _ _ _ | .ctlSqTailWrite _ _ | .ppsCalStart | .tdcCalStart _ _
    | .tdcCalDone _ _ | .laserRecovery _ _ | .regionPowerEntry _ _ | .capStrmSeqLoWrite _ _ _ | .brimDebugHalt _ _ =>
      t = { s with regs := t.regs, cyc := t.cyc }
    | .seqCycleLoRead _ | .gauLyrLoRead _ _ _ | .seqPartBndLoRead _ | .memErrAddrLoRead _ _ | .timSrvOffLoRead _ | .timPpsTauLoRead
    | .nvsSeqLoRead _ | .cntValLoRead _ _ | .chkResLoRead _ _ | .chkAudBatchLoRead _ =>
      t = { s with regs := t.regs, cyc := t.cyc, readData := t.readData, readEnd := t.readEnd }
    | .capStrmSeqLoRead _ _ => t = { s with cap := t.cap, readData := t.readData, readEnd := t.readEnd }
    | .clrTrip _ | .clrOver _ => t = { s with gau := t.gau }
    | .cntSmpPop _ | .cntValLoWrite _ _ _ => t = { s with cnt := t.cnt }
    | .counterWrap _ _ _ _ _ _ | .chkStart _ _ | .chkDataWrite _ _ _ | .chkFinish _ _ => t = { s with cnt := t.cnt, regs := t.regs, cyc := t.cyc }
    | .fltLogPop _ => t = { s with flt := t.flt }
    | .bucketLeak _ _ => t = { s with regs := t.regs, cyc := t.cyc, flt := t.flt } ∧ t.flt.stack = s.flt.stack
    | .elasticStep _ _ => t = { s with seq := t.seq }
    | .burstTokenPlace _ _ | .standbyFillDone _ => t = { s with lat := t.lat }
    | .mergeRelease _ _ => t = { s with lat := t.lat, gau := t.gau, seq := t.seq }
    | .train _ _ _ | .trainingRetry _ _ | .nakRetry _ _ _ => t = { s with wyl := t.wyl }
    | .controlResend _ _ | .timeReqSend _ _ _ _ | .timeReq _ _ _ _ _ _ | .wyileTrainingDone _ _ _ =>
      t = { s with wyl := t.wyl, regs := t.regs, cyc := t.cyc }
    | .timeRsp _ _ _ _ => t = { s with wyl := t.wyl, tim := t.tim, regs := t.regs, cyc := t.cyc }
    | .trigOutPulse _ | .trigOutPulseEnd _ => t = { s with cap := t.cap }
    | .triggerPointAssign _ => t = { s with cap := t.cap, regs := t.regs, cyc := t.cyc }
    | .pinEdge _ _ _ _ | .coincWindowClose _ | .trigger _ _ => t = { s with cap := t.cap, wyl := t.wyl, regs := t.regs, cyc := t.cyc }
    | .slipTestDone _ _ | .checkerLock _ | .sysrefEdge _ _ | .laneStageAdvance _ _ _ => t = { s with lan := t.lan, regs := t.regs, cyc := t.cyc }
    | .packagePowerEntry _ => t = { s with lan := t.lan, wyl := t.wyl, regs := t.regs, cyc := t.cyc }
    | .modeChangeDone _ => t = { s with parts := t.parts, regs := t.regs, cyc := t.cyc }
    | .digestExchange _ _ _ => t = { s with mit := t.mit }
    | .batchClose _ => t = { s with chains := t.chains }
    | _ => True

/-- Frames of rows that answer or accept a host command, or take source data: memory outside the port's own buffers, the
partitions and the lattice stay (R16, R622). -/
def Obligations.FramesOfHostCommands : Prop :=
  ∀ (c : Instr) (s t : State), exec c s = .next t →
    match c with
    | .identify _ | .query _ _ _ | .readSettings _ _ | .counterRead _ _ _ _ | .laneCtlSetMode _ _ _ _ _ | .laneCtlInject _ _ _ _ _
    | .laneCtlSetClass _ _ _ _ _ => t = { s with ports := t.ports, regs := t.regs, cyc := t.cyc }
    | .laneCtlUp _ _ _ _ _ | .laneCtlSetEq _ _ _ _ _ | .laneCtlSetMap _ _ _ _ _ | .laneCtlSetOut _ _ _ _ _ | .laneCtlSetJesd _ _ _ _ _ =>
      t = { s with ports := t.ports, regs := t.regs, cyc := t.cyc, lan := t.lan }
    | .laneCtlDown _ _ _ _ _ | .laneCtlSlip _ _ _ _ _ | .laneCtlTest _ _ _ _ _ =>
      t = { s with ports := t.ports, regs := t.regs, cyc := t.cyc, lan := t.lan, wyl := t.wyl }
    | .forceTrigger _ _ | .streamCopy _ => t = { s with ports := t.ports, regs := t.regs, cyc := t.cyc, cap := t.cap }
    | .disarm _ _ _ | .recordSeal _ | .rawFrameReceive _ _ _ _ _ _ | .jesdMultiblockReceive _ _ _ _ | .ethFrameReceive _ _ _ _ =>
      t = { s with ports := t.ports, regs := t.regs, cyc := t.cyc, cap := t.cap, cnt := t.cnt }
    | .mittenPair _ _ _ _ _ => t = { s with ports := t.ports, regs := t.regs, cyc := t.cyc, mit := t.mit }
    | .mittenPairDissolve _ => t = { s with ports := t.ports, regs := t.regs, cyc := t.cyc, mit := t.mit, wyl := t.wyl }
    | .auditFetch _ _ _ _ _ => t = { s with ports := t.ports, regs := t.regs, cyc := t.cyc, chains := t.chains, flt := t.flt } ∧ t.flt.stack = s.flt.stack
    | .bufWrite _ _ | .bufRead _ | .setWakeTol _ _ _ | .saveState _ _ _ | .eyeScan _ _ _ =>
      t.parts = s.parts ∧ t.lat = s.lat ∧ t.seq = s.seq ∧ t.gau = s.gau ∧ t.tim = s.tim ∧ t.lan = s.lan ∧ t.wyl = s.wyl
        ∧ t.flt.stack = s.flt.stack
    | .load _ _ _ _ _ _ | .pause _ _ | .resume _ _ _ | .restoreState _ _ _ | .stageImage _ _ _ _ _ _ | .setModeAtTrigger _ _ _ _ _
    | .setModeAtSeeds _ _ _ _ _ _ => t.lat = s.lat ∧ t.seq = s.seq ∧ t.gau = s.gau ∧ t.tim = s.tim ∧ t.lan = s.lan ∧ t.wyl = s.wyl
        ∧ t.flt.stack = s.flt.stack
    | .setModeAtCancel _ _ => t = { s with ports := t.ports, regs := t.regs, cyc := t.cyc, parts := t.parts, ops := t.ops, cap := t.cap, chains := t.chains }
    | .descriptorFetch _ _ | .smbusBlockWrite _ _ => t.parts = s.parts ∧ t.lat = s.lat ∧ t.seq = s.seq ∧ t.tim = s.tim ∧ t.sys = s.sys
        ∧ t.flt.stack = s.flt.stack
    | .smbusBlockRead => t = { s with ports := t.ports, readBytes := t.readBytes }
    | .glinComplete => t = { s with ports := t.ports, readBytes := t.readBytes, sys := t.sys }
    | .ctlCqHeadWrite _ _ => t = { s with ports := t.ports, regs := t.regs, cyc := t.cyc }
    | .portReset _ _ => t = { s with ports := t.ports, regs := t.regs, cyc := t.cyc, ops := t.ops, sys := t.sys }
    | .laserLoss _ _ => t = { s with ports := t.ports, regs := t.regs, cyc := t.cyc }
    | .laneDrop _ _ => t = { s with ports := t.ports, regs := t.regs, cyc := t.cyc, lan := t.lan, wyl := t.wyl, ops := t.ops }
    | _ => True

/-- Frames of the rows of units, fabric and partitions: no stack byte, port buffer or identity changes but by those that
store. -/
def Obligations.FramesOfTheLattice : Prop :=
  ∀ (c : Instr) (s t : State), exec c s = .next t →
    match c with
    | .switchSlot _ _ _ | .bridgeRelease _ _ _ | .rescaleStage _ _ | .scaleWaitTimeout _ _ =>
      t = { s with lat := t.lat, seq := t.seq, gau := t.gau, cnt := t.cnt, flt := t.flt, ports := t.ports, regs := t.regs, cyc := t.cyc,
                   free := t.free } ∧ t.flt.stack = s.flt.stack
    | .fabricSlot _ _ _ =>
      t = { s with lat := t.lat, seq := t.seq, gau := t.gau, cnt := t.cnt, flt := t.flt, ports := t.ports, regs := t.regs, cyc := t.cyc,
                   cap := t.cap } ∧ t.flt.stack = s.flt.stack
    | .memoryReadRelease _ _ _ => t.parts = s.parts ∧ t.flt.stack = s.flt.stack ∧ t.sys = s.sys ∧ t.lan = s.lan ∧ t.tim = s.tim
    | .memoryWriteSlot _ _ _ => t.parts = s.parts ∧ t.ports = s.ports ∧ t.sys = s.sys ∧ t.lan = s.lan ∧ t.tim = s.tim
    | .foldSwitch _ => t = { s with lat := t.lat, cnt := t.cnt, regs := t.regs, cyc := t.cyc }
    | .pipelineComplete _ => t = { s with lat := t.lat, gau := t.gau, cnt := t.cnt, flt := t.flt, ports := t.ports, regs := t.regs, cyc := t.cyc }
        ∧ t.flt.stack = s.flt.stack
    | .treeEvaluation _ => t = { s with lat := t.lat, seq := t.seq, cnt := t.cnt, flt := t.flt, ports := t.ports, regs := t.regs, cyc := t.cyc }
        ∧ t.flt.stack = s.flt.stack
    | .firing _ => t.tim = s.tim ∧ t.lan = s.lan ∧ t.wyl = s.wyl ∧ t.sys = s.sys ∧ t.deep = s.deep ∧ t.mit = s.mit
    | .gauntletRun _ _ => t = { s with seq := t.seq, gau := t.gau, cnt := t.cnt, flt := t.flt, ports := t.ports, regs := t.regs, cyc := t.cyc }
        ∧ t.flt.stack = s.flt.stack
    | .gauntletRunEnd _ _ => t = { s with gau := t.gau, cnt := t.cnt, flt := t.flt, ports := t.ports, regs := t.regs, cyc := t.cyc }
        ∧ t.flt.stack = s.flt.stack
    | .eventAssembly _ _ => t.parts = s.parts ∧ t.flt.stack = s.flt.stack ∧ t.sys = s.sys ∧ t.lan = s.lan ∧ t.tim = s.tim
    | .latticeOccurrence _ _ => t = { s with cap := t.cap, lat := t.lat, seq := t.seq, wyl := t.wyl, regs := t.regs, cyc := t.cyc }
    | .zeroFillDone _ => t = { s with flt := t.flt }
    | .admissionOpen _ | .pauseDrained _ => t = { s with parts := t.parts, chains := t.chains, ops := t.ops, ports := t.ports, regs := t.regs, cyc := t.cyc }
    | .sramFillDone => t.flt = s.flt ∧ t.parts = s.parts ∧ t.ports = s.ports ∧ t.lat = s.lat
    | .stackTrainingDone _ | .memFillDone => t = { s with sys := t.sys, regs := t.regs, cyc := t.cyc }
    | _ => True

/-- Memories keep their one canonical form, and what a command does not store to reads as before (R474, R634, R730). -/
def Obligations.MemoriesStayCanonical : Prop :=
  ∀ (s t : State),
    (memWf s.flt.stack = true →
      (∀ l o w n, exec (.bar2Access l o w n) s = .next t → memWf t.flt.stack = true)
      ∧ (∀ b, exec (.zeroFillDone b) s = .next t → memWf t.flt.stack = true)
      ∧ (∀ d k l, exec (.memoryWriteSlot d k l) s = .next t → memWf t.flt.stack = true))
    ∧ (∀ w, memWf s.sys.flash = true → exec (.flashRelease w) s = .next t → memWf t.sys.flash = true)
    ∧ (∀ h d, (∀ p, memWf (s.port p).buffer = true) → exec (.bufWrite h d) s = .next t → ∀ p, memWf (t.port p).buffer = true)
    ∧ memWf State.reset.flt.stack = true ∧ memWf State.reset.sys.flash = true ∧ ∀ p, memWf (State.reset.port p).buffer = true

/-- Registers after cold reset: the reset values that the register tables state (R14, R399, R556, R601, R644, R666).
Where a rule leaves a corner open, the model's choice stands: log entry 44. -/
def Obligations.ResetValues : Prop :=
  ∀ (s t : State), exec .coldReset s = .next t →
    (∀ a, t.reg a = regReset a) ∧ (∀ d n, t.counter d n = 0) ∧ t.cycle 0 = 0 ∧ t.cycle 1 = 0 ∧ (∀ p, (t.part p).state = .none)
    ∧ t.reg (aTim 0x30000) = 0x06666666#32 ∧ t.flt.stack = [] ∧ t.lat.sram = []

/-- Accesses of BAR0 that are no aligned 32-bit ones: a write changes nothing, a read answers 0, and both complete
(R10). -/
def Obligations.UnalignedAccesses : Prop :=
  ∀ (s : State) (g : Agent) (a : Nat) (v : Word), a < 2 ^ 28 →
    exec (.registerWrite g a v false) s = .next s
    ∧ exec (.rcRead g a false) s = .next { s with readData := 0, readEnd := .ok }

/-- GAU_CTR_CLR clears GAU_LYR_TRIP and GAU_LYR_OVER of every slot of its die, by the bits that are 1, and changes
nothing else (R139). -/
def Obligations.GauntletCounterClears : Prop :=
  ∀ (s : State) (d : Nat) (v : Word), d < 2 →
    let cleared := fun (trip overs : Bool) => { s with gau := { s.gau with layers := s.gau.layers.map (fun e =>
      if e.1 / 64 = d then (e.1, { e.2 with trip := if trip then 0 else e.2.trip, overs := if overs then 0 else e.2.overs }) else e) } }
    (∀ g, agentMay g (aGau d 0x40) = true →
      exec (.registerWrite g (aGau d 0x40) v true) s = .next (cleared (v.getLsbD 0) (v.getLsbD 1)))
    ∧ exec (.clrTrip d) s = .next (cleared true false) ∧ exec (.clrOver d) s = .next (cleared false true)

/-- FORCE_TRIGGER completes with REFUSED_OWNER where the condition's partition is another port's, with REFUSED_STATE
where the condition is not armed with SOURCE 3, otherwise with OK (R451); a refusal leaves the device as it was. -/
def Obligations.ForceTriggerCompletions : Prop :=
  ∀ (s : State) (h : CmdHdr) (c : Nat), s.admits (.forceTrigger h c) = true →
    let s' := s.dropHead h.port
    (∀ x, s.cond c = some x → (s.part x.part).owner ≠ some h.port →
      ∃ d, exec (.forceTrigger h c) s = .next (s'.complete h 0x32 stOwner d 0))
    ∧ ((s.cond c = none ∨ ∃ x, s.cond c = some x ∧ (s.part x.part).owner = some h.port ∧ ceSource x.entry ≠ 3) →
      ∃ d, exec (.forceTrigger h c) s = .next (s'.complete h 0x32 stState d 0))
    ∧ (∀ x, s.cond c = some x → (s.part x.part).owner = some h.port → ceSource x.entry = 3 →
      Ends (.forceTrigger h c) s 0 (fun _ => True))

/-- A reset of a PCIe link clears its port's ring registers, interrupt mask and MSI-X table, discards its ready commands
and the completions of its operations, which run on, and changes nothing of partitions, schedules, capture, lanes or
memory (R638). -/
def Obligations.PortResetKeepsTheMachine : Prop :=
  ∀ (s : State) (l : Nat) (down : Bool), l < 2 →
    Answers (.portReset l down) s (fun t =>
      let p := linkPort l
      (∀ o, o ∈ [0, 4, 8, 0xC, 0x10, 0x20, 0x24, 0x28, 0x2C, 0x30] → t.reg (aCtl (0x1000 + 0x100 * l + o)) = regReset (aCtl (0x1000 + 0x100 * l + o)))
      ∧ t.reg (aCtl (0x10C + 0x20 * l)) = 0 ∧ (t.port p).msix = [] ∧ (t.port p).ready = [] ∧ (t.port p).held = []
      ∧ t.ops = s.ops.map (fun o => if o.port = p then { o with orphan := true } else o)
      ∧ (∀ (u : State) (o : Op) (st d r : Nat), o.orphan = true →
          u.finishOp o st d r = { u with ops := u.ops.filter (fun x => !decide (x.port = o.port ∧ x.place = o.place)) })
      ∧ (∀ q, q ≠ p → t.port q = s.port q) ∧ (t.port p).host = (s.port p).host
      ∧ t.parts = s.parts ∧ t.seq = s.seq ∧ t.lat = s.lat ∧ t.gau = s.gau ∧ t.deep = s.deep ∧ t.cap = s.cap ∧ t.lan = s.lan
      ∧ t.flt = s.flt ∧ t.chains = s.chains ∧ t.mit = s.mit ∧ t.tim = s.tim ∧ t.wyl = s.wyl ∧ t.cnt = s.cnt)

/-- shr_rne gives a nearest integer, and the even one of two (R56). Rounding to a floating format gives a nearest point
of its grid, the even one of two, and overflow says that it exceeds the largest finite magnitude (R58). -/
def Obligations.RoundingIsNearestEven : Prop :=
  (∀ (v : Int) (k : Nat), 2 * |v - shrRne v k * 2 ^ k| ≤ 2 ^ k ∧ (2 * |v - shrRne v k * 2 ^ k| = 2 ^ k → shrRne v k % 2 = 0))
  ∧ ∀ (f : Fmt) (m : Nat) (e : Int), f ∈ [fp32Fmt, bf16Fmt, e4m3Fmt, e5m2Fmt] → m ≠ 0 →
    let r := roundFmt f m e
    let x : ℚ := (m : ℚ) * 2 ^ e
    let y : ℚ := (r.1 : ℚ) * 2 ^ r.2.1
    r.1 ≤ 2 ^ f.p ∧ f.sub ≤ r.2.1 ∧ (r.2.1 = f.sub ∨ 2 ^ (f.p - 1) ≤ r.1)
    ∧ 2 * |x - y| ≤ 2 ^ r.2.1 ∧ (2 * |x - y| = 2 ^ r.2.1 → r.1 % 2 = 0)
    ∧ (r.2.2 = true ↔ (f.maxM : ℚ) * 2 ^ f.maxE < y)

/-- The integer dot product is exact: no order of its products matters, it may be split at any place, and only the final
clamp changes a value, with ACC_SAT (R62, R63). Keys rank in the total order of R77. -/
def Obligations.IntegerDotAndRank : Prop :=
  (∀ (init : Int) (l m : List (Int × Int)) (final : Bool), l.Perm m →
    idot init (l.map (·.1)) (l.map (·.2)) final = idot init (m.map (·.1)) (m.map (·.2)) final)
  ∧ (∀ (init : Int) (a w b v : List Int) (final : Bool), a.length = w.length →
    idot (idot init a w false).1 b v final = idot init (a ++ b) (w ++ v) final)
  ∧ (∀ (init : Int) (a w : List Int), let x := (idot init a w false).1
    ((-2 ^ 31 ≤ x ∧ x < 2 ^ 31) → idot init a w true = (x, []))
    ∧ (2 ^ 31 ≤ x → idot init a w true = (2 ^ 31 - 1, [.accSat])) ∧ (x < -2 ^ 31 → idot init a w true = (-2 ^ 31, [.accSat])))
  ∧ ∀ (fmt : Nat) (xs : List (BitVec 32 × Nat)), (rankSort fmt xs).Perm xs
    ∧ (rankSort fmt xs).Pairwise (fun x y => rankKey fmt y.1 < rankKey fmt x.1 ∨ (rankKey fmt y.1 = rankKey fmt x.1 ∧ x.2 ≤ y.2))

/-- FMAX and FMIN return the largest and the smallest term, −0 below +0, whatever the order of arrival; NaN terms are
ignored unless every term is NaN, and then the result is NaN with FP_NAN (R72). -/
def Obligations.ExtremesIgnoreOrder : Prop :=
  let value := fun (v : BitVec 32) => match f32 v with
    | .nan => (⊥ : EReal)
    | .inf n => if n then ⊥ else ⊤
    | .fin n m e => (((if n then -(m : ℝ) else m) * 2 ^ e : ℝ) : EReal)
  let below := fun (a b : BitVec 32) => value a < value b ∨ (value a = value b ∧ (a = b ∨ (a = 0x80000000#32 ∧ b = 0#32)))
  ∀ (least : Bool) (xs ys : List (BitVec 32)), xs.Perm ys →
    fExtreme least xs = fExtreme least ys
    ∧ ((∀ x ∈ xs, f32 x = .nan) → fExtreme least xs = (f32NaN, [.fpNan]))
    ∧ ((∃ x ∈ xs, f32 x ≠ .nan) → (fExtreme least xs).2 = [] ∧ (fExtreme least xs).1 ∈ xs ∧ f32 (fExtreme least xs).1 ≠ .nan
      ∧ ∀ x ∈ xs, f32 x ≠ .nan → if least then below (fExtreme least xs).1 x else below x (fExtreme least xs).1)

/-- A tile decodes position by position, its side list taken in increasing position (R107). The sideband parity of a
sealed word holds, and no single changed bit leaves it whole (R146). -/
def Obligations.TilesAndParity : Prop :=
  (∀ (wfmt : Nat) (esc : Bool) (area : List Byte) (p : Nat), p < 256 →
    let escaped := fun q => tileEscape wfmt esc (tileCode wfmt area q)
    (decodeTile wfmt esc area)[p]? = some (if escaped p then
      (fieldLE area (0x400 + 2 * ((List.range p).filter escaped).length) 2, true) else (tileCode wfmt area p, false)))
  ∧ ∀ (b i : Nat), i < 32 → sideOk (sideSeal b) = true ∧ sideOk (sideSeal b ^^^ (1#32 <<< i)) = false

/-- Host changes of a time base are queued for the first due cycle, and the rate register keeps what is written (R551,
R553). A change that is due takes effect on its time base, and the others of its cycle go (R553, R554). Where a rule
leaves a corner open, the model's choice stands: log entry 86. -/
def Obligations.TimeBasesComplete : Prop :=
  (
    ∀ (s : State) (t : Nat) (v : Word), t < 4 →
      Answers (.tbSet t) s (fun u => (u.tb t).due = (s.tb t).due ++ [(s.dueAt 16, .set (s.tbStaged t))] ∧ (u.tb t).onPps = none
        ∧ (u.tb t).t = (s.tb t).t ∧ u.regs = s.regs)
      ∧ Answers (.tbStep t) s (fun u => (u.tb t).due = (s.tb t).due ++ [(s.dueAt 16, .step (s.tbStagedStep t))]
        ∧ (u.tb t).onPps = none ∧ (u.tb t).t = (s.tb t).t ∧ u.regs = s.regs)
      ∧ Answers (.tbSetOnPps t) s (fun u => (u.tb t).onPps = some (s.tbStaged t) ∧ (u.tb t).due = (s.tb t).due
        ∧ (u.tb t).t = (s.tb t).t ∧ u.regs = s.regs)
      ∧ Answers (.manadjWrite t v) s (fun u => u.reg (aTb t 8) = v ∧ (∀ a, a ≠ aTb t 8 → u.reg a = s.reg a)
        ∧ (u.tb t).due = if s.flag (aTb t 0) 31 then (s.tb t).due
            else (s.tb t).due ++ [(s.dueAt 16, .manual (signedOf 32 v.toNat))]))
  ∧ (
    ∀ (s : State) (t c v : Nat) (r d : Int), t < 4 → c ≤ s.now → s.barrier = none →
      ((s.tb t).due = [(c, .servoStep r), (c, .set v)] →
        Answers (.timeBaseUpdate t) s (fun u => (u.tb t).t = v % 2 ^ 128 ∧ (u.tb t).due = [] ∧ u.flag (aTb t 0x40) 31 = false
          ∧ (u.tb t).phase = (s.tb t).phase ∧ ∀ t', t' ≠ t → u.tb t' = s.tb t'))
      ∧ ((s.tb t).due = [(c, .rate r), (c, .servoStep d)] →
        Answers (.timeBaseUpdate t) s (fun u => (u.tb t).t = (((s.tb t).t : Int) + d).toNat % 2 ^ 128 ∧ (u.tb t).due = []
          ∧ u.reg (aTb t 4) = s.reg (aTb t 4))))

/-- The G1 counter's loads, and the snapshot (R555, R556). Edges and pulses of the time pins (R558, R560, R561, R724).
-/
def Obligations.TimePinsComplete : Prop :=
  (
    ∀ (s : State),
      Answers .g1LoadNow s (fun u => u.tim.g1Load = 1 ∧ u.tim.g1 = s.tim.g1)
      ∧ Answers .g1LoadAtPps s (fun u => u.tim.g1Load = 2 ∧ u.tim.g1 = s.tim.g1)
      ∧ (s.tim.g1Load = 1 → Answers .g1Load s (fun u => u.tim.g1Load = 0
          ∧ u.tim.g1 = (s.field (aTim 0x30004) 31 0 + s.field (aTim 0x30008) 31 0 * 2 ^ 32) * 2 ^ 24))
      ∧ Answers .timSnap s (fun u => u.tim = s.tim
          ∧ u.reg (aTim 0x140) = BitVec.ofNat 32 (s.tim.g1 / 2 ^ 24) ∧ u.reg (aTim 0x148) = BitVec.ofNat 32 s.seq.count0
          ∧ ∀ t, t < 4 → u.reg (aTim (0x100 + 0x10 * t)) = BitVec.ofNat 32 (timeOf (s.tb t).t).sec
              ∧ u.reg (aTim (0x104 + 0x10 * t)) = BitVec.ofNat 32 (timeOf (s.tb t).t).ns))
  ∧ (
    ∀ (s : State) (rising ok : Bool) (k tap : Nat), tap < 256 →
      (rising ≠ s.flag (aTim 0x20000) 28 → s.flag (aTim 0x20008) 30 = false → s.tim.ppsTau = none →
        Answers (.ppsInEdge rising k tap) s (fun u => u.tim.ppsTau = some (s.tdcTime (aTim 0x20100) (aTim 0x2000C) k tap).toNat
          ∧ u.tim.g1 = s.tim.g1))
      ∧ Answers (.ref10mInEdge k tap ok) s (fun u => u.tim.refEdges = (s.tim.refEdges + 1) % 10000)
      ∧ (s.tim.refEdges < 9999 → Answers (.ref10mInEdge k tap ok) s (fun u => u.flag (aTim 0x20020) 28 = ok ∧ u.tim.bases = s.tim.bases))
      ∧ Answers .ref10mInLoss s (fun u => u.flag (aTim 0x20020) 28 = false)
      ∧ (s.flag (aTim 0x20000) 31 = true → s.sys.boot = .ready → Answers .ppsOutPulse s (fun u => u.tim.ppsOut = true))
      ∧ Answers .ppsOutPulseEnd s (fun u => u.tim.ppsOut = false)
      ∧ (s.flag (aTim 0x20020) 31 = true → s.sys.boot = .ready →
        Answers .ref10mOutEdge s (fun u => u.tim.refOut = !s.tim.refOut)))

/-- The servo in holdover keeps the rate of its integrator (R565). The messages of a PTP port, each at a servo that
listens to it (R568, R569). Where a rule leaves a corner open, the model's choice stands: log entry 87. -/
def Obligations.ServosComplete : Prop :=
  (
    ∀ (s : State) (t : Nat), t < 4 → s.flag (aTb t 0) 31 = true → s.field (aTb t 0) 30 28 ≠ 0 →
      Answers (.holdover t) s (fun u => u.flag (aTb t 0x40) 30 = true ∧ u.flag (aTb t 0x40) 31 = false
        ∧ u.reg (aTb t 4) = BitVec.ofInt 32 (s.adjClamp t (signedOf 32 (s.reg (aTb t 0x3C)).toNat))
        ∧ ∀ t', u.tb t' = s.tb t'))
  ∧ (
    ∀ (s : State) (t psel k m : Nat) (msg : List Byte), t < 4 → psel < 96 →
      (s.ptpOn t psel msg = true → ptpType msg = 0 → (s.tb t).source = none → ptpTwoStep msg = true →
        ∀ t2, s.tbOf t (128 * k + m) = some t2 →
        Answers (.ptpSync psel k m msg) s (fun u => (u.tb t).source = some (ptpSource msg)
          ∧ (u.tb t).sync = some ⟨ptpSeq msg, t2, ptpCorr msg, s.now⟩ ∧ u.regs = s.regs))
      ∧ (s.ptpOn t psel msg = true → ptpType msg = 8 → (s.tb t).source = some (ptpSource msg) →
        ∀ y, (s.tb t).sync = some y → y.seqId = ptpSeq msg → s.now ≤ y.cycle + second →
        Answers (.ptpFollowUp psel msg) s (fun u => (u.tb t).sync = none
          ∧ (u.tb t).t2t1 = (y.t2 : Int) - ptpStamp msg - (y.corr + ptpCorr msg)))
      ∧ (s.srvOn t 3 = true → ∀ t3, s.tbOf t (128 * k + m) = some t3 →
        Answers (.ptpDelayReq t k m) s (fun u => (u.tb t).delayReq = some ((s.tb t).reqSeq, t3)
          ∧ (u.tb t).reqSeq = ((s.tb t).reqSeq + 1) % 65536))
      ∧ (s.ptpOn t psel msg = true → ptpType msg = 9 → ∀ t3, (s.tb t).delayReq = some (ptpSeq msg, t3) →
        Answers (.ptpDelayResp psel msg) s (fun u => (u.tb t).delayReq = none
          ∧ u.reg (aTb t 0x30) = BitVec.ofInt 32 (((s.tb t).t2t1 + ((ptpStamp msg : Int) - t3) - ptpCorr msg) / 2))))

/-- The transparent clock forwards a message and sends it on (R570, R571). Where a rule leaves a corner open, the
model's choice stands: log entry 87. -/
def Obligations.TransparentClockComplete : Prop :=
  ∀ (s : State) (psel k m : Nat) (f : List Byte), psel < 96 →
    (s.flag (aTim 0x40000) 31 = true → s.flag (aTim (0x40100 + 4 * psel)) 31 = true →
      ∀ o udp, ptpOffset f = some (o, udp) → fieldLE f o 1 % 16 ≠ 2 → fieldLE f o 1 % 16 ≠ 3 → f.length ≤ 252 →
      ∀ peer, s.field (aTim (0x40100 + 4 * psel)) 6 0 = peer → (mapGetD s.tim.fwd peer []).length < 16 →
      5 ≤ s.pselStage peer → s.pselTemplate peer = false →
      ∀ v, s.tbOf (s.field (aTim 0x40000) 30 29) (128 * k + m) = some v →
      Answers (.tcPtpMessage psel k m f) s (fun u => mapGetD u.tim.fwd peer [] = mapGetD s.tim.fwd peer [] ++ [⟨f, v⟩]
        ∧ u.reg (aTim 0x40008) = s.reg (aTim 0x40008)))
    ∧ (∀ x q, mapGetD s.tim.fwd psel [] = x :: q → ∀ o udp, ptpOffset x.bytes = some (o, udp) →
      ∀ v, s.tbOf (s.field (aTim 0x40000) 30 29) (128 * k + m) = some v →
      Answers (.tcFrameSend psel k m) s (fun u => mapGetD u.tim.fwd psel [] = q
        ∧ (u.outPort psel).sent.length = (s.outPort psel).sent.length + 1))

/-- Frames of a Wyile lane: a new one or a replay leaves, a failed one is asked for again (R591 to R593). Where a rule
leaves a corner open, the model's choice stands: log entry 92. -/
def Obligations.WyileFramesComplete : Prop :=
  ∀ (s : State) (d i x : Nat) (b : List Byte), d < 2 → i < 16 → x < 8 →
    s.linkEn (linkNo d i) = true → x < s.linkLanes (linkNo d i) →
    let n := linkNo d i
    let v := s.wlane n x
    let sent := fun (u : State) => (u.outPort (100 + s.linkLsel n x)).sent
    (v.replay = none → Answers (.wyileFrameSend d i x) s (fun u => (sent u).length = (sent s).length + 1
      ∧ (u.wlane n x).nak = none ∧ (u.wlane n x).plan = []))
    ∧ (∀ f, v.replay = some f.num → v.kept.find? (fun g => decide (g.num = f.num)) = some f →
      Answers (.wyileFrameSend d i x) s (fun u => sent u = frameBytes f true v.nak :: sent s ∧ (u.wlane n x).replay = none
        ∧ (u.wlane n x).behind = v.behind + 1))
    ∧ (v.missing = [] → ∀ h, v.high = some h →
      Answers (.wyileFrameReceive d i x b false) s (fun u => (u.wlane n x).nak = some (h + 1)
        ∧ (u.reg (aLink n 0x14)).toNat = min (2 ^ 32 - 1) ((s.reg (aLink n 0x14)).toNat + 1)))
    ∧ (v.high = none → v.asked = none → crc32c (2 ^ 32 - 1) (b.take 164) = BitVec.ofNat 32 (fieldLE b 164 4) →
      s.linkUp n = false →
      Answers (.wyileFrameReceive d i x b true) s (fun u =>
        (u.wlane n x).high = some (frameNumber (s.linkP n) (s.cycle d) (bitsOf (fieldLE b 0 4) 31 20))))
    ∧ (∀ k, v.asked = some k → v.missing = [] → Answers (.nakRetry d i x) s (fun u => (u.wlane n x).nak = some k))

/-- Training of a Wyile link: the peer's values are held, the checks decide, and a retry starts afresh (R588). The time
exchange of a link: a request leaves, is answered, and its answer is taken (R603). Where a rule leaves a corner open,
the model's choice stands: log entries 3 and 31. -/
def Obligations.WyileTrainingComplete : Prop :=
  (
    ∀ (s : State) (d i : Nat) (m : TrainMsg) (trips : List Nat), d < 2 → i < 16 → s.linkUp (linkNo d i) = false →
      let n := linkNo d i
      Answers (.train d i m) s (fun u => (u.wlink n).peer = some m ∧ u.regs = s.regs)
      ∧ (s.linkEn n = true →
        Answers (.trainingRetry d i) s (fun u => (u.wlink n).peer = none ∧ u.linkUp n = false))
      ∧ (s.linkEn n = true → (∀ x, x < s.linkLanes n → 5 ≤ s.field (aLane (s.linkLsel n x) 4) 31 29) →
        let rtt := trips.foldl max 0
        let half := (rtt + 1) / 2
        (∀ q, (s.wlink n).peer = some q → q.pkg = s.field (aLink n 0) 11 0 → q.link = s.field (aLink n 0) 20 16 →
            q.lat = s.linkL n → q.bud = s.linkB n → half ≤ 7 * s.linkP n → half + s.linkP n + 6 ≤ s.linkL n →
            2 * half + 2 * s.linkP n ≤ s.linkB n →
            Answers (.wyileTrainingDone d i trips) s (fun u => u.linkUp n = true ∧ u.flag (aLink n 8) 30 = false
              ∧ u.reg (aLink n 0xC) = BitVec.ofNat 32 (min 65535 rtt * 65536 + min 65535 half)))
        ∧ ((s.wlink n).peer = none →
            Answers (.wyileTrainingDone d i trips) s (fun u => u.linkUp n = false ∧ u.flag (aLink n 8) 30 = true))))
  ∧ (
    ∀ (s : State) (d i k m k' m' : Nat), d < 2 → i < 16 →
      let n := linkNo d i
      let ofType := fun (t : Nat) => ((s.wlink n).queue.filter (fun q => decide (q.mtype = t))).length
      (s.flag (aLink n 0x1C) 31 = true → s.linkUp n = true → ofType 4 < 64 →
        Answers (.timeReqSend d i k m) s (fun u => (u.wlink n).queue.length = (s.wlink n).queue.length + 1
          ∧ (u.wlink n).t1 = (List.range 4).map (fun t => (s.tbOf t (128 * k + m)).getD 0)))
      ∧ (∀ q, (s.wlink n).inbox.find? (fun x => decide (x.mtype = 4)) = some q → ofType 5 < 64 →
        (s.tbOf (fieldLE q.body 0 1 % 4) (128 * k + m)).isSome → (s.tbOf (fieldLE q.body 0 1 % 4) (128 * k' + m')).isSome →
        Answers (.timeReq d i k m k' m') s (fun u => (u.wlink n).inbox = (s.wlink n).inbox.erase q
          ∧ (u.wlink n).queue.length = (s.wlink n).queue.length + 1))
      ∧ (∀ q, (s.wlink n).inbox.find? (fun x => decide (x.mtype = 5)) = some q →
        Answers (.timeRsp d i k m) s (fun u => (u.wlink n).inbox = (s.wlink n).inbox.erase q ∧ (u.wlink n).t1 = [])))

/-- Admission of a stream's events: into the admission buffer, refused where it is full, a closed arrival where the
stream is not open, and onto a new instance at the entry slot (R413, R418 to R420). Where a rule leaves a corner open,
the model's choice stands: log entries 89 and 97. -/
def Obligations.AdmissionComplete : Prop :=
  ∀ (s : State) (d st : Nat) (ev : AdmEvent) (rest : List AdmEvent), d < 2 → st < 16384 →
    ((s.strm d st).forming = ev :: rest →
      (s.streamOpen d st = true → (s.strm d st).waiting.length + s.admHeld d st < s.admDepth d st →
          ((s.entryOf st).isSome ∨ (s.sideOwner st).isNone) →
        Answers (.eventAssembly d st) s (fun u => (u.strm d st).forming = rest
          ∧ (u.strm d st).waiting = (s.strm d st).waiting ++ [{ ev with since := s.now + 1 }]))
      ∧ (s.streamOpen d st = true → s.admDepth d st ≤ (s.strm d st).waiting.length + s.admHeld d st →
        Answers (.eventAssembly d st) s (fun u => (u.strm d st).forming = rest ∧ (u.strm d st).refused = true
          ∧ (u.strm d st).waiting = (s.strm d st).waiting
          ∧ (u.reg (aStrm d st 2)).toNat = min (2 ^ 32 - 1) ((s.reg (aStrm d st 2)).toNat + 1)))
      ∧ (s.streamOpen d st = false →
        Answers (.eventAssembly d st) s (fun u => (u.strm d st).forming = rest ∧ (u.strm d st).waiting = (s.strm d st).waiting
          ∧ (u.reg (aStrm d st 3)).toNat = min (2 ^ 32 - 1) ((s.reg (aStrm d st 3)).toNat + 1))))
    ∧ (s.streamOpen d st = true → s.cycle d % (s.entryPeriod d st).1 = (s.entryPeriod d st).2 → (s.strm d st).slotAt ≠ some s.now →
      s.groupOf st = none → (s.entryOf st).isSome → (s.eligible d st).isSome → s.capRefuses d st = false →
      Answers (.entrySlot d st) s (fun u => u.seq.nextId = s.seq.nextId + 1 ∧ (u.strm d st).slotAt = some s.now))

/-- Occurrences of trigger conditions: a lattice decision leaves its endpoint, an edge is counted and dated, a
coincidence window closes, a received message is taken (R429, R434 to R436, R600). The trigger pins carry their pulses,
and a calibration starts and ends (R431, R437, R560). Where a rule leaves a corner open, the model's choice stands: log
entries 89 and 91. -/
def Obligations.TriggersComplete : Prop :=
  (
    ∀ (s : State), 
      (∀ d ep p rest, d < 2 → ep < 512 → mapGetD s.lat.inbox (512 * d + ep) [] = p :: rest → isCapture ep = true →
        p.rel ≤ s.cycle d →
        Answers (.latticeOccurrence d ep) s (fun u => mapGetD u.lat.inbox (512 * d + ep) [] = rest
          ∧ (p.held.tok.payload.toNat.testBit 31 = false → u.cap = s.cap)))
      ∧ (∀ pin rising k tap, pin < 8 → tap < 256 →
        (∃ e ∈ s.cap.conds, ceSource e.2.entry = 1 ∧ ceArg e.2.entry = pin ∧ ceFlag e.2.entry (if rising then 3 else 4) = true) →
        s.flag (aCap (pin / 4) (0x100 + 0x10 * (pin % 4))) 30 = false →
        ∀ tau, tau = (s.tdcTime (aCap (pin / 4) (0x1000 + 0x100 * (pin % 4))) (aCap (pin / 4) (0x104 + 0x10 * (pin % 4))) k tap).toNat →
        (mapGet s.cap.lastEdge pin = none →
          Answers (.pinEdge pin rising k tap) s (fun u => mapGet u.cap.lastEdge pin = some tau))
        ∧ (∀ t0, mapGet s.cap.lastEdge pin = some t0 → tau < t0 + 512 →
          Answers (.pinEdge pin rising k tap) s (fun u => u.cap = s.cap
            ∧ u.field (aCap (pin / 4) (0x108 + 0x10 * (pin % 4))) 31 16
              = min 65535 (s.field (aCap (pin / 4) (0x108 + 0x10 * (pin % 4))) 31 16 + 1))))
      ∧ (∀ n x t0 cl t, n < 64 → mapGet s.cap.tables n = some x → x.window = some (t0, cl, t) →
        max cl (t0 + 128 * (4095 + 8)) / 128 < s.cycle 0 →
        Answers (.coincWindowClose n) s (fun u => ∃ y, mapGet u.cap.tables n = some y ∧ y.closed = some cl))
      ∧ (∀ d i m, d < 2 → i < 16 → (s.wlink (linkNo d i)).inbox.find? (fun x => decide (x.mtype = 1)) = some m →
        Answers (.trigger d i) s (fun u => (u.wlink (linkNo d i)).inbox = (s.wlink (linkNo d i)).inbox.erase m
          ∧ (s.cond (fieldLE m.body 0 1) = none →
            (u.reg (aWyl 0 0xC)).toNat = min (2 ^ 32 - 1) ((s.reg (aWyl 0 0xC)).toNat + 1)))))
  ∧ (
    ∀ (s : State) (pin d n : Nat) (hist : List Nat), pin < 8 → d < 2 → n < 4 → hist.length = 256 →
      (s.trigLevel pin = true → Answers (.trigOutPulse pin) s (fun u => u.cap.trigOut.getLsbD pin = true))
      ∧ Answers (.trigOutPulseEnd pin) s (fun u => u.cap.trigOut.getLsbD pin = s.trigLevel pin
          ∧ ∀ p ∈ u.cap.pulses, p.pin = pin → s.now < p.stop)
      ∧ (s.pinUsed (4 * d + n) = false →
        Answers (.tdcCalStart d n) s (fun u => u.flag (aCap d (0x100 + 0x10 * n)) 30 = true))
      ∧ Answers .ppsCalStart s (fun u => u.flag (aTim 0x20008) 30 = true)
      ∧ (s.flag (aTim 0x20008) 30 = true →
        Answers (.tdcCalDone 8 hist) s (fun u => u.flag (aTim 0x20008) 30 = false ∧ u.flag (aTim 0x20008) 29 = true))
      ∧ (s.flag (aCap (pin / 4) (0x100 + 0x10 * (pin % 4))) 30 = true →
        Answers (.tdcCalDone pin hist) s (fun u => u.flag (aCap (pin / 4) (0x100 + 0x10 * (pin % 4))) 30 = false
          ∧ u.flag (aCap (pin / 4) (0x100 + 0x10 * (pin % 4))) 29 = true)))

/-- Records of a capture group: a trigger point is placed, a record is sealed and delivered, a stream is copied (R439,
R442, R444, R452). Where a rule leaves a corner open, the model's choice stands: log entries 90 and 91. -/
def Obligations.RecordsComplete : Prop :=
  ∀ (s : State) (g : Nat), g < 64 →
    (∀ w, (s.grp g).unassigned.find? (fun w => (s.assignFrame (s.grp g) w.1).isSome) = some w →
      Answers (.triggerPointAssign g) s (fun u => (u.grp g).unassigned = (s.grp g).unassigned.erase w
        ∧ (s.assignFrame (s.grp g) w.1 = some none →
          (u.reg (aGrp g 8)).toNat = min (2 ^ 32 - 1) ((s.reg (aGrp g 8)).toNat + 1))))
    ∧ (∀ r, (s.grp g).records.find? (s.sealable (s.grp g)) = some r → (s.grp g).streaming = false →
      Answers (.recordSeal g) s (fun u => (u.grp g).recNo = (s.grp g).recNo + 1
        ∧ (u.grp g).ready.length = (s.grp g).ready.length + 1 ∧ ∀ q ∈ (u.grp g).records, q.sample ≠ r.sample))
    ∧ (∀ r rest, (s.grp g).ready = r :: rest →
      (r.toHost = false → r.toDeep = false →
        Answers (.recordDelivery g) s (fun u => (u.grp g).ready = rest ∧ u.reg (aGrp g 0x10) = s.reg (aGrp g 0x10)))
      ∧ (r.toHost = true → r.toDeep = false → s.hostSlotFree g = true → (s.part (s.grp g).part).owner.isSome →
        Answers (.recordDelivery g) s (fun u => (u.grp g).ready = rest ∧ (u.grp g).lost = 0
          ∧ u.reg (aGrp g 0x10) = BitVec.ofNat 32 ((s.reg (aGrp g 0x10)).toNat + 1))))
    ∧ (∀ b g', (s.grp g).streaming = true → s.nextItem (s.grp g) = some (b, g') → (s.grp g).slotBuf = [] →
      s.hostSlotFree g = true → b.length ≠ 96 →
      Answers (.streamCopy g) s (fun u => (u.grp g).slotBuf = b ∧ (u.grp g).copyNext = g'.copyNext))

/-- A unit that is due, whose interval is over and whose inputs and output room stand, fires (R151, R152, R155). A
column of lattice mode fires where each of its units holds the tokens of an accumulation (R163, R179). Where a rule
leaves a corner open, the model's choice stands: log entries 79 and 83. -/
def Obligations.FiringComplete : Prop :=
  ∀ (s : State) (u : Nat), u < 2 ^ 15 → s.regionLive (uRegion u) = true →
   (∀ (dn : Due) (p : Machine.Plan),
    (s.regionMode (uRegion u) ≠ 2 ∨ s.uKind u ≠ 0) → s.uGated u = false → s.nextDue u = some dn → (s.unit u).switching = false →
    s.intervalOver u (s.unit u) = true → dn.sched ≤ s.cycle (uRegion u / 8) → s.plan u = some p →
    inputsReady (s.unit u) s.now p = true → portReady (s.unit u) 0 p.outs0 = true → portReady (s.unit u) 1 p.outs1 = true →
    (s.uKind u ≠ 2 ∨ featHeld (s.unit u) s.now = false) →
    seqConflict ((p.reads.foldl (fun s r => s.headCheck u r.1) s).unit u) (caSeqchk (s.ctxA u (s.unit u).actx)) p = none →
    Answers (.firing u) s (fun t => (t.unit u).lastFire = some s.now))
   ∧ (s.regionMode (uRegion u) = 2 → s.uKind u = 0 → cbFinal (s.ctxB u 0) = true → s.column u ≠ [] →
    (∀ v ∈ s.column u, s.columnTokens v ≤
      ((s.unit v).q0.filter (fun h => decide (h.since + unitRow u ≤ s.now + unitRow v))).length) →
    (∀ c, (s.unit u).lastFire = some c → c + s.columnTokens u * s.uII u 0 ≤ s.now) →
    Answers (.firing u) s (fun t => (t.unit u).lastFire = some s.now))

/-- The other events of a unit: its context switch, its standby fill, its pipeline, its bursts, its tree evaluations
(R154, R167, R168, R171, R191). The rescale stage of a cluster emits a final that needs no scale token, and gives up a
wait of 64 cycles as a skew (R111, R112, R113). Where a rule leaves a corner open, the model's choice stands: log
entries 77, 85 and 98. -/
def Obligations.UnitEventsComplete : Prop :=
  (
    ∀ (s : State) (u : Nat), u < 2 ^ 15 →
      ((s.unit u).switching = true → s.regionLive (uRegion u) = true → s.intervalOver u (s.unit u) = true →
        s.standbyFull u (s.unit u) = true →
        Answers (.foldSwitch u) s (fun t => (t.unit u).actx = s.nextCtx u (s.unit u).actx ∧ (t.unit u).fdone = 0
          ∧ (t.unit u).switching = false ∧ (t.unit u).setA = if s.uNctx u = 0 then (s.unit u).setA else (s.unit u).setB))
      ∧ (∀ c, (s.unit u).fillDone = some c → c ≤ s.now → (s.unit u).standbyOk = false →
        s.streamPending u (s.nextCtx u (s.unit u).actx) = false →
        Answers (.standbyFillDone u) s (fun t => (t.unit u).standbyOk = true ∧ (t.unit u).actx = (s.unit u).actx))
      ∧ (∀ f rest, (s.unit u).pipe = f :: rest → f.done ≤ s.now → s.regionLive (uRegion u) = true → s.uLoop u = false →
        portReady (s.unit u) 0 f.out0.length = true → portReady (s.unit u) 1 f.out1.length = true →
        Answers (.pipelineComplete u) s (fun t => (t.unit u).pipe = rest
          ∧ (t.unit u).out0 = (s.unit u).out0 ++ (f.out0.take 4).map (fun h => { h with since := s.now })
          ∧ (t.unit u).out1 = (s.unit u).out1 ++ (f.out1.take 4).map (fun h => { h with since := s.now })))
      ∧ (∀ h rest, s.regionLive (uRegion u) = true →
        ((s.unit u).burst0 = h :: rest → s.usedNow (useKey 2 (2 * u)) = false →
            (s.unit u).out0.length + bitOf (s.usedNow (useKey 1 (2 * u))) < 4 →
          Answers (.burstTokenPlace u 0) s (fun t => (t.unit u).out0 = (s.unit u).out0 ++ [{ h with since := s.now }] ∧ (t.unit u).burst0 = rest))
        ∧ ((s.unit u).burst1 = h :: rest → s.usedNow (useKey 2 (2 * u + 1)) = false →
            (s.unit u).out1.length + bitOf (s.usedNow (useKey 1 (2 * u + 1))) < 4 →
          Answers (.burstTokenPlace u 1) s (fun t => (t.unit u).out1 = (s.unit u).out1 ++ [{ h with since := s.now }] ∧ (t.unit u).burst1 = rest)))
      ∧ (∀ e rest, (s.unit u).waiting = e :: rest → e.ready ≤ s.now → s.regionLive (uRegion u) = true → s.treeBusy (s.unit u) = false →
        Answers (.treeEvaluation u) s (fun t => (t.unit u).waiting = rest ∧ (t.unit u).evalStart = some s.now)))
  ∧ (
    ∀ (s : State) (r c : Nat) (f : Final) (rest : List Final), r < 16 → c < 64 → s.regionLive r = true →
      (s.usedNow (useKey 8 (64 * r + c)) = false → (s.cluster (64 * r + c)).stage = [f] → f.ready ≤ s.now → ((s.finalEntries (64 * r + c) f).any (fun e => isDyn e.2)) = false →
        Answers (.rescaleStage r c) s (fun t => (t.cluster (64 * r + c)).stage = []
          ∧ (t.cluster (64 * r + c)).curBlk = some (sideBlk f.side)))
      ∧ (∀ w, (s.cluster (64 * r + c)).stage = f :: rest → (s.cluster (64 * r + c)).waitSince = some w →
        s.scaleHead (s.cluster (64 * r + c)) = none → w + 64 ≤ s.now →
        Answers (.scaleWaitTimeout r c) s (fun t => (t.cluster (64 * r + c)).stage = rest
          ∧ (t.cluster (64 * r + c)).waitSince = none ∧ ∃ x ∈ (t.cluster (64 * r + c)).skews, x.inst = f.inst ∧ x.seq = sideSeq f.side)))

/-- Tokens move through the switch of a cluster, the die fabric, the crossings and the bridge (R37, R161, R218, R220,
R221). Operations of sync cells stand in the order of their cycles and, within one, of the logical region indices that
sent them (R46). Where a rule leaves a corner open, the model's choice stands: log entries 80, 81, 83 and 98. -/
def Obligations.FabricComplete : Prop :=
  (
    ∀ (s : State) (d : Nat), d < 2 →
      (∀ r c src h, r < 16 → c < 64 → src < 20 → s.regionLive r = true → s.switchHead (64 * r + c) src = some h →
        let f := s.cycle ((64 * r + c) / 512) % 64
        s.switchEntries (64 * r + c) f src ≠ [] →
        s.waitAllows (switchKey (64 * r + c) src) (switchDsts (s.switchEntries (64 * r + c) f src)) = true →
        (∀ e ∈ s.switchEntries (64 * r + c) f src, s.switchFree 64 (64 * r + c) f (bitsOf e.2 24 18) = true) →
        Answers (.switchSlot r c src) s (fun t =>
          (t.unit (32 * (64 * r + c) + src)).out0 = (s.unit (32 * (64 * r + c) + src)).out0.drop 1))
      ∧ (∀ r c e x, r < 16 → c < 64 → s.regionLive r = true →
        let f := s.cycle ((64 * r + c) / 512) % 64
        s.switchEntries (64 * r + c) f 40 = [e] → s.switchFree 64 (64 * r + c) f (bitsOf e.2 24 18) = true →
        s.waitAllows (2 ^ 24 + 512 * (64 * r + c) + e.1) (switchDsts [e]) = true →
        s.sramServes (64 * r + c) f e = some x →
        Answers (.switchSlot r c 40) s (fun t => mapGet t.lat.memServed (2 ^ 24 + 512 * (64 * r + c) + e.1) = some x.id))
      ∧ (∀ r src p rest x m, r < 8 → src < 512 → s.regionLive (8 * d + r) = true →
        let es := s.dfSlots (8 * d + r) (s.cycle d % 64) src false
        es ≠ [] → (∀ e ∈ es, s.fabFree (8 * d + r) e = true) → s.fabHead d src false = some (p, rest) →
        s.fabDue d src false p.held = some (x, m) → m.region = 8 * d + r → m.dsts = dfDsts es →
        Answers (.fabricSlot d r src) s (fun t => mapGetD t.lat.fabIn (fabQueue d src false) [] = rest))
      ∧ (∀ ep p rest, ep < 512 → p.rel ≤ s.cycle d → s.instLive p.held.inst = true →
        (mapGetD s.lat.xOut (512 * d + ep) [] = p :: rest → s.dead d = false →
          Answers (.crossingRelease d ep false) s (fun t =>
            mapGetD t.lat.xOut (512 * d + ep) [] = bumpHead (s.cycle d + 1) rest
            ∧ mapGetD t.lat.fabIn (512 * d + ep) [] = mapGetD s.lat.fabIn (512 * d + ep) [] ++ [{ p with rel := s.cycle d }]))
        ∧ (mapGetD s.lat.xIn (512 * d + ep) [] = p :: rest → s.islandFree d ep = true → s.lowerPort d ep = false →
          Answers (.crossingRelease d ep true) s (fun t => mapGetD t.lat.xIn (512 * d + ep) [] = bumpHead (s.cycle d + 1) rest)))
      ∧ (∀ ch ecc p rest, ch < 32 → mapGetD s.lat.bridge (32 * d + ch) [] = p :: rest → p.rel ≤ s.cycle (1 - d) →
        s.instLive p.held.inst = true →
        Answers (.bridgeRelease d ch ecc) s (fun t => mapGetD t.lat.bridge (32 * d + ch) [] = bumpHead (s.cycle (1 - d) + 1) rest
          ∧ (mapGetD t.lat.fabIn (512 * (1 - d) + p.src) []).length = (mapGetD s.lat.fabIn (512 * (1 - d) + p.src) []).length + 1)))
  ∧ (
    ∀ (s : State) (d a r : Nat) (k : Token),
      let inOrder := fun (l : List SyncOp) => l.Pairwise (fun x y => x.cycle < y.cycle ∨ (x.cycle = y.cycle ∧ x.lregion ≤ y.lregion))
      inOrder (mapGetD s.lat.sync d []) → (∀ o ∈ mapGetD s.lat.sync d [], o.lregion < 2 ^ 16) →
      inOrder (mapGetD (s.syncPut d a r k).lat.sync d [])
      ∧ (mapGetD (s.syncPut d a r k).lat.sync d []).Perm (⟨a, s.field (aLat r 0) 15 0, k⟩ :: mapGetD s.lat.sync d []))

/-- The memory slots of a controller read 32 bytes onto the fabric and write 32 bytes from it (R222, R226). Where a rule
leaves a corner open, the model's choice stands: log entries 28 and 84. -/
def Obligations.MemorySlotsComplete : Prop :=
  ∀ (s : State) (d ctrl lane r j : Nat) (m : MemSlot) (x : Inst) (im : Loaded) (byte : Nat), d < 2 → ctrl < 2 → lane < 32 →
    (s.part x.part).image = some im → s.memAddr x im m.addr = some byte →
    (∀ t0, 128 ≤ s.cycle d → s.usedNow (useKey 10 (512 * d + memEp ctrl lane)) = false →
      s.memDue d ctrl lane false (s.cycle d - 128) = some (r, j, m, x, t0) →
      Answers (.memoryReadRelease d ctrl lane) s (fun t =>
        (mapGetD t.lat.fabIn (512 * d + memEp ctrl lane) []).length = (mapGetD s.lat.fabIn (512 * d + memEp ctrl lane) []).length + 1
        ∧ mapGet t.lat.memServed (65536 * r + j) = some x.id))
    ∧ (∀ p rest t0, (s.memDues d ctrl lane true (s.cycle d)).find?
        (fun e => decide (e.2.2.1.cycle = s.cycle d % 4096) && s.memWaits d ctrl lane e.2.2.2.1) = some (r, j, m, x, t0) → im.kind ≠ 1 →
      mapGetD s.lat.inbox (512 * d + memEp ctrl lane) [] = p :: rest →
      Answers (.memoryWriteSlot d ctrl lane) s (fun t => mapGetD t.lat.inbox (512 * d + memEp ctrl lane) [] = rest
        ∧ t.stackRead (2 * d + ctrl) byte 32 = leBytes 32 p.held.tok.payload.toNat
        ∧ ∀ a, (a < stackBytes * (2 * d + ctrl) + byte ∨ stackBytes * (2 * d + ctrl) + byte + 32 ≤ a) →
          memByte t.flt.stack a = memByte s.flt.stack a))

/-- The wide runs of a gauntlet engine and its merge point, and the watch for a schedule that hangs (R121, R122, R127,
R234, R494). Where a rule leaves a corner open, the model's choice stands: log entries 82 and 99. -/
def Obligations.GauntletComplete : Prop :=
  ∀ (s : State) (d : Nat), d < 2 →
    (∀ k l w, k < 64 → mapGet s.gau.layers (64 * d + k) = some l → partLive (s.part l.part) = true →
      (l.work.find? (fun w => w.accepted && w.runEnds.isNone && (match w.window with | some c => decide (c ≤ s.now) | none => false))
        = some w → w.wide = none → s.engineBusy (64 * d + k) l = false →
        Answers (.gauntletRun d k) s (fun t => (t.reg (aEng d l.engine)).toNat.testBit 31 = true
          ∧ ∃ l', mapGet t.gau.layers (64 * d + k) = some l' ∧ l'.running = true))
      ∧ (l.work.find? (fun w => w.passed.isNone && (match w.window with | some c => decide (c + l.w ≤ s.now) | none => false))
        = some w → (w.accepted = true → w.wide.isSome) →
        Answers (.mergeRelease d k) s (fun t =>
          ((t.unit l.merge).queue l.mqueue).length = ((s.unit l.merge).queue l.mqueue).length + w.held.length)))
    ∧ (∀ e k l w, e < 4 → s.gau.layers.find? (fun p => decide (p.1 / 64 = d ∧ p.2.engine = e) && p.2.running) = some (k, l) →
      l.work.find? (fun w => w.wide.isNone && (match w.runEnds with | some t => decide (t ≤ s.now) | none => false)) = some w →
      Answers (.gauntletRunEnd d e) s (fun t => t.flag (aEng d e) 31 = false
        ∧ ∃ q ∈ t.gau.layers, q.1 = k ∧ ∃ v ∈ q.2.work, v.inst = w.inst ∧ v.wide.isSome))
    ∧ (∀ p im x c, p < 16 → (s.part p).image = some im → s.hangDue p im = some (x, c) →
      (s.reg (aSeq d 0x14)).toNat ≠ 0 → partOnDie (s.part p) d = true → partLive (s.part p) = true →
      c + (s.reg (aSeq d 0x14)).toNat < s.cycle d → s.flag (aFlt d 0) 30 = false →
      Answers (.scheduleHang d p) s (fun t => (t.part p).state = .stopped ∧ (t.part p).hung = true))

/-- Events of a partition's life: admission opens, a pause has drained, a mode change is armed and takes effect, a zero
fill ends (R298, R310, R311, R315, R321). Where a rule leaves a corner open, the model's choice stands: log entries 3,
21 and 22. -/
def Obligations.PartitionEventsComplete : Prop :=
  ∀ (s : State) (p : Nat), p < 16 →
    (∀ c im, (s.part p).opensAt = some c → (s.part p).image = some im → im.openAt c ≤ s.cycle 0 →
      ((s.part p).state = .loaded ∨ (s.part p).state = .paused) →
      Answers (.admissionOpen p) s (fun t => (t.part p).state = .running ∧ (t.part p).opensAt = none))
    ∧ (s.drained p = true → Answers (.pauseDrained p) s (fun t => (t.part p).state = .paused))
    ∧ (∀ f im, (s.part p).change = some f → (s.part p).image = some im → (s.part p).filling = true →
      s.nextSeq (s.streamDie f.stream) f.stream ≤ f.n → (f.kind = 0 → (s.imageBytes p f.settings).2.isSome) →
      Answers (.modeChangeArm p) s (fun t => (t.part p).change = some { f with armed := true } ∧ (t.part p).filling = false))
    ∧ (∀ f, (s.part p).change = some f → f.armed = true → s.modePassed p f = true →
      Answers (.modeChangeDone p) s (fun t => (t.part p).change = none
        ∧ (f.kind = 0 → (t.part p).gen = (s.part p).gen + 1) ∧ (f.kind ≠ 0 → (t.part p).gen = (s.part p).gen)))
    ∧ (∀ b n, b < 768 → s.flt.zeroFills.find? (fun z => decide (z.1 = b)) = some (b, n) →
      Answers (.zeroFillDone b) s (fun t => (b, n) ∉ t.flt.zeroFills
        ∧ ∀ k a, k < 4 → stackBytes * k + b * 2 ^ 26 ≤ a → a < stackBytes * k + b * 2 ^ 26 + n * 2 ^ 26 →
          memByte t.flt.stack a = 0))

/-- Passes of a deep-path program: a pass starts, a section completes, the next one is swapped in or prefetched (R383,
R385, R389, R390). A die's elastic clock steps down when it is hot and back up when it has cooled (R399). Where a rule
leaves a corner open, the model's choice stands: log entries 3 and 74. -/
def Obligations.DeepPathComplete : Prop :=
  (
    ∀ (s : State) (p : Nat) (x : Deep) (im : Loaded), p < 16 → mapGet s.deep p = some x → (s.part p).image = some im →
      (im.kind = 1 → (s.part p).state = .running → x.pass = none → x.swap = false → x.section_ = 0 →
        (∀ r, r ∈ partRegions (s.part p) → s.regionPower r = 0) →
        let n := min (min ((s.part p).passRecords x.queue).length x.par.pmax) (s.ringFree p im x)
        n ≠ 0 →
        Answers (.passStart p) s (fun t => ∃ y, mapGet t.deep p = some y ∧ y.queue = x.queue.drop n ∧ y.passN = n ∧ y.pass.isSome))
      ∧ (∀ ps, x.pass = some ps → x.swap = false → partLive (s.part p) = true → s.sectionDone ps = true →
        (im.nsect ≤ 1 → Answers (.sectionComplete p) s (fun t => ∃ y, mapGet t.deep p = some y ∧ y.pass = none ∧ y.section_ = 0))
        ∧ (1 < im.nsect →
          Answers (.sectionComplete p) s (fun t => ∃ y, mapGet t.deep p = some y ∧ y.swap = true ∧ y.section_ = x.section_)))
      ∧ (∀ ps, x.pass = some ps → x.swap = true → partLive (s.part p) = true →
        (im.prefetchAt x.section_ = true → x.pfReady = true) →
        (s.swapTo p im (im.succ x.section_) (im.prefetchAt x.section_)).2 = true → im.succ x.section_ ≠ 0 →
        Answers (.swapComplete p) s (fun t => ∃ y, mapGet t.deep p = some y ∧ y.section_ = im.succ x.section_ ∧ y.swap = false))
      ∧ (im.prefetchAt x.section_ = true → x.pfReady = false → x.pass.isSome → partLive (s.part p) = true →
        (s.prefetch p im (im.succ x.section_) ((s.part p).gen % 2)).2 = true →
        Answers (.prefetchComplete p) s (fun t => ∃ y, mapGet t.deep p = some y ∧ y.pfReady = true)))
  ∧ (
    ∀ (s : State) (d : Nat), d < 2 → s.eligibleDie d = true → s.flag (aSeq d 0x600) 31 = true →
      (90 ≤ s.field (aPwr d 0) 15 8 → mapGetD s.seq.steps d 0 < min 8 (s.field (aSeq d 0x600) 23 20) →
        Answers (.elasticStep d true) s (fun t => mapGetD t.seq.steps d 0 = mapGetD s.seq.steps d 0 + 1))
      ∧ (s.field (aPwr d 0) 15 8 < 85 → 0 < mapGetD s.seq.steps d 0 →
        Answers (.elasticStep d false) s (fun t => mapGetD t.seq.steps d 0 = mapGetD s.seq.steps d 0 - 1)))

/-- IDENTIFY, QUERY, COUNTER_READ and READ_SETTINGS write what they are asked for to the host buffer, and the PCI
configuration space names the same vendor and device (R6, R623, R624, R628, R664). Where a rule leaves a corner open,
the model's choice stands: log entry 27. -/
def Obligations.QueriesComplete : Prop :=
  ∀ (s : State) (h : CmdHdr),
    let s' := s.dropHead h.port
    (s.admits (.identify h) = true → hostShort h 64 = false →
      Ends (.identify h) s 64 (fun u => u.hostBytes h 64 = s.identity h.port ∧ u.regs = s.regs))
    ∧ fieldLE (s.identity h.port) 0 4 = s.pciIdWord.toNat ∧ s.pciIdWord.toNat / 2 ^ 16 = (match s.hw.grade with | .kh16 => 0x4B16 | .kh12 => 0x4B12)
    ∧ (∀ sel part ws, s.admits (.query h sel part) = true → s'.queryWords h.port sel part = some ws →
      hostShort h (4 * ws.length) = false →
      Ends (.query h sel part) s (4 * ws.length) (fun u => u.regs = s.regs
        ∧ ∀ i, i < ws.length → fieldLE (u.hostBytes h (4 * ws.length)) (4 * i) 4 = ws.getD i 0 % 2 ^ 32))
    ∧ (∀ d mask bmask, s.admits (.counterRead h d mask bmask) = true →
      s'.counterReadCheck h (s.portPkg h.port) d mask bmask = none →
      let n := 8 * ((maskList 64 mask).length + (maskList 32 bmask).length + 1)
      Ends (.counterRead h d mask bmask) s n (fun u => u.cnt = s.cnt
        ∧ fieldLE (u.hostBytes h n) (n - 8) 8 = s.cycle d % 2 ^ 64))
    ∧ (∀ rmask, s.admits (.readSettings h rmask) = true → rmask < 256 →
      let b := s.readSettings rmask
      hostShort h b.length = false →
      Ends (.readSettings h rmask) s b.length (fun u => u.hostBytes h b.length = b ∧ u.sys = s.sys))

/-- BIND and UNBIND move regions and leave every other partition's alone (R293, R297 to R301). Where a rule leaves a
corner open, the model's choice stands: log entry 23. -/
def Obligations.BindingComplete : Prop :=
  ∀ (s : State) (h : CmdHdr) (p base size : Nat) (rs : BitVec 16), Inv s →
    (s.admits (.bind h p rs base size) = true →
      (s.dropHead h.port).bindCheck h.port p (maskList 16 rs.toNat) base size = none →
      Ends (.bind h p rs base size) s 0 (fun u =>
        (u.part p).regions = (if (s.part p).state = .none then rs else (s.part p).regions ||| rs)
        ∧ ((s.part p).state = .none → (u.part p).state = .bound ∧ (u.part p).owner = some h.port
            ∧ (u.part p).allocBase = base ∧ (u.part p).allocSize = size)
        ∧ ∀ q, q < 16 → q ≠ p → (u.part q).regions = (s.part q).regions &&& ~~~rs))
    ∧ (s.admits (.unbind h p rs) = true → pstateStill (s.part p).state = true → rs ≠ 0 →
      (∀ r, r < 16 → rs.getLsbD r = true → s.isFused r = false ∧ s.regionPart r = some p) →
      Ends (.unbind h p rs) s 0 (fun u => (u.part p).regions = (s.part p).regions &&& ~~~rs
        ∧ ((s.part p).regions = rs → (u.part p).state = .none ∧ (u.part p).owner = none)
        ∧ ∀ q, q < 16 → q ≠ p → (u.part q).regions = (s.part q).regions))

/-- ARM arms a group with its conditions, DISARM ends it, FORCE_TRIGGER leaves a mark for the group (R425, R450, R451).
Where a rule leaves a corner open, the model's choice stands: log entry 90. -/
def Obligations.TriggerCommandsComplete : Prop :=
  ∀ (s : State) (h : CmdHdr) (p g c : Nat),
    let s' := s.dropHead h.port
    (s.admits (.arm h p g) = true → s'.armCheck h.port p g (s'.armBlock h) = none →
      Ends (.arm h p g) s 0 (fun u => (u.grp g).armed = true
        ∧ ∀ e ∈ abConds (s'.armBlock h), ∃ x, mapGet u.cap.conds (ceCond e) = some x ∧ x.group = g ∧ x.part = p))
    ∧ (s.admits (.disarm h p g) = true → g < 64 → (s.grp g).armed = true → (s.grp g).part = p →
      Ends (.disarm h p g) s 0 (fun u => (u.grp g).armed = false ∧ ∀ e ∈ u.cap.conds, e.2.group ≠ g))
    ∧ (∀ x, s.admits (.forceTrigger h c) = true → s.cond c = some x → (s.part x.part).owner = some h.port → ceSource x.entry = 3 →
      Ends (.forceTrigger h c) s 0 (fun u => (u.grp x.group).forces = (s.grp x.group).forces ++ [c]
        ∧ u.cap.conds = s.cap.conds ∧ u.regs = s.regs))

/-- SET_MODE_AT of each kind makes its change pending, and CANCEL takes a change away (R309, R312, R313, R626).
STAGE_IMAGE, LOAD, SAVE_STATE and RESTORE_STATE become operations on their agents; a restore puts its partition in
LOADING (R304, R305, R319, R320, R622, R631). Where a rule leaves a corner open, the model's choice stands: log entries
9, 19, 21 and 100. -/
def Obligations.ImageAndModeCommandsComplete : Prop :=
  (
    ∀ (s : State) (h : CmdHdr) (p st n x m : Nat) (seeds : List Nat),
      let s' := s.dropHead h.port
      let pending := fun (k : Nat) (t : State) => ∃ c, (t.part p).change = some c ∧ c.kind = k ∧ c.stream = st ∧ c.n = n
        ∧ c.armed = false ∧ (t.part p).filling = true ∧ (t.part p).gen = (s.part p).gen
      (s.admits (.setModeAtScaleSet h p st n x) = true → (s'.setModeScale p st n x).2 = none →
        Begins (.setModeAtScaleSet h p st n x) s stStepping (fun t _ => pending 0 t))
      ∧ (s.admits (.setModeAtTrigger h p st n x) = true → (s'.setModeTrigger p st n x).2 = none →
        Begins (.setModeAtTrigger h p st n x) s stStepping (fun t _ => pending 1 t))
      ∧ (s.admits (.setModeAtSeeds h p st n m seeds) = true → (s'.setModeSeeds p st n m seeds).2 = none →
        Begins (.setModeAtSeeds h p st n m seeds) s stStepping (fun t _ => pending 2 t ∧ (t.part p).seeds = (s.part p).seeds))
      ∧ (∀ c, s.admits (.setModeAtCancel h p) = true → ((s.part p).state = .loaded ∨ (s.part p).state = .running ∨ (s.part p).state = .paused) →
        (s.part p).change = some c → c.boundary = none →
        Ends (.setModeAtCancel h p) s 0 (fun u => (u.part p).change = none ∧ (u.part p).gen = (s.part p).gen
          ∧ (u.part p).state = (s.part p).state)))
  ∧ (
    ∀ (s : State) (h : CmdHdr) (p : Nat),
      let s' := s.dropHead h.port
      (∀ k dst len off, s.admits (.stageImage h p k dst len off) = true → s'.stageCheck h p k dst len off = none →
        Begins (.stageImage h p k dst len off) s stStepping (fun t o => o.dies = [0, 1] ∧ o.done = 0
          ∧ (off = 0 → ⟨dst, len, h.hostLen, 0, false, []⟩ ∈ (t.part p).staged) ∧ (t.part p).state = (s.part p).state))
      ∧ (∀ relaxed flush ep img, s.admits (.load h p relaxed flush ep img) = true → s'.loadAccept p img flush = none →
        Begins (.load h p relaxed flush ep img) s stStepping (fun t o => o.agent = some 0
          ∧ t.part p = { s.part p with state := .loading } ∧ ∀ q, q ≠ p → t.part q = s.part q))
      ∧ (∀ base, s.admits (.saveState h p base) = true → s.saveCheck p base = none →
        Begins (.saveState h p base) s stStepping (fun t o => o.agent ≠ some 0 ∧ t.parts = s.parts))
      ∧ (∀ base, s.admits (.restoreState h p base) = true → s.restoreCheck p base = none →
        Begins (.restoreState h p base) s stStepping (fun t o => o.agent = some 0 ∧ (t.part p).state = .loading
          ∧ (t.part p).image = (s.part p).image)))

/-- START_AT, PAUSE, RESUME and BARRIER are accepted as operations that wait (R315, R321, R344, R622, R629). SCRUB,
STORE_SETTINGS and EYE_SCAN become operations; an eye scan waits where four run on its die (R491, R536, R662). Where a
rule leaves a corner open, the model's choice stands: log entries 9 and 22. -/
def Obligations.RunAndServiceCommandsComplete : Prop :=
  (
    ∀ (s : State) (h : CmdHdr) (p t : Nat),
      (∀ align q, s.admits (.startAt h p align t q) = true → s.startCheck p align t q = none →
        Begins (.startAt h p align t q) s stQueued (fun u o => (u.part p).opensAt = some t ∧ (u.part p).state = .loaded
          ∧ (align = true → u.seq.count0 = t ∧ u.seq.count1 = t) ∧ (align = false → u.seq = s.seq) ∧ o.agent = none))
      ∧ (s.admits (.pause h p) = true → (s.part p).state = .running →
        Begins (.pause h p) s stQueued (fun u _ => (u.part p).state = .pausing ∧ u.seq.insts = s.seq.insts))
      ∧ (s.admits (.resume h p t) = true → s.resumeCheck p t = none →
        Begins (.resume h p t) s stQueued (fun u _ => (u.part p).opensAt = some t ∧ (u.part p).saved = false
          ∧ (u.part p).state = .paused))
      ∧ (∀ tb at_ id, s.admits (.barrier h tb at_ t id) = true → s.barrierCheck tb at_ t = none →
        Begins (.barrier h tb at_ t id) s stQueued (fun u _ => u.barrier = some ⟨h, tb, time16Of at_, t, id⟩ ∧ u.seq = s.seq
          ∧ u.tim = s.tim)))
  ∧ (
    ∀ (s : State) (h : CmdHdr),
      let s' := s.dropHead h.port
      (∀ space repair stks regions base len, s.admits (.scrub h space repair stks regions base len) = true →
        s'.scrubCheck h space stks (BitVec.ofNat 16 regions) base len = none →
        Begins (.scrub h space repair stks regions base len) s stStepping (fun t o => o.done = 0 ∧ o.agent ≠ some 0 ∧ t.flt = s.flt))
      ∧ (∀ rmask, s.admits (.storeSettings h rmask) = true → s'.storeCheck h rmask = none →
        Begins (.storeSettings h rmask) s stStepping (fun t o => o.agent = some 4 ∧ t.storing = true ∧ t.sys = s.sys))
      ∧ (∀ l g, s.admits (.eyeScan h l g) = true → s'.eyeCheck h l g = none →
        (s.scansOn (laneDie l) < 4 →
          Begins (.eyeScan h l g) s stStepping (fun t o => t.reg (aLane l 0x60) = BitVec.ofNat 32 (2 ^ 31) ∧ o.dies = [laneDie l]))
        ∧ (4 ≤ s.scansOn (laneDie l) → Begins (.eyeScan h l g) s stQueued (fun t _ => t.lan = s.lan))))

/-- SET_WAKE_TOL, BUF_WRITE, BUF_READ, AUDIT_FETCH and the Mitten commands end at once (R362, R363, R364, R634, R666).
Where a rule leaves a corner open, the model's choice stands: log entries 10, 13 and 57. -/
def Obligations.InstantCommandsComplete : Prop :=
  ∀ (s : State) (h : CmdHdr),
    let s' := s.dropHead h.port
    (∀ part tol, s.admits (.setWakeTol h part tol) = true → (part < 16 ∨ (part = 0xFF ∧ s.portPkg h.port = true)) →
      let a := if part = 0xFF then aPwr 0 8 else aPwr 0 (0x100 + 4 * part)
      s.pkgState = 0 → (s'.setReg a (BitVec.ofNat 32 tol)).tooDeep = false →
      Ends (.setWakeTol h part tol) s 0 (fun u => u.reg a = BitVec.ofNat 32 tol ∧ ∀ b, b ≠ a → u.reg b = s.reg b))
    ∧ (∀ data, s.admits (.bufWrite h data) = true → bufCheck h (bufLimit h.port) = none →
      Ends (.bufWrite h data) s 0 (fun u => u.hostBytes h h.hostLen = bytesAt data 0 h.hostLen
        ∧ ∀ a, (a < h.hostAddr ∨ h.hostAddr + h.hostLen ≤ a) →
          memByte (u.port h.port).buffer a = memByte (s.port h.port).buffer a))
    ∧ (s.admits (.bufRead h) = true → bufCheck h 224 = none →
      Answers (.bufRead h) s (fun t => (t.port h.port).buffer = (s.port h.port).buffer
        ∧ (t.port h.port).unread = (s.port h.port).unread
          ++ [⟨h.tag, 0xF1, BitVec.ofNat 8 stOK, 0, 0, h.irq, s.hostBytes h h.hostLen⟩]))
    ∧ (∀ p c b ct n, s.admits (.auditFetch h p false false n) = true → mapGet s.chains p = some c → n ≠ latestBatch →
      c.closed.find? (fun x => decide (x.no = n)) = some b → b.content = some ct → b.parity = false →
      mapGetD s.flt.auditBad (2 ^ 20 * p + n) false = false →
      let reply := b.header ++ b.prevHead ++ b.head ++ leBytes 4 0 ++ leBytes 4 ct.length ++ zeroBytes 24 ++ ct
      hostShort h (160 + ct.length) = false →
      Ends (.auditFetch h p false false n) s ct.length (fun u => u.hostBytes h reply.length = reply
        ∧ ∃ d, mapGet u.chains p = some d ∧ d.head = c.head ∧ ∀ x ∈ d.closed, x.no = n → x.fetched = true))
    ∧ (∀ stop link peer pairs, s.admits (.mittenPair h stop link peer pairs) = true → s'.mitCheck h link peer pairs = none →
      Ends (.mittenPair h stop link peer pairs) s 0 (fun u => u.flag (aMit 0) 31 = true ∧ u.flag (aMit 0) 30 = stop
        ∧ u.field (aMit 0) 16 12 = link ∧ u.field (aMit 0) 11 0 = peer
        ∧ u.mit.pairs = pairs.foldl (fun m e => mapSet m e.1 e.2) []))
    ∧ (s.admits (.mittenPairDissolve h) = true → s.flag (aMit 0) 31 = true →
      (∀ e ∈ s.mit.pairs, (s.part e.1).owner = some h.port) →
      Ends (.mittenPairDissolve h) s 0 (fun u => u.reg (aMit 0) = 0 ∧ u.mit = ⟨[], [], [], [], [], [], []⟩))

/-- LANE_CTL SET_MODE, UP and DOWN on a lane or an engine (R509, R510, R533, R541). Where a rule leaves a corner open,
the model's choice stands: log entry 62. -/
def Obligations.LaneModeComplete : Prop :=
  ∀ (s : State) (h : CmdHdr) (k t x : Nat) (args : List Byte) (ls : List Nat), ctlLanes k t = some ls →
    (s.admits (.laneCtlSetMode h k t x args) = true → (k = 0 → t < 32) →
      (∀ l ∈ ls, s.laneInUse l = false ∧ s.laneStage l = 0) → rateOk (decide (k = 1)) (argWord args 0) = true →
      bitsOf (argWord args 0) 31 29 < 5 →
      Ends (.laneCtlSetMode h k t x args) s 0 (fun u => ∀ l ∈ ls, u.laneMode l = bitsOf (argWord args 0) 31 29
        ∧ u.laneRate l = bitsOf (argWord args 0) 28 24 ∧ u.laneRx l = s.laneRx l))
    ∧ (s.admits (.laneCtlUp h k t x args) = true →
      Ends (.laneCtlUp h k t x args) s 0 (fun u => ∀ l ∈ ls, u.laneRx l = true ∧ u.flag (aLane l 0) 13 = true
        ∧ u.laneMode l = s.laneMode l ∧ (s.laneStage l ≠ 0 → u.laneStage l = s.laneStage l)))
    ∧ (s.admits (.laneCtlDown h k t x args) = true → (∀ l ∈ ls, s.laneInUse l = false) →
      Ends (.laneCtlDown h k t x args) s 0 (fun u => ∀ l ∈ ls, u.laneRx l = false ∧ u.flag (aLane l 0) 13 = false
        ∧ u.laneStage l = 0 ∧ u.laneMode l = s.laneMode l))

/-- LANE_CTL SLIP, TEST, INJECT and SET_EQ on one lane (R531, R533, R538, R539). LANE_CTL SET_MAP, SET_CLASS, SET_OUT
and SET_JESD write their settings (R516, R521, R522, R534). Where a rule leaves a corner open, the model's choice
stands: log entry 63. -/
def Obligations.LaneServiceComplete : Prop :=
  (
    ∀ (s : State) (h : CmdHdr) (t x : Nat) (args : List Byte), t < 160 →
      (s.admits (.laneCtlSlip h 0 t x args) = true → s.laneMode t = 1 → s.laneStage t ≤ 3 → 1 ≤ fieldLE args 0 1 → fieldLE args 0 1 ≤ 63 →
        Ends (.laneCtlSlip h 0 t x args) s 0 (fun u => (u.lane t).slipping = true ∧ u.laneStage t = min 2 (s.laneStage t)
          ∧ u.field (aLane t 0) 5 0 = (s.field (aLane t 0) 5 0 + fieldLE args 0 1) % 64))
      ∧ (s.admits (.laneCtlTest h 0 t x args) = true → s.laneInUse t = false → bitsOf (argWord args 0) 29 27 ≤ 4 →
        (bitsOf (argWord args 0) 24 20 = 0 ∨ (10 ≤ bitsOf (argWord args 0) 24 20 ∧ bitsOf (argWord args 0) 24 20 ≤ 30)) →
        Ends (.laneCtlTest h 0 t x args) s 0 (fun u =>
          u.laneTest t = ((argWord args 0).testBit 31 || (argWord args 0).testBit 30)
          ∧ u.flag (aLane t 0x40) 31 = (argWord args 0).testBit 31 ∧ u.flag (aLane t 0x40) 30 = (argWord args 0).testBit 30))
      ∧ (s.admits (.laneCtlInject h 0 t x args) = true → s.laneStage t ≠ 0 →
        Ends (.laneCtlInject h 0 t x args) s 0 (fun u => u.regs = s.regs ∧ u.lan = s.lan))
      ∧ (s.admits (.laneCtlSetEq h 0 t x args) = true → s.laneStage t = 0 → eqOk t (bytesAt args 0 16) = true →
        Ends (.laneCtlSetEq h 0 t x args) s 0 (fun u => (u.lane t).eqSet = true ∧ u.regs = s.regs
          ∧ (u.lane t).eq = leBytes 2 t ++ (bytesAt args 0 16).drop 2)))
  ∧ (
    ∀ (s : State) (h : CmdHdr) (k t x : Nat) (args : List Byte),
      (s.admits (.laneCtlSetMap h 2 t x args) = true → t < 20 → (∀ l ∈ groupLanes t, s.laneStage l = 0) →
        Ends (.laneCtlSetMap h 2 t x args) s 0 (fun u => u.regs = s.regs
          ∧ mapGet u.lan.maps t = some (BitVec.ofNat 8 t :: (bytesAt args 0 8).drop 1) ∧ ∀ g, g ≠ t → mapGet u.lan.maps g = mapGet s.lan.maps g))
      ∧ (∀ p, s.admits (.laneCtlSetClass h k t x args) = true → ctlPsel k t = some p → s.pselInUse p = false → x < 16 →
        Ends (.laneCtlSetClass h k t x args) s 0 (fun u =>
          u.reg (aPsel p + 0x100 + 4 * x) = BitVec.ofNat 32 (bitsOf (argWord args 0) 31 29 * 2 ^ 29 + bitsOf (argWord args 0) 15 0)
          ∧ u.reg (aPsel p + 0x140 + 4 * x) = BitVec.ofNat 32 (bitsOf (argWord args 4) 15 0)
          ∧ u.reg (aPsel p + 0x180) = BitVec.ofNat 32 (argWord args 8)
          ∧ u.reg (aPsel p + 0x184) = BitVec.ofNat 32 (bitsOf (argWord args 12) 15 0)))
      ∧ (∀ p, s.admits (.laneCtlSetOut h k t x args) = true → ctlPsel k t = some p → x < 8 →
        let st := (s.part (s.field (aTempl p x 0x200) 7 4)).state
        (s.flag (aTempl p x 0x200) 31 = false ∨ (st ≠ .loaded ∧ st ≠ .running ∧ st ≠ .pausing)) →
        let n := bitsOf (argWord args 4) 21 15
        hostShort h n = false → n ≤ 64 → (n = 0 ∨ 14 ≤ n) → ((argWord args 4).testBit 22 = false ∨ bitsOf (argWord args 4) 14 8 + 28 ≤ n) →
        Ends (.laneCtlSetOut h k t x args) s 0 (fun u =>
          u.reg (aTempl p x 0x200) = BitVec.ofNat 32 (bitsOf (argWord args 0) 31 31 * 2 ^ 31 + bitsOf (argWord args 0) 7 0)
          ∧ u.reg (aTempl p x 0x204) = BitVec.ofNat 32 (bitsOf (argWord args 4) 31 4 * 2 ^ 4)
          ∧ mapGet (u.outPort p).open_ x = none ∧ mapGet (u.outPort p).fseq x = none))
      ∧ (s.admits (.laneCtlSetJesd h 4 t x args) = true → t < 16 →
        let d := t / 8
        let j := t % 8
        let c := argWord args 0
        let mask := bitsOf (argWord args 4) 15 0
        (∀ l, (l ∈ s.jesdPhys d j ∨ (l / 16 = d ∧ mask.testBit (s.laneLogical l) = true)) → s.laneInUse l = false) → bitsOf c 11 8 ≤ 7 → bitsOf c 23 16 < 32 * (bitsOf c 11 8 + 1) →
        (c.testBit 31 = true → mask ≠ 0) →
        Ends (.laneCtlSetJesd h 4 t x args) s 0 (fun u =>
          u.reg (aJesd d j 0) = BitVec.ofNat 32 (bitsOf c 31 30 * 2 ^ 30 + bitsOf c 23 16 * 2 ^ 16 + bitsOf c 11 8 * 2 ^ 8)
          ∧ u.reg (aJesd d j 4) = BitVec.ofNat 32 mask ∧ mapGet u.lan.lemc t = none)))

/-- A step serves the operation that its port and tag name, and no other; the last step of a SAVE_STATE, RESTORE_STATE,
SCRUB or STORE_SETTINGS ends it, and a LOAD ends after the step of its last regions, at a fault, or at its first step
where it is refused (R302, R303, R305, R319, R320, R491, R631, R662). Where a rule leaves a corner open, the model's
choice stands: log entries 19 and 20. -/
def Obligations.LongStepsComplete : Prop :=
  ∀ (s : State) (q : Port) (tag : BitVec 16) (i : StepIn) (o : Op),
    s.ops.find? (fun o => decide (o.port = q ∧ o.hdr.tag = tag) && o.agent.isSome) = some o → s.canStep o = true →
    o.status.toNat = stStepping →
    ((match o.cmd with
        | .saveState .. | .restoreState .. | .scrub .. | .storeSettings .. => True
        | _ => False) → i.last = true →
      Answers (.longOpStep q tag i) s (fun t => ∀ x ∈ t.ops, ¬ (x.port = o.port ∧ x.place = o.place)))
    ∧ (∀ h p img relaxed flush ep, o.cmd = .load h p relaxed flush ep img →
      let o1 := { o with steps := o.steps + 1 }
      let s1 := s.putOp o1
      (o.steps ≠ 0 → (i.fault = true ∨ loadGroups (s.part p) ≤ o.done) →
        Answers (.longOpStep q tag i) s (fun t => ∀ x ∈ t.ops, ¬ (x.port = o.port ∧ x.place = o.place)))
      ∧ (o.steps ≠ 0 → i.fault = false → o.done < loadGroups (s.part p) → (s1.loadSome p img o.done).2 = true →
        Answers (.longOpStep q tag i) s (fun t => { o1 with done := o.done + 1 } ∈ t.ops
          ∧ ∀ r, r < 16 → r ∉ partRegions (s.part p) → t.field (aLat r 0) 29 28 = s.field (aLat r 0) 29 28))
      ∧ (∀ st d, o.steps = 0 → (s1.loadBegin p img relaxed ep).2 = some (st, d) →
        Answers (.longOpStep q tag i) s (fun t => ∀ x ∈ t.ops, ¬ (x.port = o.port ∧ x.place = o.place))))
    ∧ (∀ h p base, o.cmd = .saveState h p base → i.last = false → i.fault = false →
      Answers (.longOpStep q tag i) s (fun t => { o with steps := o.steps + 1 } ∈ t.ops ∧ t.parts = s.parts ∧ t.flt = s.flt
        ∧ ∀ x ∈ s.ops, ¬ (x.port = o.port ∧ x.place = o.place) → x ∈ t.ops))
    ∧ (∀ h l g, l < 160 → o.cmd = .eyeScan h l g → i.fault = false → i.hostErr = false →
      gridPoints g ≤ o.done + i.bytes.length / 4 → o.done ≤ gridPoints g →
      Answers (.longOpStep q tag i) s (fun t => (∀ x ∈ t.ops, ¬ (x.port = o.port ∧ x.place = o.place))
        ∧ t.reg (aLane l 0x60) = BitVec.ofNat 32 (min 65535 (gridPoints g))))
    ∧ (∀ h p st n m ss, o.cmd = .setModeAtSeeds h p st n m ss → i.fault = false →
      Answers (.longOpStep q tag i) s (fun t => { o with steps := o.steps + 1 } ∈ t.ops ∧ t.parts = s.parts))

/-- A step of STAGE_IMAGE from host memory writes its bytes to the same place of all four stacks and to no other byte
(R474, R625). Where a rule leaves a corner open, the model's choice stands: log entry 15. -/
def Obligations.StagingWritesFourCopies : Prop :=
  ∀ (s : State) (q : Port) (tag : BitVec 16) (i : StepIn) (o : Op) (h : CmdHdr) (p dst len off : Nat),
    s.ops.find? (fun o => decide (o.port = q ∧ o.hdr.tag = tag) && o.agent.isSome) = some o → s.canStep o = true →
    o.status.toNat = stStepping → o.cmd = .stageImage h p 0 dst len off → i.hostErr = false →
    let a := partBase (s.part p) + dst + off + o.done
    let b := i.bytes.take (o.hdr.hostLen - o.done)
    a + b.length ≤ stackBytes →
    Answers (.longOpStep q tag i) s (fun t =>
      (∀ k, k < 4 → t.stackRead k a b.length = b)
      ∧ (∀ c, (∀ k, k < 4 → c < stackBytes * k + a ∨ stackBytes * k + a + b.length ≤ c) →
          memByte t.flt.stack c = memByte s.flt.stack c)
      ∧ (o.done + b.length = o.hdr.hostLen → ∀ x ∈ t.ops, ¬ (x.port = o.port ∧ x.place = o.place))
      ∧ (o.done + b.length ≠ o.hdr.hostLen → { o with steps := o.steps + 1, done := o.done + b.length } ∈ t.ops))

/-- The PCIe rings: the tail is written, a descriptor is fetched, the head is written, a port resets, a link comes up
(R637, R638, R641, R645). Where a rule leaves a corner open, the model's choice stands: log entries 7 and 14. -/
def Obligations.RingCommandsComplete : Prop :=
  ∀ (s : State) (l v : Nat) (d : List Byte), l < 2 → v < 2 ^ 32 → d.length = 64 →
    let p := linkPort l
    (v % 4096 < s.sqSize l → Answers (.ctlSqTailWrite l v) s (fun t => t.field (aCtl (0x100C + 0x100 * l)) 11 0 = v % 4096
      ∧ t.ports = s.ports))
    ∧ (s.portEn p = true → s.field (aCtl (0x1010 + 0x100 * l)) 11 0 ≠ s.field (aCtl (0x100C + 0x100 * l)) 11 0 →
      Answers (.descriptorFetch l d) s (fun t => (t.port p).ready = (s.port p).ready ++ [commandOf p d]
        ∧ t.field (aCtl (0x1010 + 0x100 * l)) 11 0 = (s.field (aCtl (0x1010 + 0x100 * l)) 11 0 + 1) % s.sqSize l))
    ∧ Answers (.ctlCqHeadWrite l v) s (fun t => t.cqHead l = v % 4096 ∧ (t.port p).ready = (s.port p).ready)
    ∧ (∀ down, Answers (.portReset l down) s (fun t => (t.port p).ready = [] ∧ (t.port p).held = [] ∧ (t.port p).host = (s.port p).host
      ∧ t.ops.length = s.ops.length ∧ (∀ o ∈ t.ops, o.port = p → o.orphan = true) ∧ t.parts = s.parts
      ∧ (down = true → t.portEn p = false)))
    ∧ ((l = 1 → s.sys.twoX8 = true) → Answers (.pcieLinkUp l) s (fun t => t.portEn p = true))

/-- Transfers on SMBus and through the TAP's GLIN instructions (R635, R727, R728). A CONTROL message in order is
accepted and its short form becomes ready; unacknowledged messages are sent again (R601). Where a rule leaves a corner
open, the model's choice stands: log entries 16, 17 and 18. -/
def Obligations.TransfersComplete : Prop :=
  (
    ∀ (s : State) (b : List Byte) (c : Completion) (cs : List Completion),
      (s.portEn .smbus = true → 12 ≤ b.length → b.length ≤ 255 → (s.port .smbus).ready.length < 16 →
        Answers (.smbusBlockWrite b true) s (fun t =>
          (t.port .smbus).ready = (s.port .smbus).ready ++ [commandOf .smbus (shortForm b)]))
      ∧ (s.portEn .smbus = true → (s.port .smbus).unread = c :: cs →
        Answers .smbusBlockRead s (fun t => t.readBytes = completionBytes .smbus false c ++ c.extra ∧ (t.port .smbus).unread = cs))
      ∧ (s.portEn .jtag = true → b.length = 64 → (s.port .jtag).ready.length < 16 →
        Answers (.glinSubmit b) s (fun t => t.sys.tap.ir = 0x13
          ∧ (t.port .jtag).ready = (s.port .jtag).ready ++ [commandOf .jtag (shortForm b)]))
      ∧ (s.portEn .jtag = true → (s.port .jtag).unread = c :: cs →
        Answers .glinComplete s (fun t => t.sys.tap.ir = 0x14 ∧ t.readBytes.length = 256 ∧ (t.port .jtag).unread = cs
          ∧ t.readBytes = bytesAt (1#8 :: (completionBytes .jtag false c ++ c.extra)) 0 256))
      ∧ (s.portEn .jtag = true → (s.port .jtag).unread = [] →
        Answers .glinComplete s (fun t => t.readBytes = zeroBytes 256)))
  ∧ (
    ∀ (s : State) (d i : Nat) (m : SvcMsg), d < 2 → i < 16 →
      let n := linkNo d i
      ((s.wlink n).inbox.find? (fun x => decide (x.mtype = 2)) = some m → s.flag (aWyl 0 4) 31 = true → s.fromMaster n = true →
        (fieldLE m.body 4 1).testBit 0 = false → fieldLE m.body 0 2 = (s.ctlAck + 1) % 2 ^ 16 → 20 ≤ m.body.length →
        (s.port .wyile).ready.length < 16 →
        Answers (.control d i) s (fun t => (t.port .wyile).ready = (s.port .wyile).ready ++ [commandOf .wyile (shortForm (m.body.drop 8))]
          ∧ t.wyl.ctl.accepted = some (fieldLE m.body 0 2)
          ∧ t.wyl.ctl.unacked = ctlAcked (fieldLE m.body 2 2) s.wyl.ctl.unacked))
      ∧ (s.ctlLink = some n → s.flag (aWyl 0 4) 31 = true →
        Answers (.controlResend d i) s (fun t => t.wyl.ctl = s.wyl.ctl
          ∧ (t.wlink n).queue.length = (s.wlink n).queue.length + s.wyl.ctl.unacked.length)))

/-- The debug instructions of the TAP: challenge, response, lock (R657, R728). The boundary-scan instructions while
RESET_N is low, and the others of the TAP (R728). Where a rule leaves a corner open, the model's choice stands: log
entries 68 and 69. -/
def Obligations.TapComplete : Prop :=
  (
    ∀ (s : State) (b : List Byte),
      (s.sys.blocked = false → Answers .glinChallenge s (fun t => t.sys.tap.ir = 0x10 ∧ t.readBytes.length = 48
        ∧ ∃ n, t.sys.nonce = some n ∧ t.readBytes = s.deviceId ++ n))
      ∧ (s.sys.blocked = true → Answers .glinChallenge s (fun t => t.readBytes = [] ∧ t.sys.nonce = s.sys.nonce))
      ∧ (s.crownStopped 0 = false → s.responseHolds b = true →
        Answers (.glinResponse b) s (fun t => t.field (aCrn 0 8) 31 30 = fieldLE b 0 1 ∧ t.sys.blocked = s.sys.blocked))
      ∧ (s.crownStopped 0 = false → s.responseHolds b = false →
        Answers (.glinResponse b) s (fun t => t.sys.blocked = true ∧ t.field (aCrn 0 8) 31 30 = s.field (aCrn 0 8) 31 30
          ∧ t.field (aCrn 0 8) 15 0 = min 65535 (s.field (aCrn 0 8) 15 0 + 1)))
      ∧ Answers .glinLock s (fun t => t.field (aCrn 0 8) 31 30 = 0 ∧ t.sys.tap.ir = 0x12)
      ∧ Answers .debugBlockExpiry s (fun t => t.sys.blocked = false ∧ t.regs = s.regs))
  ∧ (
    ∀ (s : State) (pins : List Bool),
      (s.sys.pins.resetLow = true →
        Answers (.extest pins) s (fun t => t.sys.tap = { s.sys.tap with ir := 0x00, driven := some s.sys.tap.boundary, boundary := pins, highz := false })
        ∧ Answers (.extestPulse pins) s (fun t => t.sys.tap = { s.sys.tap with ir := 0x05, driven := some s.sys.tap.boundary, boundary := pins, highz := false })
        ∧ Answers (.extestTrain pins) s (fun t => t.sys.tap = { s.sys.tap with ir := 0x06, driven := some s.sys.tap.boundary, boundary := pins, highz := false })
        ∧ Answers .clamp s (fun t => t.sys.tap = { s.sys.tap with ir := 0x03, driven := some s.sys.tap.boundary, highz := false })
        ∧ Answers .highz s (fun t => t.sys.tap = { s.sys.tap with ir := 0x04, driven := none, highz := true }))
      ∧ Answers (.samplePreload pins) s (fun t => t.sys.tap = { s.sys.tap with ir := 0x01, boundary := pins, driven := none, highz := false }
          ∧ t.regs = s.regs)
      ∧ Answers .idcode s (fun t => t.readData.getLsbD 0 = true ∧ t.readData.toNat / 2 ^ 28 = (match s.hw.stepping with | .a1 => 1 | .b0 => 2)
          ∧ t.readData.toNat / 2 ^ 12 % 2 ^ 16 = (match s.hw.grade with | .kh16 => 0x4B16 | .kh12 => 0x4B12))
      ∧ Answers .bypass s (fun t => t.sys.tap.ir = 0xFF ∧ t.readData = s.readData)
      ∧ Answers .trstN s (fun t => t.sys.tap.ir = 0x02 ∧ t.sys.tap.driven = none ∧ t.sys.tap.highz = false))

/-- Register writes: one that is no aligned 32-bit access, or finds no register, does nothing; one to a block with
nothing but stored fields changes what its access codes allow, and no other register; a W1C bit that this cycle has set
stays set, and an agent of lower rank than one that wrote before it in the cycle does not overwrite it (R10, R11, R12,
R47, R702). A first-record register keeps, of the happenings of one cycle, the one first in the order of R12, whichever
came first; a write that clears VALID leaves the record of its own cycle, and none where the cycle has none (R12, R206).
Reads: one that is no aligned 32-bit access answers 0; any other of a register answers the value it had before the
cycle, clears its RC fields but for what the cycle has set, and leaves the rest; the read of the largest count of
operations leaves the present count (R10, R11, R12, R249, R700, R702). Where a rule leaves a corner open, the model's
choice stands: log entries 46 and 52. -/
def Obligations.RegisterAccessComplete : Prop :=
  (
    ∀ (s : State) (g : Agent) (a : Nat) (v : Word), a < 2 ^ 28 →
      Answers (.registerWrite g a v false) s (fun t => t = s)
      ∧ (regRow a = none → Answers (.registerWrite g a v true) s (fun t => t = s))
      ∧ (∀ r, regRow a = some r → agentMay g a = true → (r.w1c.testBit 31 = true → (s.regCycle a).order = none) →
        ((0x30000 ≤ addrOff a ∧ addrOff a < 0x50000) ∨ (0x1000000 ≤ addrOff a ∧ addrOff a < 0x1800000)) →
        Answers (.registerWrite g a v true) s (fun t =>
          (∀ i, i < 32 → (t.reg a).getLsbD i
            = (((if !decide (agentRank g < (s.regCycle a).agent) && (r.rw.testBit i || (r.lk.testBit i && decide (g = .crown)))
                  then v.getLsbD i else (s.reg a).getLsbD i)
                && !(r.w1c.testBit i && v.getLsbD i))
              || ((s.regCycle a).fresh.getLsbD i && r.w1c.testBit i && v.getLsbD i)))
          ∧ (∀ b, b ≠ a → t.reg b = s.reg b) ∧ t.parts = s.parts ∧ t.flt = s.flt)))
  ∧ (
    ∀ (s : State),
      (∀ a v w o p, mapGet s.cyc a = none → s.flag a 31 = false → o < p →
        ((s.firstRecord a v o []).firstRecord a w p []).reg a = BitVec.ofNat 32 (v % 2 ^ 31 + 2 ^ 31)
        ∧ ((s.firstRecord a w p []).firstRecord a v o []).reg a = BitVec.ofNat 32 (v % 2 ^ 31 + 2 ^ 31))
      ∧ (∀ a v o, mapGet s.cyc a = none → s.flag a 31 = true → (s.firstRecord a v o []).reg a = s.reg a)
      ∧ (∀ g r v, r < 16 → agentMay g (aLat r 0xC) = true → v.getLsbD 31 = true → (s.regCycle (aLat r 0xC)).along = [] →
        Answers (.registerWrite g (aLat r 0xC) v true) s (fun t =>
          ((s.regCycle (aLat r 0xC)).order.isSome = true → t.reg (aLat r 0xC) = (s.regCycle (aLat r 0xC)).fresh)
          ∧ ((s.regCycle (aLat r 0xC)).order = none → (s.regCycle (aLat r 0xC)).fresh = 0 → t.flag (aLat r 0xC) 31 = false)
          ∧ ∀ b, b ≠ aLat r 0xC → t.reg b = s.reg b)))
  ∧ (
    ∀ (s : State) (g : Agent) (a : Nat), a < 2 ^ 28 →
      Answers (.rcRead g a false) s (fun t => t.readData = 0 ∧ t.regs = s.regs)
      ∧ (∀ r, a % 4 = 0 → regRow a = some r → agentMay g a = true → s.silent a = false → s.loRead (addrDie a) (addrOff a) = none →
        (addrOff a < 0x4000000 ∨ 0x7FFF000 ≤ addrOff a) →
        Answers (.rcRead g a true) s (fun t => t.readData = (s.readState a).peek (agentLink g) a
          ∧ (addrOff a ≠ 0x600010 → t.reg a = (s.reg a &&& ~~~BitVec.ofNat 32 r.rc) ||| ((s.regCycle a).fresh &&& BitVec.ofNat 32 r.rc))
          ∧ (addrOff a = 0x600010 → t.field a 31 16 = max (getBits (s.regCycle a).fresh 31 16)
              (min 65535 (if addrDie a = 0 then s.seq.ops0 else s.seq.ops1)))
          ∧ (∀ b, b ≠ a → t.reg b = s.reg b) ∧ t.flt = s.flt ∧ t.parts = s.parts)))

/-- Reads of the LO registers: the lower half answers, and HI holds the upper half of the same value (R12, R141, R248,
R330, R463, R506, R545, R575, R576, R672, R678, R696). A write of a LO register stores both halves of a sequence number
or counter; a stream in use keeps its number (R415, R463, R678). -/
def Obligations.LoRegistersComplete : Prop :=
  (
    ∀ (s : State) (d : Nat), d < 2 →
      let reads := fun (c : Instr) (lo hi v h : Nat) => s.silent lo = false →
        Answers c s (fun t => t.readData = BitVec.ofNat 32 v ∧ t.reg hi = BitVec.ofNat 32 h ∧ ∀ b, b ≠ hi → t.reg b = s.reg b)
      reads (.seqCycleLoRead d) (aSeq d 8) (aSeq d 0xC) (s.cycle d) (s.cycle d / 2 ^ 32)
      ∧ (∀ l k, l < 64 → k < 3 → let v := s.layerCount (64 * d + l) k
        reads (.gauLyrLoRead d l k) (aGau d (0x10008 + 0x20 * l + 8 * k)) (aGau d (0x10008 + 0x20 * l + 8 * k) + 4) v (v / 2 ^ 32))
      ∧ (∀ p, p < 16 → reads (.seqPartBndLoRead p) (aSeq 0 (0x408 + 0x10 * p)) (aSeq 0 (0x40C + 0x10 * p)) (s.bndLo p) (s.bndHi p))
      ∧ (∀ k, k < 2 → let v := mapGetD s.flt.errAddr (2 * d + k) 0
        reads (.memErrAddrLoRead d k) (aMem d (0x100 * k + 0x10)) (aMem d (0x100 * k + 0x14)) v (v / 2 ^ 32))
      ∧ (∀ t, t < 4 → let v := (s.tb t).off.toNat
        reads (.timSrvOffLoRead t) (aTb t 0x34) (aTb t 0x38) v (v / 2 ^ 32))
      ∧ (let v := s.tim.ppsTau.getD 0
        reads .timPpsTauLoRead (aTim 0x20010) (aTim 0x20014) v (v / 2 ^ 32))
      ∧ reads (.nvsSeqLoRead d) (aNvs d 4) (aNvs d 8) s.sys.seq (s.sys.seq / 2 ^ 32)
      ∧ (∀ n, n < 96 → reads (.cntValLoRead d n) (aCounter d n + 4) (aCounter d n + 8) (s.counter d n) (s.counter d n / 2 ^ 32))
      ∧ (∀ u, u < 4 → reads (.chkResLoRead d u) (aUnitChk d u 0x2C) (aUnitChk d u 0x30) (s.chkRes d u) (s.chkRes d u / 2 ^ 32))
      ∧ (∀ p, p < 16 → reads (.chkAudBatchLoRead p) (aChk 0 (0x10004 + 0x10 * p)) (aChk 0 (0x10008 + 0x10 * p)) (s.openBatchNo p)
          (s.openBatchNo p / 2 ^ 32))
      ∧ (∀ st, st < 16384 → s.silent (aStrm d st 0) = false →
        Answers (.capStrmSeqLoRead d st) s (fun t => t.readData = BitVec.ofNat 32 (s.nextSeq d st) ∧ t.regs = s.regs
          ∧ mapGetD t.cap.seqHi (16384 * d + st) 0 = s.nextSeq d st / 2 ^ 32))
      ∧ (∀ l n, l < 160 → n < 2 ^ 48 → s.silent (aLane l 0x44) = false → s.flag (aLane l 0x40) 30 = true → s.flag (aLane l 0x40) 25 = true →
        Answers (.lanPrbsLoRead l false n) s (fun t => t.readData = BitVec.ofNat 32 n ∧ t.reg (aLane l 0x48) = BitVec.ofNat 32 (n / 2 ^ 32))))
  ∧ (
    ∀ (s : State) (d st n : Nat) (v : Word), d < 2 → st < 16384 → n < 96 →
      (s.streamInUse st = false →
        Answers (.capStrmSeqLoWrite d st v) s (fun t =>
          t.nextSeq d st = v.toNat + 2 ^ 32 * (mapGetD s.cap.seqHi (16384 * d + st) 0 % 65536)
          ∧ ∀ st', st' < 16384 → st' ≠ st → t.nextSeq d st' = s.nextSeq d st'))
      ∧ (s.streamInUse st = true →
        Answers (.capStrmSeqLoWrite d st v) s (fun t => t.nextSeq d st = s.nextSeq d st ∧ t.flag (aCap d 0) 31 = true))
      ∧ Answers (.cntValLoWrite d n v) s (fun t => t.counter d n = v.toNat + 2 ^ 32 * s.field (aCounter d n + 8) 15 0
          ∧ (∀ m, m < 96 → m ≠ n → t.counter d m = s.counter d m) ∧ t.regs = s.regs))

/-- The commands on counters and logs: clears, snapshots, pops, counting (R139, R504, R677, R679, R680, R684). A check-
value unit starts, takes bytes and finishes (R688, R690). Where a rule leaves a corner open, the model's choice stands:
log entry 55. -/
def Obligations.CountersComplete : Prop :=
  (
    ∀ (s : State) (d : Nat), d < 2 →
      Answers (.clrTrip d) s (fun t => ∀ k l, mapGet t.gau.layers k = some l → ∃ l0, mapGet s.gau.layers k = some l0
        ∧ (l.trip = if k / 64 = d then 0 else l0.trip) ∧ l.overs = l0.overs)
      ∧ Answers (.clrOver d) s (fun t => ∀ k l, mapGet t.gau.layers k = some l → ∃ l0, mapGet s.gau.layers k = some l0
        ∧ (l.overs = if k / 64 = d then 0 else l0.overs) ∧ l.trip = l0.trip)
      ∧ Answers (.cntSnap d) s (fun t => t.reg (aCnt d 4) = BitVec.ofNat 32 (s.cycle d) ∧ t.cnt = s.cnt
          ∧ (∀ k, k < 64 → t.reg (aCnt d (0x2000 + 8 * k)) = BitVec.ofNat 32 (s.counter d k))
          ∧ (∀ k, k < 32 → t.reg (aCnt d (0x2200 + 8 * k)) = BitVec.ofNat 32 (s.counter d (64 + k))))
      ∧ (∀ l p, l < 2 → p < 16 → s.pageLive l d p = true →
        Answers (.cntUpSnap l d p) s (fun t => t.reg (aCnt d (0x10008 + 0x1000 * p)) = BitVec.ofNat 32 (s.cycle d)
          ∧ ∀ k, k < 64 → t.reg (aCnt d (0x10100 + 0x1000 * p + 8 * k))
            = if s.flag (cntCfg d k) 31 = true ∧ s.flag (cntCfg d k) 28 = true ∧ s.field (cntCfg d k) 27 24 = p then
                BitVec.ofNat 32 (s.counter d k) else 0))
      ∧ Answers (.cntSmpPop d) s (fun t => mapGetD t.cnt.samples d [] = (mapGetD s.cnt.samples d []).drop 1 ∧ t.cnt.val = s.cnt.val)
      ∧ Answers (.fltLogPop d) s (fun t => mapGetD t.flt.logs d [] = (mapGetD s.flt.logs d []).drop 1
          ∧ mapGetD t.flt.logs (1 - d) [] = mapGetD s.flt.logs (1 - d) [])
      ∧ (∀ k n u pc, s.flag (aCnt d 0) 1 = false →
        (k < 64 → s.flag (cntCfg d k) 31 = true → (k = 0 ∨ s.flag (cntCfg d k) 30 = false) →
          s.counter d k + min n 65535 < 2 ^ 48 →
          Answers (.counterWrap d k false n u pc) s (fun t => t.counter d k = s.counter d k + min n 65535 ∧ t.regs = s.regs))
        ∧ (k < 32 → s.flag (aCounter d (64 + k)) 31 = true → (k % 8 = 0 ∨ s.flag (aCounter d (64 + k)) 30 = false) →
          s.flag (aCounter d (64 + k)) 29 = false → 2 ^ 48 ≤ s.counter d (64 + k) + n →
          (k % 8 = 7 ∨ s.flag (aCounter d (64 + k) + 0x10) 31 = false ∨ s.flag (aCounter d (64 + k) + 0x10) 30 = false) →
          Answers (.counterWrap d k true n u pc) s (fun t => t.counter d (64 + k) = (s.counter d (64 + k) + n) % 2 ^ 48
            ∧ t.flag (aCnt d 0x18) k = true))))
  ∧ (
    ∀ (s : State) (d u : Nat) (v : Word), d < 2 → u < 4 →
      let c := aUnitChk d u 0
      let st := aUnitChk d u 0x34
      let w := s.field c 30 24
      let r := (mapGetD s.cnt.chk (4 * d + u) 0).toNat
      (8 ≤ w → w ≤ 64 → Answers (.chkStart d u) s (fun t => t.flag st 31 = true ∧ t.field st 23 0 = 0 ∧ t.chkRes d u = s.chkRes d u
        ∧ (s.field c 21 20 = 0 → mapGet t.cnt.chk (4 * d + u) = some (BitVec.ofNat 64 (s.pair (aUnitChk d u 0xC) % 2 ^ w)))))
      ∧ ((w < 8 ∨ 64 < w) → Answers (.chkStart d u) s (fun t => t.flag st 30 = true ∧ t.cnt = s.cnt))
      ∧ (s.flag st 31 = true → Answers (.chkDataWrite d u v) s (fun t =>
          t.field st 23 0 = min (2 ^ 24 - 1) (s.field st 23 0 + s.field c 19 18 + 1)
          ∧ mapGet t.cnt.chk (4 * d + u) = some (BitVec.ofNat 64
              (crcBytes w (s.pair (aUnitChk d u 4) % 2 ^ w) (s.flag c 23) r (leBytes (s.field c 19 18 + 1) v.toNat)))))
      ∧ (s.flag st 31 = false → Answers (.chkDataWrite d u v) s (fun t => t.flag st 29 = true ∧ t.cnt = s.cnt))
      ∧ (s.flag st 31 = true → Answers (.chkFinish d u) s (fun t => t.flag st 31 = false
          ∧ t.chkRes d u = crcFinal w (s.flag c 22) (s.pair (aUnitChk d u 0x14)) r % 2 ^ 64)))

/-- Reads of cluster SRAM through the aperture: a region that another owner holds answers 0, one within reach answers
its bytes (R703 to R705). BAR2: a read within reach answers the stack's bytes, a write stores its own and no others, and
neither touches a staged image (R305, R474, R707 to R710). Where a rule leaves a corner open, the model's choice stands:
log entries 39, 54 and 102. -/
def Obligations.AperturesComplete : Prop :=
  (
    ∀ (s : State) (l a : Nat), l < 2 → a < 2 ^ 28 → a % 4 = 0 → 0x4000000 ≤ addrOff a → addrOff a < 0x7FFF000 → s.silent a = false →
      (s.apertureRegion l (addrDie a) = none → Answers (.apertureRead l a) s (fun t => t.readData = 0 ∧ t.regs = s.regs))
      ∧ (∀ r, s.apertureRegion l (addrDie a) = some r → addrOff a < 0x6000000 →
        let o := addrOff a - 0x4000000
        s.rowHeld (64 * r + o / 0x80000) (o % 0x80000 / 32) = false →
        (s.sramRead (64 * r + o / 0x80000) (o % 0x80000) 4).2 = false →
        Answers (.apertureRead l a) s (fun t => t.readEnd = .ok ∧ t.lat = s.lat ∧ t.regs = s.regs
          ∧ t.readData = BitVec.ofNat 32 (leNat (s.sramRead (64 * r + o / 0x80000) (o % 0x80000) 4).1))))
  ∧ (
    ∀ (s : State) (l o n : Nat) (bs : List Byte), l < 2 → s.bar2Open = true →
      let k := s.bar2Addr l o / stackBytes
      let b := s.bar2Addr l o % stackBytes
      (o + n ≤ 2 ^ 36 → b + n ≤ stackBytes → s.bar2May l b = true → s.bar2May l (b + (n - 1)) = true →
        Answers (.bar2Access l o none n) s (fun t => t.readBytes = s.stackRead k b n ∧ t.flt.stack = s.flt.stack
          ∧ (s.badUnits k b n = [] → t.readEnd = .ok)))
      ∧ (o + bs.length ≤ 2 ^ 36 → b + bs.length ≤ stackBytes → s.bar2May l b = true → s.bar2May l (b + (bs.length - 1)) = true →
        Answers (.bar2Access l o (some bs) n) s (fun t =>
          (∀ i, i < bs.length → s.inStaged (b + i) = false → memByte t.flt.stack (stackBytes * k + b + i) = bs.getD i 0)
          ∧ (∀ i, i < bs.length → s.inStaged (b + i) = true →
              memByte t.flt.stack (stackBytes * k + b + i) = memByte s.flt.stack (stackBytes * k + b + i))
          ∧ (∀ c, (c < stackBytes * k + b ∨ stackBytes * k + b + bs.length ≤ c) → memByte t.flt.stack c = memByte s.flt.stack c)
          ∧ t.parts = s.parts))
      ∧ (o + n ≤ 2 ^ 36 → s.bar2May l b = false → Answers (.bar2Access l o none n) s (fun t => t.readEnd = .unsupported
          ∧ t.readBytes = [] ∧ t.flt = s.flt)))

/-- Source frames on the lanes: a good one is counted and offered to the streams, a bad one counted (R515, R517, R521).
Where a rule leaves a corner open, the model's choice stands: log entries 60 and 61. -/
def Obligations.SourceFramesComplete : Prop :=
  ∀ (s : State) (p l : Nat) (b : List Byte) (ck n : Nat), p < 96 → l < 160 →
    let plus := fun (t : State) (a : Nat) => (t.reg a).toNat = min (2 ^ 32 - 1) ((s.reg a).toNat + 1)
    (s.laneMode l = 1 → 5 ≤ s.laneStage l → s.laneTest l = false → s.lanePsel l = p →
      (∀ m, m = bitsOf (beNat (bytesAt b 0 8)) 47 32 → bitsOf (beNat (bytesAt b 0 8)) 63 56 = 0xFB → 1 ≤ m → b.length = 8 + pad8 m →
        crc32c (2 ^ 32 - 1) b = BitVec.ofNat 32 ck →
        Answers (.rawFrameReceive p l b ck n false) s (fun t => plus t (aPsel p + 0x10) ∧ t.reg (aPsel p + 0x14) = s.reg (aPsel p + 0x14)))
      ∧ Answers (.rawFrameReceive p l b ck n true) s (fun t => plus t (aPsel p + 0x14) ∧ t.reg (aPsel p + 0x10) = s.reg (aPsel p + 0x10)))
    ∧ (∀ d j lanes x, d < 2 → j < 8 → s.jesdLocked d j = true → lanes.length = (s.jesdLanes d j).length →
      (∀ y ∈ lanes, y.length = 8 * (32 * s.jesdE d j)) →
      (s.jesdPhys d j).find? (fun l => decide (s.laneLogical l = (s.jesdLanes d j).headD 0)) = some x →
      Answers (.jesdMultiblockReceive d j lanes true) s (fun t => plus t (aPsel x + 0x10))
      ∧ Answers (.jesdMultiblockReceive d j lanes false) s (fun t => plus t (aPsel x + 0x14)))
    ∧ (∀ l0 rest, s.pselLanes p = l0 :: rest → s.laneMode l0 = 3 → 5 ≤ s.pselStage p → (∀ x ∈ s.pselLanes p, s.laneTest x = false) →
      b.length + 4 ≤ 9216 → BitVec.ofNat 32 ck = BitVec.ofNat 32 (leNat (ethFcs b)) → s.ptpTaken p b = false →
      beNat (bytesAt b 12 2) ≠ 0x8808 → s.ethPasses p l0 b = true →
      (∀ c, (List.range 16).find? (fun c => s.ethRule p b c) = some c →
        Answers (.ethFrameReceive p b ck n) s (fun t => plus t (aPsel p + 0x10)))
      ∧ ((List.range 16).find? (fun c => s.ethRule p b c) = none →
        Answers (.ethFrameReceive p b ck n) s (fun t => plus t (aPsel p + 0x18) ∧ t.cap = s.cap)))

/-- The bring-up of a lane: its stages, its drops, its slip tests, its checker (R528, R529, R531, R538). The marker
words of R513: the lane's own word and its complement are recognised, in that form and with its LANE_ID, and so is a
word in which up to three bits of PATTERN are wrong; no word is both a marker and a complement of one (R531). SYSREF
aligns the LEMC of a link that has none, and the laser inputs of an engine fail and come back (R518, R540). Where a rule
leaves a corner open, the model's choice stands: log entry 62. -/
def Obligations.LaneBringUpComplete : Prop :=
  (
    ∀ (s : State) (l k : Nat) (inv : Bool) (w : BitVec 64), l < 160 →
      (s.laneMode l ≠ 0 → s.laneRx l = true → (s.lane l).slipping = false →
        (s.laneStage l ≤ 1 → Answers (.laneStageAdvance l inv w) s (fun t => t.laneStage l = s.laneStage l + 1))
        ∧ (s.laneStage l = 2 →
            (∀ q n, s.lanePattern l inv w = some (q, n) → Answers (.laneStageAdvance l inv w) s (fun t => t.laneStage l = 3
              ∧ t.flag (aLane l 4) 28 = q ∧ (s.laneIdent l = true → t.flag (aLane l 4) 16 = true ∧ t.field (aLane l 4) 26 24 = n)))
            ∧ (s.lanePattern l inv w = none → Answers (.laneStageAdvance l inv w) s (fun t => t = s)))
        ∧ (s.laneStage l = 3 → s.flag (aLane l 4) 18 = false →
          Answers (.laneStageAdvance l inv w) s (fun t => t.laneStage l = 4))
        ∧ (s.laneStage l = 4 → s.laneTest l = false → s.laneMode l ≠ 2 →
          Answers (.laneStageAdvance l inv w) s (fun t => t.laneStage l = 5)))
      ∧ (k ≠ 0 → k < s.laneStage l →
        Answers (.laneDrop l k) s (fun t => t.laneStage l = k ∧ (5 ≤ s.laneStage l → k < 5 → t.flag (aLane l 4) 13 = true)
          ∧ t.laneMode l = s.laneMode l))
      ∧ (∀ ws, s.laneMode l = 1 → s.laneStage l = 2 →
        Answers (.slipTestDone l ws) s (fun t => (t.lane l).slipping = false ∧ t.flag (aLane l 4) 16 = markerSeen ws
          ∧ t.flag (aLane l 4) 14 = !markerSeen ws
          ∧ t.laneStage l = 2))
      ∧ (s.flag (aLane l 0x40) 30 = true → s.laneTest l = true →
        Answers (.checkerLock l) s (fun t => t.flag (aLane l 0x40) 25 = true ∧ (t.lane l).errs = 0 ∧ (t.lane l).bits = 0)))
  ∧ (
    (∀ k, (markerWord k).extractLsb' 16 48 = 0xA55AC33CE11E#48 ∧ (markerWord k).extractLsb' 8 8 = BitVec.ofNat 8 (k % 8)
      ∧ (markerWord k).extractLsb' 0 8 = ~~~((markerWord k).extractLsb' 8 8))
    ∧ (∀ k i j m, i < 48 → j < 48 → m < 48 →
        let w := markerWord k ^^^ ((1#64 <<< (16 + i)) ||| (1#64 <<< (16 + j)) ||| (1#64 <<< (16 + m)))
        markerMatch w = some (false, k % 8) ∧ markerMatch (~~~w) = some (true, k % 8))
    ∧ ∀ w, isMarker w = true → isMarker (~~~w) = false)
  ∧ (
    ∀ (s : State) (d n e p : Nat), d < 2 → e < 16 → p < 65536 →
      Answers (.sysrefEdge d n) s (fun t => ∀ j, j < 8 → s.flag (aJesd d j 0) 31 = true →
        t.flag (aJesd d j 8) 30 = true
        ∧ mapGet t.lan.lemc (8 * d + j) = some (match mapGet s.lan.lemc (8 * d + j) with
            | some q => q
            | none => n * s.field (aLane ((s.jesdPhys d j).headD (16 * d)) 0) 23 16 % (2112 * s.jesdE d j)))
      ∧ (s.flag (aOptEng e 4) 31 = true → p < s.field (aOptEng e 8) 31 16 →
        Answers (.laserLoss e p) s (fun t => t.flag (aOptEng e 4) 31 = false ∧ t.flag (aOptEng e 4) 30 = true
          ∧ t.field (aOptEng e 8) 15 0 = p))
      ∧ (11 * s.field (aOptEng e 8) 31 16 ≤ 10 * p →
        Answers (.laserRecovery e p) s (fun t => t.flag (aOptEng e 4) 31 = true ∧ t.field (aOptEng e 8) 15 0 = p)))

/-- A repair, a leak of a bucket, a pass of the periodic scrub (R476, R488, R490). Where a rule leaves a corner open,
the model's choice stands: log entries 47 and 48. -/
def Obligations.IntegrityEventsComplete : Prop :=
  ∀ (s : State) (d : Nat), d < 2 →
    (∀ r q, mapGetD s.flt.repairs d [] = r :: q → (∀ x ∈ q, ¬ (x.kind = r.kind ∧ x.key = r.key)) → s.crownStopped d = false →
      rowDie r.kind r.key = d →
      Answers (.repair d) s (fun t => mapGetD t.flt.repairs d [] = q
        ∧ (s.rowPart r.kind r.key = none → r.kind = 1 → mapGetD t.lat.rescale r.key 0 = 0
            ∧ t.field (aFlt d 0x18) 15 0 = min 65535 (s.field (aFlt d 0x18) 15 0 + 1))))
    ∧ (∀ k, k < 5 → s.field (aFlt d (0x100 + 0x10 * k)) 15 0 ≠ 0 → s.field (aFlt d (0x104 + 0x10 * k)) 15 0 ≠ 0 →
      Answers (.bucketLeak d k) s (fun t =>
        t.field (aFlt d (0x104 + 0x10 * k)) 15 0 = s.field (aFlt d (0x104 + 0x10 * k)) 15 0 - 1
        ∧ ∀ a, a ≠ aFlt d (0x104 + 0x10 * k) → t.reg a = s.reg a))
    ∧ (s.flag (aFlt d 0x10) 31 = true → s.crownStopped d = false → (∀ e ∈ s.flt.cfgBad, 0x2000000 ≤ addrOff e.1) →
      Answers (.scrubPass d) s (fun t => mapGet t.flt.scrubLast d = some s.now
        ∧ (t.reg (aFlt d 0x14)).toNat = min (2 ^ 32 - 1) ((s.reg (aFlt d 0x14)).toNat + 1)))

/-- Cold reset and the steps of boot (R470, R472, R648, R649). The flash pins (R730) and the thermal sensors (R495,
R669, R734). Where a rule leaves a corner open, the model's choice stands: log entries 3, 69 and 70. -/
def Obligations.BootComplete : Prop :=
  (
    ∀ (s : State),
      Answers .coldReset s (fun t => t.sys.boot = .fill ∧ t.parts = [] ∧ t.ops = [] ∧ t.regs = State.reset.regs ∧ t.hw = s.hw
        ∧ t.pending = s.pending ∧ t.sys.banks = s.sys.banks ∧ t.sys.flash = s.sys.flash ∧ t.lat = State.reset.lat)
      ∧ (s.sys.boot = .fill →
        Answers .sramFillDone s (fun t => t.sys.pins.resetLow = false ∧ t.flag (aFlt 0 4) 31 = true ∧ t.flag (aFlt 1 4) 31 = true
          ∧ t.sys.boot = (if (s.bestSlot 0).isSome then .crown else .failFw)
          ∧ ∀ i, s.bestSlot 0 = some i → t.reg (aCrn 0 4) = BitVec.ofNat 32 (s.slotParts 0 i).2.1))
      ∧ (s.sys.boot = .crown → ∀ tr, tr.length = 4 →
        (tr = [true, true, true, true] → Answers (.stackTrainingDone tr) s (fun t => t.sys.boot = .memory))
        ∧ (tr ≠ [true, true, true, true] → Answers (.stackTrainingDone tr) s (fun t => t.sys.boot = .failMem)))
      ∧ (s.sys.boot = .memory →
        Answers .memFillDone s (fun t => t.flag (aFlt 0 4) 30 = true ∧ t.flag (aFlt 1 4) 30 = true ∧ t.flt.stack = s.flt.stack
          ∧ t.sys.boot = (if (s.bestSlot 1).isSome then .brim else .failFw)))
      ∧ (s.sys.boot = .brim → Answers .bootReady s (fun t => t.sys.boot = .ready ∧ t.field (aCrn 0 0) 31 28 = 4)))
  ∧ (
    ∀ (s : State) (d n : Nat) (ts : List Int) (a : Nat) (bs : List Byte), d < 2 → n < 12 → ts.length = 12 →
      Answers .flashRequest s (fun t => t.sys.pins.flashReq = true ∧ t.sys.pins.flashGnt = true ∧ t.sys.flash = s.sys.flash)
      ∧ (s.sys.pins.flashReq = true → Answers (.flashRelease [(a, bs)]) s (fun t => t.sys.pins.flashReq = false
          ∧ t.sys.pins.flashGnt = false ∧ memRead t.sys.flash a bs.length = bs
          ∧ ∀ c, (c < a ∨ a + bs.length ≤ c) → memByte t.sys.flash c = memByte s.sys.flash c))
      ∧ (s.sys.pins.flashReq = false → Answers (.flashRelease [(a, bs)]) s (fun t => t.sys.flash = s.sys.flash))
      ∧ (let hot := ts.foldl max (ts.headD 0)
        Answers (.thermalSample d ts) s (fun t => t.field (aPwr d 0) 15 8 = min 255 hot.toNat
          ∧ (90 ≤ hot → t.flag (aPwr d 0) 28 = true) ∧ (hot < 87 → t.flag (aPwr d 0) 28 = false)
          ∧ (hot < 90 → t.flag (aFlt d 0) 31 = false)
          ∧ (100 ≤ hot → s.flag (aFlt d 0) 31 = false → s.crownStopped d = false → t.flag (aFlt d 0) 31 = true
            ∧ ∀ p, (s.part p).state ≠ .loading → partOnDie (s.part p) d = true → (t.part p).state = .stopped)))
      ∧ Answers (.thermtrip d n) s (fun t => t.sys.pins.thermtrip = true ∧ t.regs = s.regs))

/-- The lead Crown's lock-step, and the containment and debugging of the Brim cores (R653 to R657). Where a rule leaves
a corner open, the model's choice stands: log entry 67. -/
def Obligations.CoresComplete : Prop :=
  ∀ (s : State) (d c : Nat) (w : Word), d < 2 → c < 4 →
    (s.crownStopped d = false → Answers (.crownLockstep d w) s (fun t => t.crownStopped d = true ∧ mapGet t.sys.diverged d = some s.now))
    ∧ (s.crownStopped d = true → mapGetD s.sys.crownDead d false = false →
      Answers (.crownRestartDone d) s (fun t => t.crownStopped d = false
        ∧ (t.reg (aCrn d 0xC)).toNat = min (2 ^ 32 - 1) ((s.reg (aCrn d 0xC)).toNat + 1) ∧ mapGet t.flt.scrubLast d = some s.now))
    ∧ (s.brimUp = true → s.coreState d c = 0 →
      let many := ((s.core d c).restarts.filter (fun t => decide (s.now < t + oneSecond))).length
      Answers (.mailboxReport d c) s (fun t => (t.core d c).reported = s.now ∧ t.regs = s.regs)
      ∧ Answers (.brimWatchdog d c) s (fun t => t.coreState d c = (if many < 3 then 1 else 2)
          ∧ t.field (aCore d c) 7 0 = s.field (aCore d c) 7 0)
      ∧ Answers (.brimAccessViolation d c) s (fun t => t.coreState d c = (if many < 3 then 1 else 2)
          ∧ t.field (aCore d c) 7 0 = min 255 (s.field (aCore d c) 7 0 + 1))
      ∧ (s.field (aCrn 0 8) 31 30 = 2 → Answers (.brimDebugHalt d c) s (fun t => t.coreState d c = 3)))
    ∧ (s.coreState d c = 1 → Answers (.brimRestartDone d c true) s (fun t => t.coreState d c = 0 ∧ (t.core d c).reported = s.now))
    ∧ (s.coreState d c = 2 → (s.core d c).stale = false →
      Answers (.brimHoldExpiry d c) s (fun t => t.coreState d c = 1 ∧ t.field (aCore d c) 15 8 = min 255 (s.field (aCore d c) 15 8 + 1)))
    ∧ (s.field (aCrn 0 8) 31 30 = 2 → s.coreState d c = 3 →
      Answers (.brimDebugResume d c) s (fun t => t.coreState d c = 0 ∧ (t.core d c).reported = s.now
        ∧ ∀ e ∈ t.cnt.sampleIrq, e.1 ≠ 4 * d + c))

/-- Power states are entered where the tolerances and idleness allow, and left at a wake (R665 to R668). Where a rule
leaves a corner open, the model's choice stands: log entries 71 and 101. -/
def Obligations.PowerStatesComplete : Prop :=
  ∀ (s : State) (r l : Nat), r < 16 →
    ((l = 1 ∨ l = 2) → s.regionPower r < l → wakeTime l ≤ s.regionTol r → s.sys.waking.getLsbD r = false →
      (∀ p, s.regionPart r = some p → s.partIdle p (decide (l = 1)) = true) → s.isFused r = false →
      Answers (.regionPowerEntry r l) s (fun t => t.regionPower r = l ∧ ∀ q, q < 16 → q ≠ r → t.regionPower q = s.regionPower q))
    ∧ (s.isFused r = true → Answers (.regionPowerEntry r l) s (fun t => t = s))
    ∧ ((l = 3 ∨ l = 4) → s.pkgState < l → wakeTime l ≤ s.leastTol → s.pkgIdle l = true → s.sys.wakingPkg = false →
      Answers (.packagePowerEntry l) s (fun t => t.pkgState = l ∧ (∀ q, q < 16 → s.isFused q = false → t.regionPower q = 2)
        ∧ (l = 4 → ∀ x, x < 160 → t.laneStage x = 0)))
    ∧ (s.sys.waking.getLsbD r = true → s.isFused r = false → Answers (.wakeComplete (some r)) s (fun t => t.sys.waking.getLsbD r = false
        ∧ (s.regionPower r ≤ regionFit (s.regionTol r) → t.regionPower r = 0)
        ∧ (t.regionPower r = 0 ∨ t.regionPower r = regionFit (s.regionTol r))))
    ∧ (s.sys.wakingPkg = true → s.pkgState ≤ pkgFit s.leastTol →
      Answers (.wakeComplete none) s (fun t => t.sys.wakingPkg = false ∧ t.pkgState = 0 ∧ ∀ q, q < 16 → s.isFused q = false → t.regionPower q = 0))

/-- Audit batches close, comparison records are sent, met, waited for; barriers release (R345, R357 to R359, R365 to
R369). A MITTEN message brings a comparison record, or dissolves the pair (R364, R368, R602). Where a rule leaves a
corner open, the model's choice stands: log entries 57, 58, 59, 105 and 106. -/
def Obligations.AuditAndMittenComplete : Prop :=
  (
    ∀ (s : State) (p : Nat), p < 16 →
      (∀ c b, mapGet s.chains p = some c → closable c = some b →
        Answers (.batchClose p) s (fun t => ∃ c' x, mapGet t.chains p = some c' ∧ c'.closed.head? = some x ∧ x.no = b.no
          ∧ x.prevHead = c.head ∧ x.head = c'.head ∧ c'.head = sha384 (c.head ++ x.header ++ batchContent b)
          ∧ x.content = some (batchContent b)))
      ∧ (∀ r rest, s.mit.toSend = r :: rest → s.mitActive r.part = true → s.mit.peerRecs.find? (sameEvent r) = none →
        Answers .mittenRecordSend s (fun t => t.mit.toSend = rest ∧ t.mit.localRecs = s.mit.localRecs ++ [r]))
      ∧ (∀ r, s.mit.localRecs.find? (fun r => decide (r.cycle + s.mitWait ≤ s.now)) = some r → s.mitActive r.part = true →
        Answers .mittenWaitExpiry s (fun t => (r.part, r.stream, r.seq) ∈ t.mit.lost
          ∧ (t.reg (aMit 0x24)).toNat = min (2 ^ 32 - 1) ((s.reg (aMit 0x24)).toNat + 1)))
      ∧ (∀ dg tp x, mapGet s.mit.pairs p = some x →
        Answers (.digestExchange p dg tp) s (fun t => mapGet t.mit.peer p = some (bytesAt dg 0 48, tp) ∧ t.mit.pairs = s.mit.pairs))
      ∧ (∀ b, s.barrier = some b → b.at_ ≤ (s.tb b.tb).t / 2 ^ 32 →
        Answers .barrierRelease s (fun t => t.barrier = none ∧ t.seq.count0 = b.v ∧ t.seq.count1 = b.v)))
  ∧ (
    ∀ (s : State) (d i : Nat) (m : SvcMsg), d < 2 → i < 16 →
      let n := linkNo d i
      (s.wlink n).inbox.find? (fun x => decide (x.mtype = 3)) = some m → s.flag (aMit 0) 31 = true → s.field (aMit 0) 16 12 = n →
      (m.body = dissolution → Answers (.mitten d i) s (fun t => t.mit = ⟨[], [], [], [], [], [], []⟩ ∧ t.reg (aMit 0) = 0
        ∧ (t.wlink n).inbox = (s.wlink n).inbox.erase m))
      ∧ (∀ p q, m.body ≠ dissolution → s.mit.pairs.find? (fun e => decide (e.2 = fieldLE m.body 40 1)) = some (p, q) → s.mitActive p = true →
        let r := bodyRec p s.now m.body
        (p, r.stream, r.seq) ∉ s.mit.lost → s.mit.localRecs.find? (sameEvent r) = none →
        Answers (.mitten d i) s (fun t => t.mit.peerRecs = s.mit.peerRecs ++ [r] ∧ t.mit.localRecs = s.mit.localRecs)))
end

