-- ==== Sys2Proof/Laws/Ops.lean ====
section
/-! SUPPORT. What each shared operation can do, said once: interrupts, completions, the fault log, counters and stored bytes.
A prover cites these in place of unfolding the operation. -/

namespace Sys2Proof.Machine

/-! ### Interrupts and completions write ports and registers alone -/

/-- `t` differs from `a` in its ports and registers at most, with what the cycle has done to those. -/
def PortsRegs (a t : State) : Prop := t = { a with ports := t.ports, regs := t.regs, cyc := t.cyc }

theorem PortsRegs.refl (s : State) : PortsRegs s s := rfl

theorem PortsRegs.trans {a b c : State} (h : PortsRegs a b) (k : PortsRegs b c) : PortsRegs a c := by
  unfold PortsRegs at *
  rw [k, h]

theorem PortsRegs.foldl {α : Type} (f : State → α → State) (h : ∀ s x, PortsRegs s (f s x)) (l : List α) (s : State) :
    PortsRegs s (l.foldl f s) := by
  induction l generalizing s with
  | nil => exact PortsRegs.refl s
  | cons x l ih => exact (h s x).trans (ih (f s x))

theorem PortsRegs.setReg (s : State) (a : Nat) (v : Word) : PortsRegs s (s.setReg a v) := rfl
theorem PortsRegs.setField (s : State) (a hi lo v : Nat) : PortsRegs s (s.setField a hi lo v) := rfl
theorem PortsRegs.setFlag (s : State) (a i : Nat) (b : Bool) : PortsRegs s (s.setFlag a i b) := rfl
theorem PortsRegs.addField (s : State) (a hi lo n : Nat) : PortsRegs s (s.addField a hi lo n) := rfl
theorem PortsRegs.addReg (s : State) (a n : Nat) : PortsRegs s (s.addReg a n) := rfl
theorem PortsRegs.putPort (s : State) (p : Port) (x : PortState) : PortsRegs s (s.putPort p x) := rfl

theorem PortsRegs.msi (s : State) (p : Port) (v : Nat) : PortsRegs s (s.msi p v) := by
  unfold State.msi
  split <;> first | exact PortsRegs.putPort .. | exact PortsRegs.refl s

theorem PortsRegs.irqCause (s : State) (bit : Nat) : PortsRegs s (s.irqCause bit) := by
  refine PortsRegs.foldl _ (fun s p => ?_) _ s
  dsimp only
  split
  · exact (PortsRegs.setFlag ..).trans (PortsRegs.msi ..)
  · exact PortsRegs.refl s

theorem PortsRegs.cqWrite (s : State) (p : Port) (c : Completion) : PortsRegs s (s.cqWrite p c) := by
  unfold State.cqWrite
  dsimp only
  split
  · exact (PortsRegs.putPort ..).trans ((PortsRegs.setField ..).trans (PortsRegs.msi ..))
  · exact (PortsRegs.putPort ..).trans (PortsRegs.setField ..)

theorem PortsRegs.post (s : State) (p : Port) (c : Completion) : PortsRegs s (s.post p c) := by
  unfold State.post
  dsimp only
  split
  · split
    · exact PortsRegs.putPort ..
    · exact PortsRegs.cqWrite ..
  · split
    · exact (PortsRegs.putPort ..).trans (PortsRegs.setFlag ..)
    · exact PortsRegs.putPort ..

/-- A completion changes the ports and registers at most (R619, R637). -/
theorem PortsRegs.complete (s : State) (h : CmdHdr) (op st d r : Nat) : PortsRegs s (s.complete h op st d r) := PortsRegs.post ..

/-- An interim completion changes the ports and registers at most (R620). -/
theorem PortsRegs.interim (s : State) (h : CmdHdr) (op st : Nat) : PortsRegs s (s.interim h op st) := by
  unfold State.interim
  split
  · exact PortsRegs.complete ..
  · exact PortsRegs.refl s

/-- Output of a command changes its port alone. -/
theorem PortsRegs.hostWrite (s : State) (h : CmdHdr) (bs : List Byte) : PortsRegs s (s.hostWrite h bs) := by
  unfold State.hostWrite
  dsimp only
  split <;> exact PortsRegs.putPort ..

/-- The oldest ready command leaves its port: nothing else changes. -/
theorem PortsRegs.dropHead (s : State) (p : Port) : PortsRegs s (s.dropHead p) := PortsRegs.putPort ..

/-- The end of an operation changes its list, the ports and the registers (R620, R630). -/
theorem finishOp_frame (s : State) (o : Op) (st d r : Nat) :
    PortsRegs { s with ops := s.ops.filter (fun x => !decide (x.port = o.port ∧ x.place = o.place)) } (s.finishOp o st d r) := by
  unfold State.finishOp
  dsimp only
  split
  · exact PortsRegs.refl _
  · exact PortsRegs.complete ..

/-- On a short-form port a completion joins the unread ones. -/
theorem post_unread (s : State) (p : Port) (c : Completion) (h : portPcie p = false) :
    ((s.post p c).port p).unread = (s.port p).unread ++ [c] := by
  unfold State.post
  rw [if_neg (by simp [h])]
  dsimp only
  split <;> simp

/-! ### The fault log and the buckets -/

/-- `t` differs from `a` in its fault unit, ports and registers at most, and in no byte of the stacks. -/
def FltFrame (a t : State) : Prop := t = { a with flt := t.flt, ports := t.ports, regs := t.regs, cyc := t.cyc } ∧ t.flt.stack = a.flt.stack

theorem FltFrame.trans_ports {a b c : State} (h : FltFrame a b) (k : PortsRegs b c) : FltFrame a c := by
  have e : c.flt = b.flt := by rw [k]
  refine ⟨?_, by rw [e, h.2]⟩
  rw [e]
  unfold PortsRegs at k
  rw [h.1] at k
  exact k

theorem FltFrame.refl (s : State) : FltFrame s s := ⟨rfl, rfl⟩
theorem FltFrame.logs (s : State) (l : AMap (List FaultEntry)) : FltFrame s { s with flt := { s.flt with logs := l } } := ⟨rfl, rfl⟩

/-- A fault writes the log, or its overflow count, and raises the cause FAULT for STOP and DEVICE (R496). -/
theorem FltFrame.fault (s : State) (d : Nat) (f : FaultRec) : FltFrame s (s.fault d f) := by
  have log : ∀ c : Prop, ∀ _ : Decidable c, ∀ l, FltFrame s (if c then s.addReg (aFlt d 0x214) 1 else { s with flt := { s.flt with logs := l } }) := by
    intro c _ l
    split
    · exact (FltFrame.refl s).trans_ports (PortsRegs.addReg ..)
    · exact FltFrame.logs s l
  unfold State.fault
  dsimp only
  split
  · exact (log _ _ _).trans_ports (PortsRegs.irqCause ..)
  · exact log _ _ _

/-- A correction counts in its bucket, and interrupts past the threshold (R487, R488). -/
theorem PortsRegs.bucketAdd (s : State) (d k n : Nat) : PortsRegs s (s.bucketAdd d k n) := by
  unfold State.bucketAdd
  dsimp only
  split
  · exact (PortsRegs.addReg ..).trans ((PortsRegs.addField ..).trans ((PortsRegs.setFlag ..).trans (PortsRegs.irqCause ..)))
  · exact (PortsRegs.addReg ..).trans (PortsRegs.addField ..)

/-! ### Performance counters write counters and registers alone -/

/-- `t` differs from `a` in its counters and registers at most. -/
def CntRegs (a t : State) : Prop := t = { a with cnt := t.cnt, regs := t.regs, cyc := t.cyc }

theorem CntRegs.refl (s : State) : CntRegs s s := rfl

theorem CntRegs.trans {a b c : State} (h : CntRegs a b) (k : CntRegs b c) : CntRegs a c := by
  unfold CntRegs at *
  rw [k, h]

theorem CntRegs.foldl {α : Type} (f : State → α → State) (h : ∀ s x, CntRegs s (f s x)) (l : List α) (s : State) :
    CntRegs s (l.foldl f s) := by
  induction l generalizing s with
  | nil => exact CntRegs.refl s
  | cons x l ih => exact (h s x).trans (ih (f s x))

theorem CntRegs.setFlag (s : State) (a i : Nat) (b : Bool) : CntRegs s (s.setFlag a i b) := rfl
theorem CntRegs.addReg (s : State) (a n : Nat) : CntRegs s (s.addReg a n) := rfl
theorem CntRegs.counters (s : State) (c : Counters) : CntRegs s { s with cnt := c } := rfl

theorem CntRegs.pushSample (s : State) (d : Nat) (e : FaultEntry) : CntRegs s (s.pushSample d e) := by
  unfold State.pushSample
  dsimp only
  split
  · exact CntRegs.addReg ..
  · exact CntRegs.counters ..

theorem CntRegs.ite {c : Prop} [Decidable c] {a t u : State} (h : CntRegs a t) (k : CntRegs a u) : CntRegs a (if c then t else u) := by
  split
  · exact h
  · exact k

theorem CntRegs.addCount (s : State) (d : Nat) (o : Occ) (fuel k n : Nat) : CntRegs s (s.addCount d o fuel k n) := by
  induction fuel generalizing s k n with
  | zero => exact CntRegs.refl s
  | succ f ih =>
    unfold State.addCount
    dsimp only
    refine CntRegs.ite (CntRegs.counters ..) ?_
    have h := fun c => (CntRegs.counters s c).trans (CntRegs.setFlag _ (aCnt d (0x10 + 4 * (k / 32))) (k % 32) true)
    refine CntRegs.ite (CntRegs.trans ?_ (ih ..)) ?_
    all_goals exact CntRegs.ite ((h _).trans (CntRegs.pushSample ..)) (h _)

/-- Counting occurrences changes counters and registers at most (R674, R677, R683). -/
theorem CntRegs.count (s : State) (d ev n : Nat) (o : Occ) : CntRegs s (s.count d ev n o) := by
  unfold State.count
  split
  · exact CntRegs.refl s
  · refine CntRegs.foldl _ (fun s k => ?_) _ s
    split
    · exact CntRegs.addCount ..
    · exact CntRegs.refl s

/-- Best-effort traffic is counted, nothing else (R225). -/
theorem CntRegs.bestEffort (s : State) (k b n : Nat) : CntRegs s (s.bestEffort k b n) := by
  unfold State.bestEffort
  split
  · exact CntRegs.refl s
  · exact (CntRegs.foldl _ (fun s _ => CntRegs.count ..) _ s).trans (CntRegs.count ..)

/-! ### Bytes of the stacks -/

/-- A write of stack `k` stores its bytes at its address and leaves every other byte (R485, R707). -/
theorem stackWrite_byte (s : State) (k b : Nat) (bs : List Byte) (c : Nat) :
    memByte (s.stackWrite k b bs).flt.stack c =
      if stackBytes * k + b ≤ c ∧ c < stackBytes * k + b + bs.length then bs.getD (c - (stackBytes * k + b)) 0
      else memByte s.flt.stack c := memByte_memWrite ..

/-- What was written to a stack reads back. -/
theorem stackRead_stackWrite (s : State) (k b : Nat) (bs : List Byte) : (s.stackWrite k b bs).stackRead k b bs.length = bs :=
  memRead_memWrite ..

/-- A write of a stack keeps the memory's canonical form. -/
theorem memWf_stackWrite (s : State) (k b : Nat) (bs : List Byte) (h : memWf s.flt.stack = true) :
    memWf (s.stackWrite k b bs).flt.stack = true := memWf_memWrite _ _ h

end Sys2Proof.Machine
end

