-- ==== Sys2Proof/Laws/PerInstr.lean ====
section
/-! SUPPORT. One lemma for each command: a well-formed command makes no access beyond its BAR, and its header's fields have the
widths of R617. -/

namespace Sys2Proof.Laws.Header

/-- A well-formed command makes no access beyond its BAR (R697), and the fields of its header have their widths (R617). -/
def Statement (i : Instr) : Prop :=
  i.wf = true → i.inBar = true ∧ ∀ h, i.header = some h → h.hostLen < 2 ^ 32 ∧ h.hostAddr < 2 ^ 64

theorem header_fits {i : Instr} (w : i.wf = true) (h : CmdHdr) (e : i.header = some h) : h.hostLen < 2 ^ 32 ∧ h.hostAddr < 2 ^ 64 := by
  simp only [Instr.wf, e, Bool.and_eq_true, CmdHdr.wf, decide_eq_true_eq] at w
  exact w.1

theorem quiet {i : Instr} (q : i.inBar = true) : Statement i := fun w => ⟨q, fun h e => header_fits w h e⟩

theorem ranges_of_wf {i : Instr} (w : i.wf = true) : i.ranges = true := by
  simp only [Instr.wf, Bool.and_eq_true] at w
  exact w.2

theorem identify : ∀ a, Statement (.identify a) := fun _ => quiet rfl
theorem query : ∀ a b c, Statement (.query a b c) := fun _ _ _ => quiet rfl
theorem bind : ∀ a b c d e, Statement (.bind a b c d e) := fun _ _ _ _ _ => quiet rfl
theorem unbind : ∀ a b c, Statement (.unbind a b c) := fun _ _ _ => quiet rfl
theorem stageImage : ∀ a b c d e f, Statement (.stageImage a b c d e f) := fun _ _ _ _ _ _ => quiet rfl
theorem load : ∀ a b c d e f, Statement (.load a b c d e f) := fun _ _ _ _ _ _ => quiet rfl
theorem startAt : ∀ a b c d e, Statement (.startAt a b c d e) := fun _ _ _ _ _ => quiet rfl
theorem pause : ∀ a b, Statement (.pause a b) := fun _ _ => quiet rfl
theorem saveState : ∀ a b c, Statement (.saveState a b c) := fun _ _ _ => quiet rfl
theorem restoreState : ∀ a b c, Statement (.restoreState a b c) := fun _ _ _ => quiet rfl
theorem resume : ∀ a b c, Statement (.resume a b c) := fun _ _ _ => quiet rfl
theorem setModeAtScaleSet : ∀ a b c d e, Statement (.setModeAtScaleSet a b c d e) := fun _ _ _ _ _ => quiet rfl
theorem setModeAtTrigger : ∀ a b c d e, Statement (.setModeAtTrigger a b c d e) := fun _ _ _ _ _ => quiet rfl
theorem setModeAtSeeds : ∀ a b c d e f, Statement (.setModeAtSeeds a b c d e f) := fun _ _ _ _ _ _ => quiet rfl
theorem setModeAtCancel : ∀ a b, Statement (.setModeAtCancel a b) := fun _ _ => quiet rfl
theorem arm : ∀ a b c, Statement (.arm a b c) := fun _ _ _ => quiet rfl
theorem disarm : ∀ a b c, Statement (.disarm a b c) := fun _ _ _ => quiet rfl
theorem forceTrigger : ∀ a b, Statement (.forceTrigger a b) := fun _ _ => quiet rfl
theorem scrub : ∀ a b c d e f g, Statement (.scrub a b c d e f g) := fun _ _ _ _ _ _ _ => quiet rfl
theorem storeSettings : ∀ a b, Statement (.storeSettings a b) := fun _ _ => quiet rfl
theorem readSettings : ∀ a b, Statement (.readSettings a b) := fun _ _ => quiet rfl
theorem eyeScan : ∀ a b c, Statement (.eyeScan a b c) := fun _ _ _ => quiet rfl
theorem laneCtlSetMode : ∀ a b c d e, Statement (.laneCtlSetMode a b c d e) := fun _ _ _ _ _ => quiet rfl
theorem laneCtlUp : ∀ a b c d e, Statement (.laneCtlUp a b c d e) := fun _ _ _ _ _ => quiet rfl
theorem laneCtlDown : ∀ a b c d e, Statement (.laneCtlDown a b c d e) := fun _ _ _ _ _ => quiet rfl
theorem laneCtlSlip : ∀ a b c d e, Statement (.laneCtlSlip a b c d e) := fun _ _ _ _ _ => quiet rfl
theorem laneCtlTest : ∀ a b c d e, Statement (.laneCtlTest a b c d e) := fun _ _ _ _ _ => quiet rfl
theorem laneCtlInject : ∀ a b c d e, Statement (.laneCtlInject a b c d e) := fun _ _ _ _ _ => quiet rfl
theorem laneCtlSetEq : ∀ a b c d e, Statement (.laneCtlSetEq a b c d e) := fun _ _ _ _ _ => quiet rfl
theorem laneCtlSetMap : ∀ a b c d e, Statement (.laneCtlSetMap a b c d e) := fun _ _ _ _ _ => quiet rfl
theorem laneCtlSetClass : ∀ a b c d e, Statement (.laneCtlSetClass a b c d e) := fun _ _ _ _ _ => quiet rfl
theorem laneCtlSetOut : ∀ a b c d e, Statement (.laneCtlSetOut a b c d e) := fun _ _ _ _ _ => quiet rfl
theorem laneCtlSetJesd : ∀ a b c d e, Statement (.laneCtlSetJesd a b c d e) := fun _ _ _ _ _ => quiet rfl
theorem setWakeTol : ∀ a b c, Statement (.setWakeTol a b c) := fun _ _ _ => quiet rfl
theorem counterRead : ∀ a b c d, Statement (.counterRead a b c d) := fun _ _ _ _ => quiet rfl
theorem auditFetch : ∀ a b c d e, Statement (.auditFetch a b c d e) := fun _ _ _ _ _ => quiet rfl
theorem mittenPair : ∀ a b c d e, Statement (.mittenPair a b c d e) := fun _ _ _ _ _ => quiet rfl
theorem mittenPairDissolve : ∀ a, Statement (.mittenPairDissolve a) := fun _ => quiet rfl
theorem barrier : ∀ a b c d e, Statement (.barrier a b c d e) := fun _ _ _ _ _ => quiet rfl
theorem bufWrite : ∀ a b, Statement (.bufWrite a b) := fun _ _ => quiet rfl
theorem bufRead : ∀ a, Statement (.bufRead a) := fun _ => quiet rfl
theorem longOpStep : ∀ a b c, Statement (.longOpStep a b c) := fun _ _ _ => quiet rfl
theorem ctlSqTailWrite : ∀ a b, Statement (.ctlSqTailWrite a b) := fun _ _ => quiet rfl
theorem descriptorFetch : ∀ a b, Statement (.descriptorFetch a b) := fun _ _ => quiet rfl
theorem ctlCqHeadWrite : ∀ a b, Statement (.ctlCqHeadWrite a b) := fun _ _ => quiet rfl
theorem portReset : ∀ a b, Statement (.portReset a b) := fun _ _ => quiet rfl
theorem smbusBlockWrite : ∀ a b, Statement (.smbusBlockWrite a b) := fun _ _ => quiet rfl
theorem smbusBlockRead : Statement .smbusBlockRead := quiet rfl
theorem glinSubmit : ∀ a, Statement (.glinSubmit a) := fun _ => quiet rfl
theorem glinComplete : Statement .glinComplete := quiet rfl
theorem glinChallenge : Statement .glinChallenge := quiet rfl
theorem glinResponse : ∀ a, Statement (.glinResponse a) := fun _ => quiet rfl
theorem glinLock : Statement .glinLock := quiet rfl
theorem extest : ∀ a, Statement (.extest a) := fun _ => quiet rfl
theorem samplePreload : ∀ a, Statement (.samplePreload a) := fun _ => quiet rfl
theorem idcode : Statement .idcode := quiet rfl
theorem clamp : Statement .clamp := quiet rfl
theorem highz : Statement .highz := quiet rfl
theorem extestPulse : ∀ a, Statement (.extestPulse a) := fun _ => quiet rfl
theorem extestTrain : ∀ a, Statement (.extestTrain a) := fun _ => quiet rfl
theorem bypass : Statement .bypass := quiet rfl
theorem registerWrite : ∀ a b c d, Statement (.registerWrite a b c d) := fun _ _ _ _ w => ⟨ranges_of_wf w, fun x e => header_fits w x e⟩
theorem rcRead : ∀ a b c, Statement (.rcRead a b c) := fun _ _ _ w => ⟨ranges_of_wf w, fun x e => header_fits w x e⟩
theorem seqCycleLoRead : ∀ a, Statement (.seqCycleLoRead a) := fun _ => quiet rfl
theorem gauLyrLoRead : ∀ a b c, Statement (.gauLyrLoRead a b c) := fun _ _ _ => quiet rfl
theorem seqPartBndLoRead : ∀ a, Statement (.seqPartBndLoRead a) := fun _ => quiet rfl
theorem capStrmSeqLoRead : ∀ a b, Statement (.capStrmSeqLoRead a b) := fun _ _ => quiet rfl
theorem capStrmSeqLoWrite : ∀ a b c, Statement (.capStrmSeqLoWrite a b c) := fun _ _ _ => quiet rfl
theorem memErrAddrLoRead : ∀ a b, Statement (.memErrAddrLoRead a b) := fun _ _ => quiet rfl
theorem lanPrbsLoRead : ∀ a b c, Statement (.lanPrbsLoRead a b c) := fun _ _ _ => quiet rfl
theorem timSrvOffLoRead : ∀ a, Statement (.timSrvOffLoRead a) := fun _ => quiet rfl
theorem timPpsTauLoRead : Statement .timPpsTauLoRead := quiet rfl
theorem nvsSeqLoRead : ∀ a, Statement (.nvsSeqLoRead a) := fun _ => quiet rfl
theorem cntValLoRead : ∀ a b, Statement (.cntValLoRead a b) := fun _ _ => quiet rfl
theorem cntValLoWrite : ∀ a b c, Statement (.cntValLoWrite a b c) := fun _ _ _ => quiet rfl
theorem chkResLoRead : ∀ a b, Statement (.chkResLoRead a b) := fun _ _ => quiet rfl
theorem chkAudBatchLoRead : ∀ a, Statement (.chkAudBatchLoRead a) := fun _ => quiet rfl
theorem clrTrip : ∀ a, Statement (.clrTrip a) := fun _ => quiet rfl
theorem clrOver : ∀ a, Statement (.clrOver a) := fun _ => quiet rfl
theorem cntSnap : ∀ a, Statement (.cntSnap a) := fun _ => quiet rfl
theorem cntUpSnap : ∀ a b c, Statement (.cntUpSnap a b c) := fun _ _ _ => quiet rfl
theorem cntSmpPop : ∀ a, Statement (.cntSmpPop a) := fun _ => quiet rfl
theorem fltLogPop : ∀ a, Statement (.fltLogPop a) := fun _ => quiet rfl
theorem chkStart : ∀ a b, Statement (.chkStart a b) := fun _ _ => quiet rfl
theorem chkDataWrite : ∀ a b c, Statement (.chkDataWrite a b c) := fun _ _ _ => quiet rfl
theorem chkFinish : ∀ a b, Statement (.chkFinish a b) := fun _ _ => quiet rfl
theorem tdcCalStart : ∀ a b, Statement (.tdcCalStart a b) := fun _ _ => quiet rfl
theorem ppsCalStart : Statement .ppsCalStart := quiet rfl
theorem timSnap : Statement .timSnap := quiet rfl
theorem tbSet : ∀ a, Statement (.tbSet a) := fun _ => quiet rfl
theorem tbStep : ∀ a, Statement (.tbStep a) := fun _ => quiet rfl
theorem tbSetOnPps : ∀ a, Statement (.tbSetOnPps a) := fun _ => quiet rfl
theorem manadjWrite : ∀ a b, Statement (.manadjWrite a b) := fun _ _ => quiet rfl
theorem g1LoadNow : Statement .g1LoadNow := quiet rfl
theorem g1LoadAtPps : Statement .g1LoadAtPps := quiet rfl
theorem g1Load : Statement .g1Load := quiet rfl
theorem timeBaseUpdate : ∀ a, Statement (.timeBaseUpdate a) := fun _ => quiet rfl
theorem apertureRead : ∀ a b, Statement (.apertureRead a b) := fun _ _ w => ⟨ranges_of_wf w, fun x e => header_fits w x e⟩
theorem bar2Access : ∀ a b c d, Statement (.bar2Access a b c d) := fun _ _ _ _ w => ⟨ranges_of_wf w, fun x e => header_fits w x e⟩
theorem firing : ∀ a, Statement (.firing a) := fun _ => quiet rfl
theorem foldSwitch : ∀ a, Statement (.foldSwitch a) := fun _ => quiet rfl
theorem standbyFillDone : ∀ a, Statement (.standbyFillDone a) := fun _ => quiet rfl
theorem pipelineComplete : ∀ a, Statement (.pipelineComplete a) := fun _ => quiet rfl
theorem burstTokenPlace : ∀ a b, Statement (.burstTokenPlace a b) := fun _ _ => quiet rfl
theorem treeEvaluation : ∀ a, Statement (.treeEvaluation a) := fun _ => quiet rfl
theorem switchSlot : ∀ a b c, Statement (.switchSlot a b c) := fun _ _ _ => quiet rfl
theorem fabricSlot : ∀ a b c, Statement (.fabricSlot a b c) := fun _ _ _ => quiet rfl
theorem crossingRelease : ∀ a b c, Statement (.crossingRelease a b c) := fun _ _ _ => quiet rfl
theorem bridgeRelease : ∀ a b c, Statement (.bridgeRelease a b c) := fun _ _ _ => quiet rfl
theorem memoryReadRelease : ∀ a b c, Statement (.memoryReadRelease a b c) := fun _ _ _ => quiet rfl
theorem memoryWriteSlot : ∀ a b c, Statement (.memoryWriteSlot a b c) := fun _ _ _ => quiet rfl
theorem rescaleStage : ∀ a b, Statement (.rescaleStage a b) := fun _ _ => quiet rfl
theorem scaleWaitTimeout : ∀ a b, Statement (.scaleWaitTimeout a b) := fun _ _ => quiet rfl
theorem gauntletRun : ∀ a b, Statement (.gauntletRun a b) := fun _ _ => quiet rfl
theorem gauntletRunEnd : ∀ a b, Statement (.gauntletRunEnd a b) := fun _ _ => quiet rfl
theorem mergeRelease : ∀ a b, Statement (.mergeRelease a b) := fun _ _ => quiet rfl
theorem scheduleHang : ∀ a b, Statement (.scheduleHang a b) := fun _ _ => quiet rfl
theorem rawFrameReceive : ∀ a b c d e f, Statement (.rawFrameReceive a b c d e f) := fun _ _ _ _ _ _ => quiet rfl
theorem jesdMultiblockReceive : ∀ a b c d, Statement (.jesdMultiblockReceive a b c d) := fun _ _ _ _ => quiet rfl
theorem ethFrameReceive : ∀ a b c d, Statement (.ethFrameReceive a b c d) := fun _ _ _ _ => quiet rfl
theorem eventAssembly : ∀ a b, Statement (.eventAssembly a b) := fun _ _ => quiet rfl
theorem entrySlot : ∀ a b, Statement (.entrySlot a b) := fun _ _ => quiet rfl
theorem admissionOpen : ∀ a, Statement (.admissionOpen a) := fun _ => quiet rfl
theorem latticeOccurrence : ∀ a b, Statement (.latticeOccurrence a b) := fun _ _ => quiet rfl
theorem pinEdge : ∀ a b c d, Statement (.pinEdge a b c d) := fun _ _ _ _ => quiet rfl
theorem trigOutPulse : ∀ a, Statement (.trigOutPulse a) := fun _ => quiet rfl
theorem trigOutPulseEnd : ∀ a, Statement (.trigOutPulseEnd a) := fun _ => quiet rfl
theorem coincWindowClose : ∀ a, Statement (.coincWindowClose a) := fun _ => quiet rfl
theorem triggerPointAssign : ∀ a, Statement (.triggerPointAssign a) := fun _ => quiet rfl
theorem recordSeal : ∀ a, Statement (.recordSeal a) := fun _ => quiet rfl
theorem recordDelivery : ∀ a, Statement (.recordDelivery a) := fun _ => quiet rfl
theorem streamCopy : ∀ a, Statement (.streamCopy a) := fun _ => quiet rfl
theorem tdcCalDone : ∀ a b, Statement (.tdcCalDone a b) := fun _ _ => quiet rfl
theorem passStart : ∀ a, Statement (.passStart a) := fun _ => quiet rfl
theorem sectionComplete : ∀ a, Statement (.sectionComplete a) := fun _ => quiet rfl
theorem swapComplete : ∀ a, Statement (.swapComplete a) := fun _ => quiet rfl
theorem prefetchComplete : ∀ a, Statement (.prefetchComplete a) := fun _ => quiet rfl
theorem elasticStep : ∀ a b, Statement (.elasticStep a b) := fun _ _ => quiet rfl
theorem modeChangeArm : ∀ a, Statement (.modeChangeArm a) := fun _ => quiet rfl
theorem modeChangeDone : ∀ a, Statement (.modeChangeDone a) := fun _ => quiet rfl
theorem pauseDrained : ∀ a, Statement (.pauseDrained a) := fun _ => quiet rfl
theorem barrierRelease : Statement .barrierRelease := quiet rfl
theorem batchClose : ∀ a, Statement (.batchClose a) := fun _ => quiet rfl
theorem ppsInEdge : ∀ a b c, Statement (.ppsInEdge a b c) := fun _ _ _ => quiet rfl
theorem ref10mInEdge : ∀ a b c, Statement (.ref10mInEdge a b c) := fun _ _ _ => quiet rfl
theorem holdover : ∀ a, Statement (.holdover a) := fun _ => quiet rfl
theorem ppsOutPulse : Statement .ppsOutPulse := quiet rfl
theorem ppsOutPulseEnd : Statement .ppsOutPulseEnd := quiet rfl
theorem ref10mOutEdge : Statement .ref10mOutEdge := quiet rfl
theorem ptpSync : ∀ a b c d, Statement (.ptpSync a b c d) := fun _ _ _ _ => quiet rfl
theorem ptpFollowUp : ∀ a b, Statement (.ptpFollowUp a b) := fun _ _ => quiet rfl
theorem ptpDelayResp : ∀ a b, Statement (.ptpDelayResp a b) := fun _ _ => quiet rfl
theorem tcPtpMessage : ∀ a b c d, Statement (.tcPtpMessage a b c d) := fun _ _ _ _ => quiet rfl
theorem tcFrameSend : ∀ a b c, Statement (.tcFrameSend a b c) := fun _ _ _ => quiet rfl
theorem timeReqSend : ∀ a b c d, Statement (.timeReqSend a b c d) := fun _ _ _ _ => quiet rfl
theorem timeReq : ∀ a b c d e f, Statement (.timeReq a b c d e f) := fun _ _ _ _ _ _ => quiet rfl
theorem timeRsp : ∀ a b c d, Statement (.timeRsp a b c d) := fun _ _ _ _ => quiet rfl
theorem wyileFrameSend : ∀ a b c, Statement (.wyileFrameSend a b c) := fun _ _ _ => quiet rfl
theorem wyileFrameReceive : ∀ a b c d e, Statement (.wyileFrameReceive a b c d e) := fun _ _ _ _ _ => quiet rfl
theorem nakRetry : ∀ a b c, Statement (.nakRetry a b c) := fun _ _ _ => quiet rfl
theorem train : ∀ a b c, Statement (.train a b c) := fun _ _ _ => quiet rfl
theorem wyileTrainingDone : ∀ a b c, Statement (.wyileTrainingDone a b c) := fun _ _ _ => quiet rfl
theorem trainingRetry : ∀ a b, Statement (.trainingRetry a b) := fun _ _ => quiet rfl
theorem trigger : ∀ a b, Statement (.trigger a b) := fun _ _ => quiet rfl
theorem control : ∀ a b, Statement (.control a b) := fun _ _ => quiet rfl
theorem controlResend : ∀ a b, Statement (.controlResend a b) := fun _ _ => quiet rfl
theorem mittenRecordSend : Statement .mittenRecordSend := quiet rfl
theorem mitten : ∀ a b, Statement (.mitten a b) := fun _ _ => quiet rfl
theorem mittenWaitExpiry : Statement .mittenWaitExpiry := quiet rfl
theorem repair : ∀ a, Statement (.repair a) := fun _ => quiet rfl
theorem bucketLeak : ∀ a b, Statement (.bucketLeak a b) := fun _ _ => quiet rfl
theorem scrubPass : ∀ a, Statement (.scrubPass a) := fun _ => quiet rfl
theorem zeroFillDone : ∀ a, Statement (.zeroFillDone a) := fun _ => quiet rfl
theorem thermalSample : ∀ a b, Statement (.thermalSample a b) := fun _ _ => quiet rfl
theorem thermtrip : ∀ a b, Statement (.thermtrip a b) := fun _ _ => quiet rfl
theorem crownLockstep : ∀ a b, Statement (.crownLockstep a b) := fun _ _ => quiet rfl
theorem crownRestartDone : ∀ a, Statement (.crownRestartDone a) := fun _ => quiet rfl
theorem mailboxReport : ∀ a b, Statement (.mailboxReport a b) := fun _ _ => quiet rfl
theorem brimWatchdog : ∀ a b, Statement (.brimWatchdog a b) := fun _ _ => quiet rfl
theorem brimAccessViolation : ∀ a b, Statement (.brimAccessViolation a b) := fun _ _ => quiet rfl
theorem brimRestartDone : ∀ a b c, Statement (.brimRestartDone a b c) := fun _ _ _ => quiet rfl
theorem brimHoldExpiry : ∀ a b, Statement (.brimHoldExpiry a b) := fun _ _ => quiet rfl
theorem debugBlockExpiry : Statement .debugBlockExpiry := quiet rfl
theorem coldReset : Statement .coldReset := quiet rfl
theorem sramFillDone : Statement .sramFillDone := quiet rfl
theorem stackTrainingDone : ∀ a, Statement (.stackTrainingDone a) := fun _ => quiet rfl
theorem memFillDone : Statement .memFillDone := quiet rfl
theorem bootReady : Statement .bootReady := quiet rfl
theorem flashRequest : Statement .flashRequest := quiet rfl
theorem flashRelease : ∀ a, Statement (.flashRelease a) := fun _ => quiet rfl
theorem regionPowerEntry : ∀ a b, Statement (.regionPowerEntry a b) := fun _ _ => quiet rfl
theorem packagePowerEntry : ∀ a, Statement (.packagePowerEntry a) := fun _ => quiet rfl
theorem wakeComplete : ∀ a, Statement (.wakeComplete a) := fun _ => quiet rfl
theorem laneStageAdvance : ∀ a b c, Statement (.laneStageAdvance a b c) := fun _ _ _ => quiet rfl
theorem laneDrop : ∀ a b, Statement (.laneDrop a b) := fun _ _ => quiet rfl
theorem slipTestDone : ∀ a b, Statement (.slipTestDone a b) := fun _ _ => quiet rfl
theorem sysrefEdge : ∀ a b, Statement (.sysrefEdge a b) := fun _ _ => quiet rfl
theorem laserLoss : ∀ a b, Statement (.laserLoss a b) := fun _ _ => quiet rfl
theorem laserRecovery : ∀ a b, Statement (.laserRecovery a b) := fun _ _ => quiet rfl
theorem counterWrap : ∀ a b c d e f, Statement (.counterWrap a b c d e f) := fun _ _ _ _ _ _ => quiet rfl
theorem pcieLinkUp : ∀ a, Statement (.pcieLinkUp a) := fun _ => quiet rfl
theorem digestExchange : ∀ a b c, Statement (.digestExchange a b c) := fun _ _ _ => quiet rfl
theorem checkerLock : ∀ a, Statement (.checkerLock a) := fun _ => quiet rfl
theorem ref10mInLoss : Statement .ref10mInLoss := quiet rfl
theorem trstN : Statement .trstN := quiet rfl
theorem brimDebugHalt : ∀ a b, Statement (.brimDebugHalt a b) := fun _ _ => quiet rfl
theorem brimDebugResume : ∀ a b, Statement (.brimDebugResume a b) := fun _ _ => quiet rfl
theorem ptpDelayReq : ∀ a b c, Statement (.ptpDelayReq a b c) := fun _ _ _ => quiet rfl

end Sys2Proof.Laws.Header
end

