-- ==== Sys2Proof/Laws/Tick.lean ====
section
/-! SUPPORT. What the lattice's own work of a cycle leaves alone: no command, partition, operation, stored byte, time base, lane,
link or capture group changes by it, and every instance stays in flight. -/

namespace Sys2Proof.Machine

/-- The part of the state that the lattice's own work of a cycle keeps: all but the lattice, the gauntlets, the fault log, the
counters, the ports, the registers and the marks of the instances. -/
def State.fixed (s : State) :=
  (s.pending, s.hw, s.now, s.readData, s.readBytes, s.readEnd, s.free, s.ops, s.parts, s.chains, s.mit, s.tim, s.deep, s.cap, s.lan,
    s.wyl, s.sys, s.barrier, s.flt.stack, s.seq.count0, s.seq.count1, s.seq.insts.map (·.id))

@[simp] theorem fixed_foldl {β : Type} (f : State → β → State) (l : List β) (s : State) (h : ∀ t x, (f t x).fixed = t.fixed) :
    (l.foldl f s).fixed = s.fixed := by
  induction l generalizing s with
  | nil => rfl
  | cons x l ih => exact (ih (f s x)).trans (h s x)

@[simp] theorem fixed_foldl_fst {β γ : Type} (f : State × γ → β → State × γ) (l : List β) (s : State × γ)
    (h : ∀ t x, (f t x).1.fixed = t.1.fixed) : (l.foldl f s).1.fixed = s.1.fixed := by
  induction l generalizing s with
  | nil => rfl
  | cons x l ih => exact (ih (f s x)).trans (h s x)

/-- A change of marks keeps the instances' numbers. -/
@[simp] theorem fixed_mapInst (s : State) (i : Nat) (f : Inst → Inst) (h : ∀ x, (f x).id = x.id) : (s.mapInst i f).fixed = s.fixed := by
  have e : (s.mapInst i f).seq.insts.map (·.id) = s.seq.insts.map (·.id) := by
    simp only [State.mapInst, List.map_map]
    refine List.map_congr_left fun x _ => ?_
    simp only [Function.comp]
    split <;> simp [h]
  unfold State.fixed
  rw [e]
  rfl

@[simp] theorem fixed_markOld (s : State) : s.markOld.fixed = s.fixed := by
  have e : s.markOld.seq.insts.map (·.id) = s.seq.insts.map (·.id) := by
    simp only [State.markOld, List.map_map]
    refine List.map_congr_left fun x _ => ?_
    simp only [Function.comp]
    (repeat' split) <;> rfl
  unfold State.fixed
  rw [e]
  rfl

@[simp] theorem fixed_setReg (s : State) (a : Nat) (v : Word) : (s.setReg a v).fixed = s.fixed := by rfl

@[simp] theorem fixed_mapLayers (s : State) (p : Nat × Layer → Bool) (f : Layer → Layer) : (s.mapLayers p f).fixed = s.fixed := by rfl

@[simp] theorem fixed_lat (s : State) (x : Lattice) : State.fixed { s with lat := x } = s.fixed := by rfl
@[simp] theorem fixed_gau (s : State) (x : Gauntlet) : State.fixed { s with gau := x } = s.fixed := by rfl
@[simp] theorem fixed_cnt (s : State) (x : Counters) : State.fixed { s with cnt := x } = s.fixed := by rfl
@[simp] theorem fixed_flt (s : State) (x : Integrity) (h : x.stack = s.flt.stack) : State.fixed { s with flt := x } = s.fixed := by
  simp only [State.fixed, h]
@[simp] theorem fixed_seq (s : State) (x : Sequencer) (h : x.count0 = s.seq.count0) (k : x.count1 = s.seq.count1)
    (i : x.insts = s.seq.insts) : State.fixed { s with seq := x } = s.fixed := by
  simp only [State.fixed, h, k, i]
@[simp] theorem fixed_nextTok (s : State) : s.nextTok.2.fixed = s.fixed := by rfl

@[simp] theorem fixed_setField (s : State) a hi lo v :
    (State.setField s a hi lo v).fixed = s.fixed := by rfl

@[simp] theorem fixed_putCycle (s : State) a e :
    (State.putCycle s a e).fixed = s.fixed := by rfl

@[simp] theorem fixed_happen (s : State) a f :
    (State.happen s a f).fixed = s.fixed := by rfl

@[simp] theorem fixed_setFlag (s : State) a i b :
    (State.setFlag s a i b).fixed = s.fixed := by rfl

@[simp] theorem fixed_addField (s : State) a hi lo n :
    (State.addField s a hi lo n).fixed = s.fixed := by rfl

@[simp] theorem fixed_addReg (s : State) a n :
    (State.addReg s a n).fixed = s.fixed := by rfl

@[simp] theorem fixed_setAlong (s : State) e :
    (State.setAlong s e).fixed = s.fixed := by
  unfold State.setAlong
  split <;> rfl

@[simp] theorem fixed_putRecord (s : State) a w along :
    (State.putRecord s a w along).fixed = s.fixed := by simp [State.putRecord]

@[simp] theorem fixed_firstRecord (s : State) a v o along :
    (State.firstRecord s a v o along).fixed = s.fixed := by
  unfold State.firstRecord
  simp only []
  (repeat' split) <;> simp

@[simp] theorem fixed_putUnit (s : State) u x :
    (State.putUnit s u x).fixed = s.fixed := by rfl

@[simp] theorem fixed_putCluster (s : State) k x :
    (State.putCluster s k x).fixed = s.fixed := by rfl

@[simp] theorem fixed_putPort (s : State) p x :
    (State.putPort s p x).fixed = s.fixed := by rfl

@[simp] theorem fixed_pushSample (s : State) d e :
    (State.pushSample s d e).fixed = s.fixed := by
  unfold State.pushSample
  simp only []
  (repeat' split) <;> simp

@[simp] theorem fixed_addCount (s : State) (d : Nat) (o : Occ) (fuel k n : Nat) :
    (State.addCount s d o fuel k n).fixed = s.fixed := by
  induction fuel generalizing s k n with
  | zero => rfl
  | succ f ih =>
    rw [State.addCount]
    simp only [apply_ite State.fixed, ih, fixed_pushSample, fixed_setFlag, fixed_cnt, ite_self]

@[simp] theorem fixed_count (s : State) d ev n o :
    (State.count s d ev n o).fixed = s.fixed := by
  unfold State.count
  split
  · rfl
  · refine fixed_foldl _ _ _ fun _ _ => ?_
    split <;> simp

@[simp] theorem fixed_msi (s : State) p v :
    (State.msi s p v).fixed = s.fixed := by
  unfold State.msi
  (repeat' split) <;> simp

@[simp] theorem fixed_irqCause (s : State) bit :
    (State.irqCause s bit).fixed = s.fixed := by
  refine fixed_foldl _ _ _ fun _ _ => ?_
  dsimp only
  (repeat' split) <;> simp

@[simp] theorem fixed_fault (s : State) d f :
    (State.fault s d f).fixed = s.fixed := by
  unfold State.fault
  simp only []
  (repeat' split) <;> simp

@[simp] theorem fixed_raise (s : State) i f :
    (State.raise s i f).fixed = s.fixed := by simp [State.raise]

@[simp] theorem fixed_markLate (s : State) i :
    (State.markLate s i).fixed = s.fixed := fixed_mapInst _ _ _ fun x => by split <;> rfl

@[simp] theorem fixed_stallAt (s : State) r u i cause :
    (State.stallAt s r u i cause).fixed = s.fixed := by simp [State.stallAt]

@[simp] theorem fixed_stall (s : State) u i cause :
    (State.stall s u i cause).fixed = s.fixed := by simp [State.stall]

@[simp] theorem fixed_queueRepair (s : State) d kind key part :
    (State.queueRepair s d kind key part).fixed = s.fixed := by
  unfold State.queueRepair
  simp only []
  (repeat' split) <;> simp

@[simp] theorem fixed_sideWrite1 (s : State) k l x e :
    (State.sideWrite1 s k l x e).fixed = s.fixed := by rfl

@[simp] theorem fixed_sideWrite (s : State) k l x es :
    (State.sideWrite s k l x es).fixed = s.fixed := by simp [State.sideWrite]

@[simp] theorem fixed_gauIngest (s : State) d st x sides es :
    (State.gauIngest s d st x sides es).fixed = s.fixed := by simp [State.gauIngest]

@[simp] theorem fixed_admHold (s : State) d ep st t tok i :
    (State.admHold s d ep st t tok i).fixed = s.fixed := by simp [State.admHold]

@[simp] theorem fixed_toLattice (s : State) d st x lowest seq raw :
    (State.toLattice s d st x lowest seq raw).fixed = s.fixed := by
  unfold State.toLattice
  split
  · rfl
  · dsimp only
    refine (fixed_mapInst _ _ _ fun y => ?_).trans ?_
    · split <;> rfl
    refine (fixed_foldl _ _ _ fun _ _ => fixed_admHold ..).trans ((fixed_gauIngest ..).trans ?_)
    split
    · refine (fixed_foldl _ _ _ fun _ _ => ?_).trans (fixed_foldl _ _ _ fun _ _ => ?_)
      · split <;> simp
      · split <;> simp
    · refine (fixed_raise ..).trans ((fixed_foldl _ _ _ fun _ _ => ?_).trans (fixed_foldl _ _ _ fun _ _ => ?_))
      · split <;> simp
      · split <;> simp

@[simp] theorem fixed_enterAll (s : State) :
    (State.enterAll s).fixed = s.fixed := by
  refine fixed_foldl _ _ _ fun _ _ => ?_
  (repeat' split) <;> simp

@[simp] theorem fixed_admMove (s : State) key :
    (State.admMove s key).fixed = s.fixed := by
  unfold State.admMove
  simp only []
  (repeat' split) <;> simp

@[simp] theorem fixed_admMoves (s : State) :
    (State.admMoves s).fixed = s.fixed := by simp [State.admMoves]

@[simp] theorem fixed_gated (s : State) d :
    (State.gated s d).fixed = s.fixed := by
  unfold State.gated
  split <;> rfl

@[simp] theorem fixed_sramWrite (s : State) k a b :
    (State.sramWrite s k a b).fixed = s.fixed := by simp [State.sramWrite]

@[simp] theorem fixed_sideFault (s : State) u q h :
    (State.sideFault s u q h).1.fixed = s.fixed := by simp [State.sideFault]

@[simp] theorem fixed_headCheck (s : State) u q :
    (State.headCheck s u q).fixed = s.fixed := by
  unfold State.headCheck
  simp only []
  (repeat' split) <;> simp

@[simp] theorem fixed_scaleHeadCheck (s : State) k :
    (State.scaleHeadCheck s k).fixed = s.fixed := by
  unfold State.scaleHeadCheck
  simp only []
  (repeat' split) <;> simp

@[simp] theorem fixed_rowArrive (s : State) w :
    (State.rowArrive s w).fixed = s.fixed := by
  unfold State.rowArrive
  simp only []
  (repeat' split) <;> simp

@[simp] theorem fixed_rowsArrive (s : State) :
    (State.rowsArrive s).fixed = s.fixed := by simp [State.rowsArrive]

@[simp] theorem fixed_unitHeads (s : State) u :
    (State.unitHeads s u).fixed = s.fixed := by
  unfold State.unitHeads
  (repeat' split) <;> simp

@[simp] theorem fixed_headsCheck (s : State) :
    (State.headsCheck s).fixed = s.fixed := by
  unfold State.headsCheck
  refine (fixed_foldl _ _ _ fun _ _ => ?_).trans (fixed_foldl _ _ _ fun _ _ => fixed_unitHeads ..)
  split <;> simp

@[simp] theorem fixed_unitStall (s : State) u x :
    (State.unitStall s u x).fixed = s.fixed := by
  unfold State.unitStall
  simp only []
  (repeat' split) <;> simp

@[simp] theorem fixed_scaleStalls (s : State) k :
    (State.scaleStalls s k).fixed = s.fixed := by simp [State.scaleStalls]

@[simp] theorem fixed_slotStall (s : State) key w :
    (State.slotStall s key w).fixed = s.fixed := by
  unfold State.slotStall
  simp only []
  (repeat' split) <;> simp

@[simp] theorem fixed_sourceStall (s : State) key :
    (State.sourceStall s key).fixed = s.fixed := by
  unfold State.sourceStall
  (repeat' split) <;> simp

@[simp] theorem fixed_crossStall (s : State) key inward ps :
    (State.crossStall s key inward ps).fixed = s.fixed := by
  unfold State.crossStall
  simp only []
  (repeat' split) <;> simp

@[simp] theorem fixed_bridgeStall (s : State) key ps :
    (State.bridgeStall s key ps).fixed = s.fixed := by
  unfold State.bridgeStall
  simp only []
  (repeat' split) <;> simp

@[simp] theorem fixed_memStalls (s : State) r ms :
    (State.memStalls s r ms).fixed = s.fixed := by
  unfold State.memStalls
  simp only []
  split
  · rfl
  · refine fixed_foldl _ _ _ fun _ _ => ?_
    split <;> simp

@[simp] theorem fixed_gauStall (s : State) k l :
    (State.gauStall s k l).fixed = s.fixed := by
  unfold State.gauStall
  (repeat' split) <;> simp

@[simp] theorem fixed_stalls (s : State) :
    (State.stalls s).fixed = s.fixed := by simp [State.stalls]

@[simp] theorem fixed_cycleOver (s : State) :
    (State.cycleOver s).fixed = s.fixed := by rfl

@[simp] theorem fixed_admit (s : State) :
    (State.admitCycle s).fixed = s.fixed := by simp [State.admitCycle]

@[simp] theorem fixed_cycleCounts (s : State) d :
    (State.cycleCounts s d).fixed = s.fixed := by
  unfold State.cycleCounts
  simp only []
  (repeat' split) <;> simp

/-- The lattice's own work of a cycle keeps all but its own state (R146, R152, R160, R406). -/
theorem fixed_work (s : State) :
    ((((s.headsCheck.stalls.rowsArrive.admitCycle.gated 0).gated 1).cycleCounts 0).cycleCounts 1).cycleOver.fixed = s.fixed := by
  simp

end Sys2Proof.Machine
end

