-- ==== Sys2Proof/Tests/Slice0.lean ====
section
/-! SUPPORT. Tests: an ill-formed term for each check of WellFormed, small checks of one step, and for each statement a witness
that its hypotheses can be met. Expected values come from the spec's rules and worked examples. -/

open Sys2Proof Sys2Proof.Machine

namespace Sys2Proof.Tests

set_option Elab.async false

/-- The next state of a command; the state itself where it stops. -/
def after (c : Instr) (s : State) : State := match exec c s with | .next t => t | _ => s

/-- A part that has booted, with both PCIe links up. -/
def up : State := { State.reset with sys := { State.reset.sys with boot := .ready, linkA := true, linkB := true, twoX8 := true } }

/-- A plain header on a port. -/
def hdr (p : Port) (n a : Nat) : CmdHdr := ⟨p, 7, none, false, false, false, true, n, a, [], false⟩

/-! ### Well-formedness: an ill-formed term for each check -/

theorem test_wf_accepts : (Instr.bind (hdr .pcieA 0 0) 3 0x0004 0 16).wf = true := by decide +kernel
theorem test_wf_header_length : (Instr.identify (hdr .pcieA (2 ^ 32) 0)).wf = false := by decide +kernel
theorem test_wf_header_address : (Instr.identify (hdr .pcieA 64 (2 ^ 64))).wf = false := by decide +kernel
theorem test_wf_ranges : ([.bind (hdr .pcieA 0 0) 256 0 0 0, .unbind (hdr .pcieA 0 0) 256 0, .query (hdr .pcieA 0 0) 256 0,
    .stageImage (hdr .pcieA 0 0) 0 0 0 (2 ^ 64) 0, .load (hdr .pcieA 0 0) 0 false false none (2 ^ 64), .pause (hdr .pcieA 0 0) 256,
    .startAt (hdr .pcieA 0 0) 0 false 0 ⟨2 ^ 16, 0, 0, 0, 0, 0, 0⟩, .saveState (hdr .pcieA 0 0) 0 (2 ^ 16), .resume (hdr .pcieA 0 0) 0 (2 ^ 64),
    .setModeAtScaleSet (hdr .pcieA 0 0) 0 0 (2 ^ 48) 0, .setModeAtSeeds (hdr .pcieA 0 0) 0 0 0 0 [0, 0, 0, 0, 0], .arm (hdr .pcieA 0 0) 0 256,
    .forceTrigger (hdr .pcieA 0 0) 256, .scrub (hdr .pcieA 0 0) 256 false 0 0 0 0, .storeSettings (hdr .pcieA 0 0) (2 ^ 32),
    .eyeScan (hdr .pcieA 0 0) 0 ⟨256, 0, 0, 0, 0, 0, 0, 0⟩, .laneCtlUp (hdr .pcieA 0 0) 0 0 0 [], .setWakeTol (hdr .pcieA 0 0) 0 (2 ^ 32),
    .counterRead (hdr .pcieA 0 0) 0 (2 ^ 64) 0, .auditFetch (hdr .pcieA 0 0) 0 false false (2 ^ 64), .mittenPair (hdr .pcieA 0 0) false 256 0 [],
    .barrier (hdr .pcieA 0 0) 0 ⟨2 ^ 48, 0, 0⟩ 0 0] : List Instr).all (fun i => !i.wf) = true := by decide +kernel
theorem test_wf_events : ([.ctlSqTailWrite 2 0, .descriptorFetch 0 [], .glinSubmit [], .registerWrite .pcieA (2 ^ 28) 0 true, .clrTrip 2,
    .gauLyrLoRead 0 64 0, .seqPartBndLoRead 16, .capStrmSeqLoRead 0 16384, .memErrAddrLoRead 0 2, .checkerLock 160, .tbSet 4, .cntValLoRead 0 96,
    .chkStart 0 4, .cntUpSnap 0 0 16, .tdcCalStart 0 4, .apertureRead 2 0, .bar2Access 0 (2 ^ 36) none 1, .firing (2 ^ 15), .burstTokenPlace 0 2,
    .switchSlot 0 64 0, .fabricSlot 0 8 0, .crossingRelease 0 512 true, .bridgeRelease 0 32 0, .memoryReadRelease 0 0 32, .gauntletRunEnd 0 4,
    .scheduleHang 0 16, .ethFrameReceive 96 [] 0 0, .jesdMultiblockReceive 0 8 [] true, .pinEdge 8 true 0 0, .coincWindowClose 64,
    .recordSeal 64, .tdcCalDone 9 [], .train 0 16 ⟨0, 0, 0, 0, 0, 0, 0⟩, .nakRetry 0 0 8, .bucketLeak 0 5, .zeroFillDone 768, .thermalSample 0 [],
    .thermtrip 0 12, .brimWatchdog 0 4, .stackTrainingDone [], .regionPowerEntry 0 3, .packagePowerEntry 2, .wakeComplete (some 16),
    .laneDrop 160 0, .laserLoss 16 0, .counterWrap 0 32 true 1 0 0] : List Instr).all (fun i => !i.wf) = true := by decide +kernel

/-! ### The queue, the common checks, the invariant -/

theorem witness_StepTakesTheFrontCommand : (up.withCommand .idcode).pending = .idcode :: [] := by decide +kernel
theorem witness_EmptyQueueIsOneCycle : up.pending = [] ∧ (match step up with | .next t => t.seq.count0 | _ => 9) = 1 := by decide +kernel
theorem test_g1_tick : (match step { up with now := 7 } with | .next t => t.tim.g1 | _ => 0) = 0x06666666 := by decide +kernel

/-- Partitions 0 and 3 of PCIe A with regions 0 and 9. -/
def two : State := { up with parts := [(0, { part0 with regions := 1, owner := some .pcieA, state := .bound, allocSize := 4 }),
  (3, { part0 with regions := 0x200, owner := some .pcieA, state := .running, allocBase := 4, allocSize := 4 })] }

theorem two_disjoint : ∀ p, p < 16 → ∀ q, q < 16 → p ≠ q → (two.part p).regions &&& (two.part q).regions = 0 := by decide +kernel
theorem two_fused : ∀ p, p < 16 → (two.part p).regions &&& two.hw.fused = 0 := by decide +kernel
theorem two_inv : Inv (two.withCommand (.pause (hdr .pcieA 0 0) 3)) :=
  ⟨by decide +kernel, by decide +kernel, fun p q hp hq => two_disjoint p hp q hq, two_fused⟩
theorem witness_EveryStepKeepsInv : ∃ t, Inv (two.withCommand (.pause (hdr .pcieA 0 0) 3)) ∧
    step (two.withCommand (.pause (hdr .pcieA 0 0) 3)) = .next t ∧ (t.part 3).state = .pausing := ⟨_, two_inv, rfl, by decide +kernel⟩
theorem test_legal_kh12 : (⟨.kh12, .b0, 0x8241, 0, 0⟩ : PartId).legal = true := by decide +kernel
theorem witness_OnlyAccessesBeyondTheBarStop : (Instr.apertureRead 1 (2 ^ 28 - 1)).inBar = true ∧ (Instr.apertureRead 1 (2 ^ 28)).inBar = false
    ∧ (Instr.bar2Access 0 (2 ^ 36 - 4) none 4).inBar = true ∧ (Instr.bar2Access 0 (2 ^ 36 - 3) none 4).inBar = false := by decide +kernel
theorem witness_RegionsMoveByBindingAlone : ∃ t, exec (.pause (hdr .pcieA 0 0) 3) two = .next t ∧ (t.part 3).regions = 0x200 :=
  ⟨_, rfl, by decide +kernel⟩
theorem witness_CommonChecksRefuse : cmdInfo (.pause (hdr .pcieA 0 0) 5) = some (hdr .pcieA 0 0, 0x21, some 5)
    ∧ two.taking (.pause (hdr .pcieA 0 0) 5) (hdr .pcieA 0 0) 0x21 (some 5) = .go
    ∧ (two.dropHead .pcieA).gate (hdr .pcieA 0 0) 0x21 (some 5) = some (stOwner, 0x403) := by decide +kernel
theorem witness_CommonChecksRefuse_owner : (two.part 3).owner ≠ some .smbus
    ∧ { two with regs := mapSet [] (aCtl 0x160) 0x80000000 }.taking (.pause (hdr .smbus 0 0) 3) (hdr .smbus 0 0) 0x21 (some 3) = .go := by decide +kernel
/-- PCIe A has an IDENTIFY ready. -/
def idCmd (p : Port) : Instr := .identify (hdr p 64 0)
def aReady : State := up.putPort .pcieA { port0 with ready := [idCmd .pcieA] }
theorem witness_CommonChecksRefuse_order : cmdInfo (idCmd .pcieB) = some (hdr .pcieB 64 0, 0x01, none)
    ∧ aReady.ownTaking (idCmd .pcieB) (hdr .pcieB 64 0) 0x01 none = .go ∧ aReady.portBefore .pcieB = true ∧ aReady.portBefore .pcieA = false
    ∧ ((after (idCmd .pcieB) aReady).port .pcieB).ready.length = 1 ∧ ((after (idCmd .pcieA) aReady).port .pcieA).ready.length = 0
    ∧ (after (idCmd .pcieA) aReady).portTaken .pcieA = true ∧ (after (idCmd .pcieA) aReady).portBefore .pcieB = false
    ∧ ({ after (idCmd .pcieA) aReady with now := 40 } : State).portTaken .pcieA = false := by decide +kernel
theorem witness_CommonChecksRefuse_boot : State.reset.sys.boot ≠ .ready ∧ (State.reset.port .pcieA).ready.any (fun d => sameCmd d .idcode) = false
    ∧ ((State.reset.pushReady .pcieA (.identify (hdr .pcieA 64 0))).port .pcieA).ready.any (fun d => sameCmd d (.identify (hdr .pcieA 64 0))) = true := by
  decide +kernel

/-! ### Frames, memories, reset -/

theorem witness_FramesOfTheSmallRows : ∃ t, exec .bypass up = .next t ∧ t.sys.tap.ir = 0xFF := ⟨_, rfl, by decide +kernel⟩
theorem witness_FramesOfHostCommands : ∃ t, exec (.laneCtlDown (hdr .pcieA 0 0) 0 0 0 []) up = .next t := ⟨_, rfl⟩
theorem witness_FramesOfTheLattice : ∃ t, exec (.foldSwitch 5) up = .next t := ⟨_, rfl⟩

/-- Both memory fills are done. -/
def filled : State := (up.setFlag (aFlt 0 4) 30 true).setFlag (aFlt 1 4) 30 true

theorem witness_MemoriesStayCanonical : memWf (after (.bar2Access 0 64 (some [1, 0, 2]) 0) filled).flt.stack = true
    ∧ (after (.bar2Access 0 64 (some [1, 0, 2]) 0) filled).flt.stack = [(64, 1), (66, 2)]
    ∧ memWf (after (.flashRelease [(8, [5, 0])]) (after .flashRequest up)).sys.flash = true
    ∧ (after (.bufWrite (hdr .jtag 2 9) [7, 0]) { up with regs := mapSet [] (aCrn 0 8) 0x40000000 }).flt = up.flt := by decide +kernel
theorem witness_ResetValues : ∃ t, exec .coldReset two = .next t ∧ t.sys.boot = .fill ∧ t.parts = [] := ⟨_, rfl, by decide +kernel, by decide +kernel⟩
theorem witness_UnalignedAccesses : (2 ^ 28 - 1 : Nat) < 2 ^ 28 := by decide +kernel
theorem witness_GauntletCounterClears : agentMay .pcieA (aGau 1 0x40) = true ∧ agentMay .crown (aGau 1 0x40) = true := by decide +kernel
theorem witness_PortResetKeepsTheMachine : (after (.portReset 1 true) up).sys.linkB = false ∧ (after (.portReset 1 true) up).sys.linkA = true
    ∧ (⟨.pcieB, 0, .idcode, hdr .pcieB 0 0, 0x40, none, 2, 1, some 1, [0], 0, [], true⟩ : Op).orphan = true := by decide +kernel

/-! ### Arithmetic: the examples of the spec -/

theorem test_shr_rne : [shrRne 5 1, shrRne 7 1, shrRne (-5) 1, shrRne (-7) 1] = [2, 4, -2, -4] := by decide +kernel
theorem witness_RoundingIsNearestEven : e4m3Fmt ∈ [fp32Fmt, bf16Fmt, e4m3Fmt, e5m2Fmt] ∧ (464 : Nat) ≠ 0 := by decide +kernel
theorem test_round_e4m3 : roundFmt e4m3Fmt 464 0 = (14, 5, false) ∧ (roundFmt e4m3Fmt 465 0).2.2 = true := by decide +kernel
theorem test_round_e5m2 : (roundFmt e5m2Fmt 61440 0).2.2 = true ∧ (roundFmt e5m2Fmt 61439 0).2.2 = false := by decide +kernel
theorem witness_IntegerDotAndRank : [((1 : Int), (2 : Int)), (3, 4)].Perm [(3, 4), (1, 2)] ∧ [(1 : Int), 2].length = [(3 : Int), 4].length :=
  ⟨List.Perm.swap .., rfl⟩
theorem test_idot_clamps : idot (2 ^ 31 - 1) [1] [1] true = (2 ^ 31 - 1, [.accSat]) ∧ idot (-2 ^ 31) [1] [-1] true = (-2 ^ 31, [.accSat]) := by decide +kernel
theorem test_rank : rankSort 0 [(5, 0), (0xFFFF, 1), (5, 2)] = [(5, 0), (5, 2), (0xFFFF, 1)] := by decide +kernel
theorem witness_ExtremesIgnoreOrder : [0x80000000#32, 0#32].Perm [0#32, 0x80000000#32] ∧ f32 0#32 ≠ .nan ∧ f32 0x7FC00000#32 = .nan :=
  ⟨List.Perm.swap .., by decide +kernel, by decide +kernel⟩
theorem test_extremes : fExtreme false [0x80000000, 0x7FC00000, 0] = (0#32, []) ∧ fExtreme true [0, 0x80000000] = (0x80000000#32, []) := by decide +kernel
theorem witness_TilesAndParity : (255 : Nat) < 256 ∧ (31 : Nat) < 32 := by decide +kernel

/-! ### Time bases, servos, PTP -/

/-- Registers with values. -/
def regs (l : List (Nat × Word)) (s : State) : State := l.foldl (fun s e => s.setReg e.1 e.2) s

/-- A PTP message of a type, version 2, two-step, sequence 0. -/
def ptpMsg (ty : Nat) : List Byte := [BitVec.ofNat 8 ty, 2, 0, 44, 0, 0, 2, 0] ++ List.replicate 36 0

/-- Time base 3 with a due set and a due servo step. -/
def tbBusy : State := up.putTb 3 { tb0 with due := [(0, .servoStep 5), (0, .set 9)] }

theorem witness_TimeBasesComplete : (3 : Nat) < 4 ∧ 0 ≤ tbBusy.now ∧ tbBusy.barrier = none
    ∧ (tbBusy.tb 3).due = [(0, .servoStep 5), (0, .set 9)] ∧ ((after (.timeBaseUpdate 3) tbBusy).tb 3).t = 9 := by decide +kernel
theorem witness_TimeBasesComplete_servo : ((up.putTb 0 { tb0 with t := 100, due := [(0, .rate 7), (0, .servoStep (-30))] }).tb 0).due
      = [(0, .rate 7), (0, .servoStep (-30))]
    ∧ ((after (.timeBaseUpdate 0) (up.putTb 0 { tb0 with t := 100, due := [(0, .rate 7), (0, .servoStep (-30))] })).tb 0).t = 70 := by
  decide +kernel
theorem test_tb_set_waits : ((after (.tbSet 1) { up with seq := { up.seq with count0 := 17 } }).tb 1).due.map (·.1) = [31] := by decide +kernel
theorem test_manadj_of_enabled_servo : ((after (.manadjWrite 2 5) (regs [(aTb 2 0, 0x80000000)] up)).tb 2).due = [] := by decide +kernel

/-- G1 load staged and due. -/
def g1Due : State := regs [(aTim 0x30004, 5), (aTim 0x30008, 1)] { up with tim := { up.tim with g1Load := 1 } }

theorem witness_TimePinsComplete : g1Due.tim.g1Load = 1 ∧ (after .g1Load g1Due).tim.g1 = (5 + 2 ^ 32) * 2 ^ 24
    ∧ (3 : Nat) < 4 ∧ (255 : Nat) < 256 ∧ true ≠ up.flag (aTim 0x20000) 28 ∧ up.flag (aTim 0x20008) 30 = false ∧ up.tim.ppsTau = none
    ∧ up.tim.refEdges < 9999 := by decide +kernel
theorem witness_TimePinsComplete_outputs : (regs [(aTim 0x20000, 0x80000000), (aTim 0x20020, 0x80000000)] up).flag (aTim 0x20000) 31 = true
    ∧ (regs [(aTim 0x20000, 0x80000000), (aTim 0x20020, 0x80000000)] up).flag (aTim 0x20020) 31 = true ∧ up.sys.boot = .ready
    ∧ (after .ppsOutPulse (regs [(aTim 0x20000, 0x80000000)] up)).tim.ppsOut = true
    ∧ (after .ref10mOutEdge (regs [(aTim 0x20020, 0x80000000)] up)).tim.refOut = true := by decide +kernel
theorem test_tim_snap : (after .timSnap { up with tim := { up.tim with g1 := 7 * 2 ^ 24 } }).reg (aTim 0x140) = 7 := by decide +kernel

/-- The worked example of a PPS sample: time base A is locked to PPS with i_acc = −1,200, and reads 1,000 s + 3 ns. -/
def ppsExample : State :=
  (regs [(aTb 0 0, 0x90000000), (aTim 0x20004, 131072), (aTim 0x2000C, 80), (aTb 0 0x3C, 0xFFFFFB50), (aTb 0 0x40, 0x80000000)] up).putTb 0
    { tb0 with t := 1000000000003 * 2 ^ 48, good := 9 }

theorem test_pps_example : (after (.ppsInEdge true 0 0) ppsExample).reg (aTb 0 0x3C) = BitVec.ofInt 32 (-1266)
    ∧ ((after (.ppsInEdge true 0 0) ppsExample).tb 0).due.map (·.2) = [.rate (-1926)]
    ∧ ((after (.ppsInEdge true 0 0) ppsExample).tb 0).off.toNat = 98304
    ∧ ((after (.ppsInEdge true 0 0) ppsExample).tb 0).good = 0 ∧ (after (.ppsInEdge true 0 0) ppsExample).flag (aTb 0 0x40) 31 = true := by
  decide +kernel

/-- Servo 1 takes PTP from port 95, domain 0. -/
def ptpUp : State := regs [(aTb 1 0, 0xB5F00000)] up

theorem witness_ServosComplete : ptpUp.flag (aTb 1 0) 31 = true ∧ ptpUp.field (aTb 1 0) 30 28 ≠ 0
    ∧ ptpUp.ptpOn 1 95 (ptpMsg 0) = true ∧ ptpType (ptpMsg 0) = 0 ∧ (ptpUp.tb 1).source = none ∧ ptpTwoStep (ptpMsg 0) = true
    ∧ ptpUp.tbOf 1 0 = some 0 ∧ ((after (.ptpSync 95 0 0 (ptpMsg 0)) ptpUp).tb 1).sync = some ⟨0, 0, 0, 0⟩ := by decide +kernel
theorem witness_ServosComplete_followUp : (after (.ptpSync 95 0 0 (ptpMsg 0)) ptpUp).ptpOn 1 95 (ptpMsg 8) = true
    ∧ ((after (.ptpSync 95 0 0 (ptpMsg 0)) ptpUp).tb 1).source = some (ptpSource (ptpMsg 8))
    ∧ ((after (.ptpSync 95 0 0 (ptpMsg 0)) ptpUp).tb 1).sync = some ⟨ptpSeq (ptpMsg 8), 0, 0, 0⟩
    ∧ ((after (.ptpFollowUp 95 (ptpMsg 8)) (after (.ptpSync 95 0 0 (ptpMsg 0)) ptpUp)).tb 1).sync = none := by decide +kernel
theorem witness_ServosComplete_delay : ptpUp.srvOn 1 3 = true ∧ ptpUp.tbOf 1 0 = some 0 ∧ ptpType (ptpMsg 9) = 9
    ∧ ((after (.ptpDelayReq 1 0 0) ptpUp).tb 1).delayReq = some (ptpSeq (ptpMsg 9), 0)
    ∧ (after (.ptpDelayReq 1 0 0) ptpUp).ptpOn 1 95 (ptpMsg 9) = true := by decide +kernel

/-- A PTP frame over Ethernet. -/
def ptpFrame (ty : Nat) : List Byte := List.replicate 12 0 ++ [0x88, 0xF7] ++ ptpMsg ty

/-- Port 8 forwards to port 9, which is FRAMED. -/
def tcUp : State := regs [(aTim 0x40000, 0x80000000), (aTim (0x40100 + 32), 0x80000009), (aLan 0 0x9004, 0xA0000000)] up

theorem witness_TransparentClockComplete : tcUp.flag (aTim 0x40000) 31 = true ∧ tcUp.flag (aTim (0x40100 + 4 * 8)) 31 = true
    ∧ ptpOffset (ptpFrame 0) = some (14, false) ∧ fieldLE (ptpFrame 0) 14 1 % 16 ≠ 2 ∧ (ptpFrame 0).length ≤ 252
    ∧ tcUp.field (aTim (0x40100 + 4 * 8)) 6 0 = 9 ∧ (mapGetD tcUp.tim.fwd 9 []).length < 16 ∧ 5 ≤ tcUp.pselStage 9
    ∧ tcUp.pselTemplate 9 = false ∧ tcUp.tbOf (tcUp.field (aTim 0x40000) 30 29) 0 = some 0
    ∧ mapGetD (after (.tcPtpMessage 8 0 0 (ptpFrame 0)) tcUp).tim.fwd 9 [] = [⟨ptpFrame 0, 0⟩] := by decide +kernel
theorem test_residence : tcCorrect (ptpFrame 0) 14 false 20480000 = (((ptpFrame 0).set 26 1).set 27 0x38).set 28 0x80 := by decide +kernel

/-! ### Wyile -/

/-- Link 3 of die 1 (package link 19), one lane of LN16, peer package 2 link 4, L = 100, B = 200; its lane is FRAMED. -/
def link19 : State := regs [(aLink 19 0, 0x80040002), (aLink 19 4, 200 * 65536 + 100), (aLane 16 4, 0xA0000000)] up

theorem witness_WyileFramesComplete : link19.linkEn (linkNo 1 3) = true ∧ 0 < link19.linkLanes (linkNo 1 3)
    ∧ (link19.wlane 19 0).replay = none ∧ link19.linkUp 19 = false ∧ (link19.wlane 19 0).high = none ∧ (link19.wlane 19 0).asked = none := by
  decide +kernel

/-- A kept frame of number 5 that the peer asks for, and frame 4 missing from the peer. -/
def replay19 : State := link19.putWlane 19 0 { wylLane0 with kept := [⟨5, 0, []⟩], replay := some 5, high := some 9, asked := some 7 }

theorem witness_WyileFramesComplete_replay : (replay19.wlane 19 0).replay = some 5
    ∧ (replay19.wlane 19 0).kept.find? (fun g => decide (g.num = 5)) = some ⟨5, 0, []⟩ ∧ (replay19.wlane 19 0).missing = []
    ∧ (replay19.wlane 19 0).high = some 9 ∧ (replay19.wlane 19 0).asked = some 7
    ∧ ((after (.wyileFrameReceive 1 3 0 [] false) replay19).wlane 19 0).nak = some 10
    ∧ ((after (.nakRetry 1 3 0) replay19).wlane 19 0).nak = some 7 := by decide +kernel

/-- The empty byte string passes its own check: its CRC is 0. -/
theorem witness_WyileFramesComplete_good : crc32c (2 ^ 32 - 1) (([] : List Byte).take 164) = BitVec.ofNat 32 (fieldLE [] 164 4)
    ∧ ((after (.wyileFrameReceive 1 3 0 [] true) link19).wlane 19 0).high = some 0 := by decide +kernel
theorem test_crc32c : crc32c (2 ^ 32 - 1) [0x31, 0x32, 0x33, 0x34, 0x35, 0x36, 0x37, 0x38, 0x39] = 0xE3069283#32 := by decide +kernel

/-- The peer of link 19 has told its values. -/
def trained19 : State := link19.putWlink 19 { wylLink0 with peer := some ⟨2, 4, 100, 200, 0, 0, 0⟩ }

theorem witness_WyileTrainingComplete : trained19.linkUp (linkNo 1 3) = false ∧ trained19.linkEn 19 = true
    ∧ (∀ x, x < trained19.linkLanes 19 → 5 ≤ trained19.field (aLane (trained19.linkLsel 19 x) 4) 31 29)
    ∧ trained19.field (aLink 19 0) 11 0 = 2 ∧ trained19.field (aLink 19 0) 20 16 = 4 ∧ trained19.linkL 19 = 100 ∧ trained19.linkB 19 = 200
    ∧ (39 + 1) / 2 + trained19.linkP 19 + 6 ≤ trained19.linkL 19 ∧ 2 * 20 + 2 * trained19.linkP 19 ≤ trained19.linkB 19
    ∧ (after (.wyileTrainingDone 1 3 [38, 39]) trained19).linkUp 19 = true
    ∧ (link19.wlink 19).peer = none ∧ (after (.wyileTrainingDone 1 3 [38]) link19).flag (aLink 19 8) 30 = true := by decide +kernel

/-- Link 19 is trained and exchanges time base 0; a request and an answer wait. -/
def time19 : State := (regs [(aLink 19 8, 0x80000000), (aLink 19 0x1C, 0x80000000)] link19).putWlink 19
  { wylLink0 with inbox := [⟨4, 0, 0, List.replicate 32 0⟩, ⟨5, 0, 0, List.replicate 32 0⟩] }

theorem witness_WyileTrainingComplete_time : time19.flag (aLink 19 0x1C) 31 = true ∧ time19.linkUp 19 = true
    ∧ ((time19.wlink 19).queue.filter (fun q => decide (q.mtype = 4))).length < 64
    ∧ (time19.wlink 19).inbox.find? (fun x => decide (x.mtype = 4)) = some ⟨4, 0, 0, List.replicate 32 0⟩
    ∧ (time19.wlink 19).inbox.find? (fun x => decide (x.mtype = 5)) = some ⟨5, 0, 0, List.replicate 32 0⟩
    ∧ (time19.tbOf (fieldLE (List.replicate 32 0) 0 1 % 4) 0).isSome
    ∧ ((after (.timeReq 1 3 0 0 0 0) time19).wlink 19).queue.length = 1 := by decide +kernel

/-! ### Admission, triggers, records -/

/-- A program record: program 0 of stream 5, every 16 cycles at phase 0, no side streams. -/
def progRec : ImgRec := ⟨0x02, 0, 0xFF, 0xFFFF, 0xFF, 0xFF, [0, 0, 5, 0, 16, 0, 0, 0, 0, 0, 0, 0, 0, 0, 0, 0]⟩

/-- An image of one program and a partition that runs it on region 0. -/
def img : Loaded := ⟨0, [], 0, false, 0, false, false, 0, 1, 1, [1], 1, [0], [progRec]⟩
def part1 : Partition := { part0 with regions := 1, owner := some .pcieA, state := .running, allocSize := 4, image := some img }

/-- Region 0 is in schedule mode, and stream 5 is mapped on die 0: one field of 4 bytes, entry period 16. -/
def running : State := regs [(aLat 0 0, 0x40000000), (aSmap 0 5 0, 0x80000000), (aSmap 0 5 1, 15 * 65536), (aField 0 0, 0x30)] { up with parts := [(1, part1)] }

def ev0 : AdmEvent := ⟨List.replicate 32 1, 0, 0⟩

/-- One event forms; another waits. -/
def admUp : State := running.putStrm 0 5 ⟨[ev0], [ev0], false, none⟩

theorem witness_AdmissionComplete_closed : ((regs [] up).putStrm 1 16383 ⟨[ev0], [], false, none⟩).streamOpen 1 16383 = false := by decide +kernel
theorem witness_AdmissionComplete_refused : (running.putStrm 0 5 ⟨[ev0], [ev0], false, none⟩).streamOpen 0 5 = true
    ∧ admUp.admDepth 0 5 ≤ (admUp.strm 0 5).waiting.length ∧ ((after (.eventAssembly 0 5) admUp).strm 0 5).refused = true := by decide +kernel
theorem witness_AdmissionComplete : ((running.putStrm 0 5 ⟨[ev0], [], false, none⟩).strm 0 5).forming = [ev0]
    ∧ (running.putStrm 0 5 ⟨[ev0], [], false, none⟩).streamOpen 0 5 = true ∧ 0 < running.admDepth 0 5 ∧ (running.entryOf 5).isSome := by decide +kernel
theorem witness_AdmissionComplete_slot : admUp.streamOpen 0 5 = true ∧ admUp.cycle 0 % (admUp.entryPeriod 0 5).1 = (admUp.entryPeriod 0 5).2
    ∧ (admUp.strm 0 5).slotAt ≠ some admUp.now ∧ admUp.groupOf 5 = none ∧ (admUp.entryOf 5).isSome ∧ (admUp.eligible 0 5).isSome
    ∧ admUp.capRefuses 0 5 = false ∧ ((after (.entrySlot 0 5) admUp).strm 0 5).waiting = [] := by decide +kernel

/-- A condition of group 0: the rising edges of TRIG_IN 2. -/
def pinCond : Condition := ⟨[3, 1, 8, 2, 0, 0, 0, 0, 1, 0, 0, 0, 0, 0, 0, 0], 0, 1, 0, [], none⟩
/-- The condition is armed, and TRIG_OUT 5 has a pulse. -/
def trigUp : State := { up with cap := { up.cap with conds := [(3, pinCond)], pulses := [⟨5, 0, 4⟩] } }

theorem witness_TriggersComplete : (List.range 512).any isCapture = true ∧ trigUp.flag (aCap 0 0x120) 30 = false
    ∧ (pinCond ∈ trigUp.cap.conds.map (·.2)) ∧ ceSource pinCond.entry = 1 ∧ ceArg pinCond.entry = 2 ∧ ceFlag pinCond.entry 3 = true
    ∧ mapGet trigUp.cap.lastEdge 2 = none ∧ (mapGet (after (.pinEdge 2 true 9 0) trigUp).cap.lastEdge 2).isSome
    ∧ (after (.pinEdge 2 true 9 0) (after (.pinEdge 2 true 9 0) trigUp)).field (aCap 0 0x128) 31 16 = 1 := by decide +kernel
theorem witness_TriggersComplete_decision : ∃ ep, ep < 512 ∧ isCapture ep = true ∧ (after (.latticeOccurrence 0 ep)
    { up with lat := { up.lat with inbox := [(ep, [⟨⟨⟨0, 0, 0⟩, 0, false, 0, 0⟩, 0, 0, 0⟩])] } }).lat.inbox.all (fun e => e.2.isEmpty) = true :=
  ⟨(List.range 512).find? isCapture |>.getD 0, by decide +kernel, by decide +kernel, by decide +kernel⟩

/-- Coincidence table 2: input 0 is condition 3, window 4 cycles; an input event stands in it. -/
def coinUp : State := { up with
  seq := { up.seq with count0 := 5000 },
  cap := { up.cap with tables := [(2, ⟨[2, 1, 1, 0, 1, 0, 4, 0, 3] ++ List.replicate 23 0, none, 0, [⟨0, 128, .nowhere⟩], none⟩)] } }

theorem witness_TriggersComplete_window : ∃ x w, mapGet coinUp.cap.tables 2 = some x ∧ x.window = some w
    ∧ max w.2.1 (w.1 + 128 * (4095 + 8)) / 128 < coinUp.cycle 0 := ⟨_, _, rfl, rfl, by decide +kernel⟩
theorem witness_TriggersComplete_message : ((up.putWlink 0 { wylLink0 with inbox := [⟨1, 0, 0, List.replicate 32 0⟩] }).wlink (linkNo 0 0)).inbox.find?
      (fun x => decide (x.mtype = 1)) = some ⟨1, 0, 0, List.replicate 32 0⟩ ∧ up.cond (fieldLE (List.replicate 32 0) 0 1) = none := by decide +kernel
theorem witness_TriggersComplete_pins : trigUp.trigLevel 5 = true ∧ trigUp.pinUsed 3 = false ∧ trigUp.pinUsed 2 = true
    ∧ (List.replicate 256 0).length = 256 ∧ (after .ppsCalStart up).flag (aTim 0x20008) 30 = true
    ∧ (after (.tdcCalStart 0 3) trigUp).flag (aCap 0 (0x100 + 0x10 * 3)) 30 = true := by decide +kernel
theorem test_cal_code : calCode (List.replicate 256 8192) 1 = min 127 ((256 * 8192 + 128 * 8192) / 2 ^ 21) := by decide +kernel

/-- Group 0 of stream 5, one frame before and one after the trigger, its host ring of 4 slots of 1024 bytes. -/
def grpBlk : List Byte := [0, 1, 0, 0, 1, 0, 0, 0, 5, 0] ++ List.replicate 34 0 ++ [0, 0, 0, 0, 1, 0, 0, 0] ++ List.replicate 20 0
  ++ [0, 4, 0, 0, 4, 0, 0, 0] ++ List.replicate 48 0
def rec0 : Record := ⟨0, 0, [⟨3, 0, 0, none, 0, [], 0⟩]⟩
def sealed0 : Sealed := ⟨List.replicate 512 0, 0, false, false, []⟩
def grpUp : Group := { group0 with armed := true, blk := grpBlk, e := 16, frameLen := 64, ringFrames := 4, nextFrame := 1,
                                   frames := [⟨0, 0, 0, 0, 0, 0⟩], unassigned := [(10, ⟨3, 0, 0, none, 0, [], 0⟩)], records := [rec0], ready := [sealed0] }
def capUp : State := { running with seq := { running.seq with count0 := 2000 }, now := 2000 }.putGrp 0 grpUp

theorem witness_RecordsComplete : (capUp.grp 0).unassigned.find? (fun w => (capUp.assignFrame (capUp.grp 0) w.1).isSome)
      = some (10, ⟨3, 0, 0, none, 0, [], 0⟩)
    ∧ (capUp.grp 0).records.find? (capUp.sealable (capUp.grp 0)) = some rec0 ∧ (capUp.grp 0).streaming = false
    ∧ (capUp.grp 0).ready = [sealed0] ∧ sealed0.toHost = false ∧ sealed0.toDeep = false ∧ capUp.hostSlotFree 0 = true
    ∧ (capUp.part (capUp.grp 0).part).owner.isSome
    ∧ ((after (.recordSeal 0) capUp).grp 0).ready.length = 2
    ∧ (after (.recordDelivery 0) (capUp.putGrp 0 { grpUp with ready := [{ sealed0 with toHost := true }] })).reg (aGrp 0 0x10) = 1 := by decide +kernel
theorem witness_RecordsComplete_nowhere : (capUp.putGrp 0 { grpUp with frames := [] }).assignFrame { grpUp with frames := [] } 10 = some none := by decide +kernel
theorem witness_RecordsComplete_stream : ∃ b g', (capUp.putGrp 0 { grpUp with streaming := true }).nextItem { grpUp with streaming := true } = some (b, g')
    ∧ b.length ≠ 96 ∧ grpUp.slotBuf = [] ∧ g'.copyNext = 1 := ⟨_, _, rfl, by decide +kernel⟩

/-- The worked example of a calorimeter event: the decision of cycle 1,000,966 with TOFF 200 cycles and E = 64 seals in cycle 1,002,830. -/
def calGrp : Group := { group0 with blk := List.replicate 48 0 ++ [6, 0, 0, 0, 0, 0, 0, 0, 0, 0x64, 0, 0], e := 64, frames := [⟨4013, 0, 0, 0, 0, 0⟩] }
def calAt (c : Nat) : State := { up with now := c, seq := { up.seq with count0 := c } }
theorem test_seal_example : (calAt 1002830).sealable calGrp ⟨256524, 4008, [⟨10, 128123648, 0x2000, none, 0, [], 0⟩]⟩ = true
    ∧ (calAt 1002829).sealable calGrp ⟨256524, 4008, [⟨10, 128123648, 0x2000, none, 0, [], 0⟩]⟩ = false := by decide +kernel

/-! ### The lattice, the fabric, the gauntlet -/

/-- Instance 1 of program 0 on partition 1, with ingest cycle 0. -/
def inst1 : Inst :=
  { id := 1, part := 1, prog := 0, stream := 5, seq := 0, ingest := 0, ops0 := 3, ops1 := 0, late := false,
    lateCount := 0, flags := 0, check := 0, sides := [], raws := [], tok0 := 0, tok1 := 0, results := 1, released := none, sigs := [],
    outputs := [], old := false, lastDue := 0, behind := false, rel0 := false, rel1 := false, moved := [] }
/-- A data token of that instance. -/
def tok1 : Held := ⟨⟨7, payloadPar 7, sideOf 0 true 0 0 0 0⟩, 1, false, 0, 1⟩

/-- Partition 1 runs on region 0 with instance 1. -/
def lat1 : State := { running with seq := { running.seq with insts := [inst1], nextId := 2 } }

/-- Unit 5 of region 0 steers Q0 to port 0; a firing is due and its token stands. -/
def fire1 : State := (regs [(aUnit 5 0, 0x20000000), (aCtxA 5 0, 0x410)] lat1).putUnit 5 { unit0 with due := [⟨0, 1⟩], q0 := [tok1] }

theorem witness_FiringComplete : fire1.regionLive (uRegion 5) = true ∧ fire1.uKind 5 = 1 ∧ fire1.uGated 5 = false ∧ fire1.nextDue 5 = some ⟨0, 1⟩
    ∧ (fire1.unit 5).switching = false ∧ fire1.intervalOver 5 (fire1.unit 5) = true ∧ fire1.plan 5 = some ⟨[(0, 1)], 1, 0⟩
    ∧ inputsReady (fire1.unit 5) fire1.now ⟨[(0, 1)], 1, 0⟩ = true ∧ portReady (fire1.unit 5) 0 1 = true
    ∧ portReady (fire1.unit 5) 1 0 = true
    ∧ seqConflict (([(0, 1)].foldl (fun s r => s.headCheck 5 r.1) fire1).unit 5) (caSeqchk (fire1.ctxA 5 0)) ⟨[(0, 1)], 1, 0⟩ = none
    ∧ ((after (.firing 5) fire1).unit 5).pipe.length = 1 ∧ ((after (.firing 5) fire1).unit 5).q0 = [] := by decide +kernel

/-- Unit 6 owes its switch cycle; unit 7 fills its standby set; unit 8 has a firing in its pipeline, a burst and an evaluation. -/
def unit8 : UnitState := { unit0 with pipe := [⟨0, [tok1], []⟩], burst0 := [], burst1 := [tok1], waiting := [⟨0, 0, 1, 0, 0, 0⟩] }
def units1 : State := (((regs [(aUnit 6 0, 0x21000000), (aCtxA 6 0, 0x4000)] lat1).putUnit 6 { unit0 with switching := true, standbyOk := true, setB := [9] }).putUnit 7
  { unit0 with fillDone := some 0 }).putUnit 8 unit8

theorem witness_UnitEventsComplete : (units1.unit 6).switching = true ∧ units1.regionLive (uRegion 6) = true
    ∧ units1.intervalOver 6 (units1.unit 6) = true ∧ units1.standbyFull 6 (units1.unit 6) = true
    ∧ units1.uNctx 6 = 1 ∧ ((after (.foldSwitch 6) units1).unit 6).setA = [9] ∧ ((after (.foldSwitch 6) units1).unit 6).actx = 1
    ∧ (units1.unit 7).fillDone = some 0 ∧ (units1.unit 7).standbyOk = false
    ∧ (units1.unit 8).pipe = [⟨0, [tok1], []⟩] ∧ units1.uLoop 8 = false ∧ portReady (units1.unit 8) 0 1 = true
    ∧ portReady (units1.unit 8) 1 0 = true ∧ (units1.unit 8).burst1 = tok1 :: [] ∧ (units1.unit 8).out1.length < 4
    ∧ units1.treeBusy (units1.unit 8) = false ∧ ((after (.treeEvaluation 8) units1).unit 8).evalStart = some 0 := by decide +kernel
theorem witness_UnitEventsComplete_fill : ({ units1 with seq := State.reset.seq } : State).streamPending 7 (({ units1 with seq := State.reset.seq } : State).nextCtx 7 0) = false
    ∧ (({ units1 with seq := State.reset.seq } : State).unit 7).fillDone = some 0 := ⟨by simp [State.streamPending, State.reset], by decide +kernel⟩
theorem witness_UnitEventsComplete_burst0 : (lat1.putUnit 9 { unit0 with burst0 := [tok1] }).regionLive (uRegion 9) = true
    ∧ ((after (.burstTokenPlace 9 0) (lat1.putUnit 9 { unit0 with burst0 := [tok1] })).unit 9).out0 = [tok1] := by decide +kernel

/-- A final accumulation of cluster 2 whose entries bypass; another one that has waited 64 cycles for its scale. -/
def final1 : Final := { unit := 64, ctx := 0, inst := 1, fp := false, acc := [], side := tok1.tok.side, taint := 0, ready := 0, outs := 1, entries := [], sats := [] }
theorem witness_UnitEventsComplete_rescale : (lat1.putCluster 2 { cluster0 with stage := [final1] }).regionLive 0 = true
    ∧ (((lat1.putCluster 2 { cluster0 with stage := [final1] }).finalEntries 2 final1).any (fun e => isDyn e.2)) = false
    ∧ ((after (.rescaleStage 0 2) (lat1.putCluster 2 { cluster0 with stage := [final1] })).cluster 2).stage = []
    ∧ (({ lat1 with now := 64 }.putCluster 2 { cluster0 with stage := [final1], waitSince := some 0 }).cluster 2).waitSince = some 0
    ∧ ((after (.scaleWaitTimeout 0 2) ({ lat1 with now := 64 }.putCluster 2 { cluster0 with stage := [final1], waitSince := some 0 })).cluster 2).stage
      = [] := by decide +kernel

/-- In frame cycle 0 cluster 0 moves unit 0's port 0 to queue 0 of unit 1, and reads SRAM row 3 into queue 1 of unit 1. -/
def switch1 : State := (regs [(aUnit 1 0, 0x20000000), (aSwSlot 0 0, BitVec.ofNat 32 (2 ^ 31 + 4 * 2 ^ 18)), (aSwSlot 0 1, BitVec.ofNat 32 (2 ^ 31 + 40 * 2 ^ 25 + 5 * 2 ^ 18 + 3 * 16))]
  lat1).putUnit 0 { unit0 with out0 := [tok1] }

theorem witness_FabricComplete_switch : switch1.switchHead 0 0 = some tok1
    ∧ switch1.switchEntries 0 0 0 = [(0, 2 ^ 31 + 4 * 2 ^ 18)] ∧ switch1.switchFree 64 0 0 4 = true
    ∧ switch1.waitAllows (switchKey 0 0) (switchDsts (switch1.switchEntries 0 0 0)) = true
    ∧ ((after (.switchSlot 0 0 0) switch1).unit 1).q0.length = 1
    ∧ switch1.switchEntries 0 0 40 = [(1, 2 ^ 31 + 40 * 2 ^ 25 + 5 * 2 ^ 18 + 3 * 16)] ∧ switch1.switchFree 64 0 0 5 = true
    ∧ switch1.waitAllows (2 ^ 24 + 1) (switchDsts [(1, 2 ^ 31 + 40 * 2 ^ 25 + 5 * 2 ^ 18 + 3 * 16)]) = true
    ∧ (switch1.sramServes 0 0 (1, 2 ^ 31 + 40 * 2 ^ 25 + 5 * 2 ^ 18 + 3 * 16)).isSome
    ∧ ((after (.switchSlot 0 0 40) switch1).unit 1).q1.length = 1 := by decide +kernel

/-- A switch transfer arrives in the next cycle, a read of cluster SRAM in the second (R160). -/
theorem test_sram_read_takes_two_cycles : ((after (.switchSlot 0 0 0) switch1).unit 1).q0.map Held.since = [1]
    ∧ ((after (.switchSlot 0 0 40) switch1).unit 1).q1.map Held.since = [2] := by decide +kernel

/-- In frame cycle 0 region 0 moves endpoint 0x170's token to the north port of cluster 0. -/
def fabric1 : State :=
  { regs [(aDfSlot 0 0 2, BitVec.ofNat 32 (2 ^ 31 + 0x170 * 2 ^ 22))] lat1 with
    lat := { lat1.lat with fabIn := [(0x170, [⟨tok1, 0, 0, 0⟩])], xOut := [(9, [⟨tok1, 0, 0, 0⟩])], xIn := [(0x105, [⟨tok1, 0, 0, 0⟩])],
                           bridge := [(31, [⟨tok1, 0, 0, 8⟩])] } }

theorem witness_FabricComplete : fabric1.regionLive 0 = true ∧ fabric1.dfSlots 0 0 0x170 false = [⟨2, 0, 0, 0⟩]
    ∧ fabric1.fabFree 0 ⟨2, 0, 0, 0⟩ = true ∧ fabric1.fabHead 0 0x170 false = some (⟨tok1, 0, 0, 0⟩, [])
    ∧ fabric1.fabDue 0 0x170 false tok1 = some (inst1, ⟨0, 0, [0]⟩) ∧ fabric1.fabDue 0 0x170 false { tok1 with inst := 0 } = some (inst1, ⟨0, 0, [0]⟩)
    ∧ (mapGetD (after (.fabricSlot 0 0 0x170) fabric1).lat.xIn 0 []).length = 1 := by decide +kernel
theorem witness_FabricComplete_paths : fabric1.instLive 1 = true ∧ fabric1.dead 0 = false ∧ fabric1.islandFree 0 0x105 = true ∧ fabric1.lowerPort 0 0x105 = false
    ∧ mapGetD fabric1.lat.xOut 9 [] = [⟨tok1, 0, 0, 0⟩] ∧ mapGetD fabric1.lat.xIn 0x105 [] = [⟨tok1, 0, 0, 0⟩]
    ∧ mapGetD fabric1.lat.bridge 31 [] = [⟨tok1, 0, 0, 8⟩]
    ∧ (mapGetD (after (.bridgeRelease 0 31 2) fabric1).lat.fabIn (512 + 8) []).length = 1 := by decide +kernel

/-- Region 0 reads unit 1 of its allocation by lane 31 of controller 1 in memory cycle 0, and writes unit 2 in cycle 128. -/
def mem1 : State :=
  { lat1 with
    seq := { lat1.seq with count0 := 128 }
    lat := { lat1.lat with memSlots := [(0, [⟨0, 1, 31, false, 1, 0⟩, ⟨128, 1, 31, true, 2, BitVec.ofNat 32 128⟩])],
                           inbox := [(0x16F, [⟨tok1, 0, 0, 0⟩])] } }

theorem witness_MemorySlotsComplete : (mem1.part inst1.part).image = some img ∧ mem1.memAddr inst1 img 1 = some 32
    ∧ mem1.memDue 0 1 31 false (mem1.cycle 0 - 128) = some (0, 0, ⟨0, 1, 31, false, 1, 0⟩, inst1, 0)
    ∧ mem1.usedNow (useKey 10 (memEp 1 31)) = false
    ∧ (mem1.memDues 0 1 31 true (mem1.cycle 0)).find? (fun e => decide (e.2.2.1.cycle = mem1.cycle 0 % 4096) && mem1.memWaits 0 1 31 e.2.2.2.1)
      = some (0, 1, ⟨128, 1, 31, true, 2, BitVec.ofNat 32 128⟩, inst1, 128)
    ∧ mem1.memAddr inst1 img 2 = some 64 ∧ mapGetD mem1.lat.inbox (memEp 1 31) [] = [⟨tok1, 0, 0, 0⟩]
    ∧ (after (.memoryWriteSlot 0 1 31) mem1).stackRead 1 64 2 = [7, 0]
    ∧ (mapGetD (after (.memoryReadRelease 0 1 31) mem1).lat.fabIn 0x16F []).length = 1 := by decide +kernel

/-- Layer slot 3 of die 0 on engine 2: an accepted trip whose window starts, one that runs, one that the window closes. -/
def work1 : LayerWork :=
  { inst := 1, inCount := 0, accCount := 0, seen := [], finals := 0, taken := 0, inputs := [], fetched := [], narrow := 0,
    window := some 0, pass := 0, accepted := true, runEnds := none, wide := none, taint := 0, held := [], passed := none }
def layer1 : Layer :=
  { part := 1, cfg := 0, win := 0, engine := 2, src := 0, w := 8, k := 1, v := 1, cIn := 1, cOut := 1, eOut0 := 0, eOut1 := 0, sbBase := 0, sbDepth := 1,
    wtBase := 0, merge := 5, mqueue := 0, units := [], lim0 := [], lim1 := [], n := 0, nLast := none, trip := 9, overs := 4, work := [work1] }
def gau1 (w : LayerWork) : State := { lat1 with now := 8, gau := ⟨[(3, { layer1 with work := [w] })], [], []⟩ }

theorem witness_GauntletComplete : (gau1 work1).engineBusy 3 layer1 = false ∧ partLive ((gau1 work1).part 1) = true
    ∧ (after (.gauntletRun 0 3) (gau1 work1)).flag (aEng 0 2) 31 = true
    ∧ (mapGet (after (.gauntletRunEnd 0 2) (gau1 { work1 with runEnds := some 0 })).gau.layers 3).any (fun l => l.work.any (·.wide.isSome)) = true
    ∧ ((after (.mergeRelease 0 3) (gau1 { work1 with accepted := false, held := [tok1] })).unit 5).q0.length = 1 := by decide +kernel
theorem test_clr_trip : (mapGet (after (.clrTrip 0) (gau1 work1)).gau.layers 3).map (fun l => (l.trip.toNat, l.overs.toNat)) = some (0, 4)
    ∧ (mapGet (after (.clrOver 0) (gau1 work1)).gau.layers 3).map (fun l => (l.trip.toNat, l.overs.toNat)) = some (9, 0)
    ∧ (mapGet (after (.clrTrip 1) (gau1 work1)).gau.layers 3).map (fun l => (l.trip.toNat, l.overs.toNat)) = some (9, 4) := by decide +kernel

/-- The limit of die 0 is 100 cycles and instance 1 should have released long ago. -/
def hang1 : State := regs [(aSeq 0 0x14, 100)] { lat1 with seq := { lat1.seq with count0 := 5000 } }
theorem witness_GauntletComplete_hang : hang1.hangDue 1 img = some (inst1, 0) ∧ (hang1.reg (aSeq 0 0x14)).toNat ≠ 0
    ∧ partOnDie (hang1.part 1) 0 = true ∧ partLive (hang1.part 1) = true ∧ 0 + (hang1.reg (aSeq 0 0x14)).toNat < hang1.cycle 0
    ∧ hang1.flag (aFlt 0 0) 30 = false ∧ ((after (.scheduleHang 0 1) hang1).part 1).hung = true := by decide +kernel

/-- Region 0 in lattice mode: unit 0 alone is a column, and holds the one token of its accumulation. -/
def col1 : State := (regs [(aLat 0 0, 0x80000000), (aUnit 0 0, 0), (aCtxB 0 0, 0x400000)] lat1).putUnit 0 { unit0 with q0 := [tok1] }
theorem witness_FiringComplete_column : col1.regionLive 0 = true ∧ col1.regionMode 0 = 2 ∧ col1.uKind 0 = 0 ∧ cbFinal (col1.ctxB 0 0) = true
    ∧ col1.column 0 = [0] ∧ col1.columnTokens 0 = 1
    ∧ ((col1.unit 0).q0.filter (fun h => decide (h.since + unitRow 0 ≤ col1.now + unitRow 0))).length = 1
    ∧ ((after (.firing 0) col1).unit 0).lastFire = some 0 ∧ ((after (.firing 0) col1).cluster 0).stage.length = 1 := by decide +kernel

/-- Regions 0 and 1 hold the logical regions 5 and 2. -/
def sync1 : State := regs [(aLat 0 0, 0x40000005), (aLat 1 0, 0x40000002)] lat1
theorem test_sync_cells_take_logical_region_order : (mapGetD ((sync1.syncPut 0 7 0 tok1.tok).syncPut 0 7 1 tok1.tok).lat.sync 0 []).map SyncOp.lregion = [2, 5]
    ∧ (mapGetD ((sync1.syncPut 0 7 0 tok1.tok).syncPut 0 6 1 tok1.tok).lat.sync 0 []).map SyncOp.cycle = [6, 7]
    ∧ (mapGetD ((sync1.syncPut 0 7 0 tok1.tok).syncPut 0 8 1 tok1.tok).lat.sync 0 []).map SyncOp.cycle = [7, 8]
    ∧ (mapGetD sync1.lat.sync 0 []).map SyncOp.lregion = [] := by decide +kernel
theorem test_region_has_2048_sync_cells : sync1.syncCells 0 = 16384 := by decide +kernel

/-! ### Partition events, the deep path -/

/-- Partition 1 waits to open at cycle 32; 2 pauses and has drained; 4 and 5 have a seed change that fills and one that has passed. -/
def chg (armed : Bool) (b : Option Nat) : ModeChange := ⟨2, 5, 1, 0, 1, [9], armed, b, 0, []⟩
def evParts : State :=
  { up with
    seq := { up.seq with count0 := 40 }
    parts := [(1, { part1 with state := .loaded, opensAt := some 32 }), (2, { part1 with regions := 2, state := .pausing }),
              (4, { part1 with regions := 4, change := some (chg false none), filling := true }),
              (5, { part1 with regions := 8, change := some (chg true (some 3)) })]
    flt := { up.flt with zeroFills := [(767, 1)], stack := [(767 * 2 ^ 26, 5)] } }

theorem witness_PartitionEventsComplete : img.openAt 32 ≤ evParts.cycle 0 ∧ ((after (.admissionOpen 1) evParts).part 1).state = .running
    ∧ evParts.drained 2 = true ∧ ((after (.pauseDrained 2) evParts).part 2).state = .paused
    ∧ evParts.nextSeq (evParts.streamDie 5) 5 ≤ 1 ∧ (chg false none).kind ≠ 0
    ∧ ((after (.modeChangeArm 4) evParts).part 4).filling = false
    ∧ evParts.modePassed 5 (chg true (some 3)) = true ∧ mapGet ((after (.modeChangeDone 5) evParts).part 5).seeds 0 = some 9
    ∧ evParts.flt.zeroFills.find? (fun z => decide (z.1 = 767)) = some (767, 1)
    ∧ (after (.zeroFillDone 767) evParts).flt.stack = [] := by decide +kernel
theorem witness_PartitionEventsComplete_scale : (chg false none).n = 1
    ∧ (({ up with parts := [(4, { part1 with staged := [⟨0, 0, 0, 0, true, []⟩] })] } : State).imageBytes 4 0).2.isSome := by decide +kernel

/-- A deep image of two sections on partition 1, its image staged with length 0; a record waits. -/
def deepImg : Loaded :=
  { img with kind := 1, nsect := 2, recs := [progRec, ⟨0x06, 0, 0xFF, 0xFFFF, 0xFF, 0xFF, 0 :: 1 :: List.replicate 22 0⟩,
                                              ⟨0x06, 0, 0xFF, 0xFFFF, 0xFF, 0xFF, 1 :: 0xFF :: List.replicate 22 0⟩] }
def deepRec : DeepRec := ⟨5, 0, 0, 64, 0, 0, 0⟩
def deep0 : Deep := { par := ⟨1, 1, 2, 1, 2, 1024, 2048⟩, stream := 5, e := 16, phi := 0, decl := 9, queue := [deepRec], nextSlot := 1,
                      pass := none, section_ := 0, swap := false, pfReady := false, passN := 0, wr := 0, refused := false }
def pass0 : DeepPass := ⟨[⟨deepRec, 1, 0, none⟩], 0, 0⟩
def deepUp (im : Loaded) (x : Deep) : State :=
  { up with parts := [(1, { part1 with image := some im, staged := [⟨0, 0, 0, 0, true, []⟩] })], deep := [(1, x)] }
/-- The same with section 0's successor prefetched. -/
def pfImg : Loaded := { deepImg with recs := [progRec, ⟨0x06, 0, 0xFF, 0xFFFF, 0xFF, 0xFF, 0 :: 1 :: 1 :: List.replicate 21 0⟩] }

theorem witness_DeepPathComplete : deepImg.kind = 1
    ∧ (∀ r ∈ partRegions ((deepUp deepImg deep0).part 1), (deepUp deepImg deep0).regionPower r = 0)
    ∧ min (min (((deepUp deepImg deep0).part 1).passRecords deep0.queue).length deep0.par.pmax) ((deepUp deepImg deep0).ringFree 1 deepImg deep0) = 1
    ∧ (mapGet (after (.passStart 1) (deepUp deepImg deep0)).deep 1).any (fun y => y.pass.isSome) = true := by decide +kernel
theorem witness_DeepPathComplete_section : partLive ((deepUp deepImg deep0).part 1) = true ∧ (deepUp deepImg deep0).sectionDone pass0 = true ∧ 1 < deepImg.nsect
    ∧ (mapGet (after (.sectionComplete 1) (deepUp deepImg { deep0 with pass := some pass0 })).deep 1).any (fun y => y.swap) = true
    ∧ (mapGet (after (.sectionComplete 1) (deepUp { deepImg with nsect := 1 } { deep0 with pass := some pass0 })).deep 1).any (fun y => y.pass.isNone)
      = true := by decide +kernel
theorem witness_DeepPathComplete_swap : deepImg.prefetchAt 0 = false ∧ deepImg.succ 0 = 1
    ∧ ((deepUp deepImg { deep0 with pass := some pass0, swap := true }).swapTo 1 deepImg 1 false).2 = true
    ∧ (mapGet (after (.swapComplete 1) (deepUp deepImg { deep0 with pass := some pass0, swap := true })).deep 1).any (fun y => decide (y.section_ = 1)) = true
    ∧ pfImg.prefetchAt 0 = true ∧ ((deepUp pfImg { deep0 with pass := some pass0 }).prefetch 1 pfImg 1 0).2 = true
    ∧ (mapGet (after (.prefetchComplete 1) (deepUp pfImg { deep0 with pass := some pass0 })).deep 1).any (fun y => y.pfReady) = true := by decide +kernel

/-- Die 1 may stretch up to step 4 and is at step 2. -/
def elas (t : Nat) : State := { regs [(aSeq 1 0x600, 0x80400000), (aPwr 1 0, BitVec.ofNat 32 (256 * t))] up with seq := { up.seq with steps := [(1, 2)] } }
theorem witness_DeepPathComplete_elastic : (elas 90).eligibleDie 1 = true ∧ (elas 90).flag (aSeq 1 0x600) 31 = true ∧ 90 ≤ (elas 90).field (aPwr 1 0) 15 8
    ∧ mapGetD (elas 90).seq.steps 1 0 < min 8 ((elas 90).field (aSeq 1 0x600) 23 20) ∧ (elas 84).field (aPwr 1 0) 15 8 < 85
    ∧ mapGetD (after (.elasticStep 1 true) (elas 90)).seq.steps 1 0 = 3 ∧ mapGetD (after (.elasticStep 1 false) (elas 84)).seq.steps 1 0 = 1 := by
  decide +kernel

/-! ### Host commands -/

/-- `up` with PCIe A a package port. -/
def pkgUp : State := regs [(aCtl 0x100, 0xC0000000)] up

/-- Partition 1 in a state, without stream 5's map entry. -/
def inState (st : PState) (f : Partition → Partition) : State :=
  regs [(aCtl 0x100, 0xC0000000), (aSmap 0 5 0, 0x80000000), (aSmap 0 5 1, 15 * 65536), (aField 0 0, 0x30)]
    { up with parts := [(1, f { part1 with state := st, allocSize := 8 })] }

theorem witness_QueriesComplete : up.admits (.identify (hdr .pcieA 64 0)) = true ∧ hostShort (hdr .pcieA 64 0) 64 = false
    ∧ up.admits (.query (hdr .pcieA 92 0) 0 0) = true ∧ (up.queryWords .pcieA 0 0).map (·.length) = some 23
    ∧ hostShort (hdr .pcieA 92 0) 92 = false ∧ hostShort (hdr .pcieA 91 0) 92 = true
    ∧ pkgUp.admits (.counterRead (hdr .pcieA 24 0) 1 1 1) = true ∧ pkgUp.counterReadCheck (hdr .pcieA 24 0) true 1 1 1 = none
    ∧ pkgUp.admits (.readSettings (hdr .pcieA 64 0) 255) = true := by decide +kernel
theorem witness_QueriesComplete_settings : hostShort (hdr .pcieA 4096 0) (pkgUp.readSettings 0).length = false
    ∧ pkgUp.admits (.readSettings (hdr .pcieA 4096 0) 0) = true := by decide +kernel

/-- Partition 3 gives region 9 to partition 0. -/
def still : State := { two with parts := two.parts.map (fun e => (e.1, { e.2 with state := .bound })) }
theorem still_disjoint : ∀ p, p < 16 → ∀ q, q < 16 → p ≠ q → (still.part p).regions &&& (still.part q).regions = 0 := by decide +kernel
theorem still_inv : Inv still := ⟨by decide +kernel, by decide +kernel, fun p q hp hq => still_disjoint p hp q hq, by decide +kernel⟩
theorem witness_BindingComplete : still.admits (.bind (hdr .pcieA 0 0) 0 0x8200 0 0) = true
    ∧ (still.dropHead .pcieA).bindCheck .pcieA 0 (maskList 16 (0x8200#16).toNat) 0 0 = none
    ∧ ((after (.bind (hdr .pcieA 0 0) 0 0x8200 0 0) still).part 0).regions = 0x8201
    ∧ ((after (.bind (hdr .pcieA 0 0) 0 0x8200 0 0) still).part 3).regions = 0 := by decide +kernel
theorem witness_BindingComplete_new : still.admits (.bind (hdr .pcieA 0 0) 15 0x10 767 1) = true
    ∧ (still.dropHead .pcieA).bindCheck .pcieA 15 (maskList 16 (0x10#16).toNat) 767 1 = none
    ∧ (still.dropHead .pcieA).bindCheck .pcieA 15 (maskList 16 (0x10#16).toNat) 767 2 = some (stRange, det618 5) := by decide +kernel
theorem witness_BindingComplete_unbind : still.admits (.unbind (hdr .pcieA 0 0) 3 0x200) = true ∧ pstateStill (still.part 3).state = true
    ∧ ((after (.unbind (hdr .pcieA 0 0) 3 0x200) still).part 3).state = .none := by decide +kernel

/-- An arm block of group 0 of partition 1 on stream 5: condition 3 on TRIG_IN 2, a ring of 64 MiB per stack at 12. -/
def armBytes : List Byte := [0, 1, 0, 0, 1, 0, 1, 0, 5, 0] ++ List.replicate 30 0 ++ [12, 0, 1, 0, 1, 0, 0, 0, 1, 0, 0, 0] ++ List.replicate 8 0
  ++ [0, 0, 16, 0] ++ List.replicate 64 0 ++ pinCond.entry
def armHdr : CmdHdr := { hdr .pcieA 144 0 with input := armBytes }

theorem witness_TriggerCommandsComplete : (inState .loaded id).admits (.arm armHdr 1 0) = true
    ∧ ((inState .loaded id).dropHead .pcieA).armCheck .pcieA 1 0 (((inState .loaded id).dropHead .pcieA).armBlock armHdr) = none
    ∧ (mapGet (after (.arm armHdr 1 0) (inState .loaded id)).cap.conds 3).isSome := by decide +kernel
/-- Group 0 is armed, and the dispatcher's next cycle has come. -/
def armedUp : State := { after (.arm armHdr 1 0) (inState .loaded id) with now := 40 }
theorem witness_TriggerCommandsComplete_disarm : armedUp.admits (.disarm (hdr .pcieA 0 0) 1 0) = true
    ∧ (armedUp.grp 0).armed = true ∧ (armedUp.grp 0).part = 1
    ∧ (after (.arm armHdr 1 0) (inState .loaded id)).admits (.disarm (hdr .pcieA 0 0) 1 0) = false := by decide +kernel
theorem witness_ForceTriggerCompletions : ceSource [3, 3, 8, 2] = 3
    ∧ (({ inState .loaded id with cap := { up.cap with conds := [(3, { pinCond with entry := [3, 3, 8, 0, 0, 0, 0, 0, 1] })] } } : State).admits
        (.forceTrigger (hdr .pcieA 0 0) 3)) = true ∧ ((inState .loaded id).part pinCond.part).owner = some .pcieA := by decide +kernel

/-- A scale set with no record, staged at 4096 of the allocation of partition 1; the counters of die 0 stand still. -/
def setHead : List Byte := [0x50, 0x59, 0x52, 0x54, 0, 1, 128, 0, 2, 0, 0, 0, 1, 1, 1, 1] ++ List.replicate 8 0 ++ [128] ++ List.replicate 7 0
  ++ [128] ++ List.replicate 15 0 ++ [128] ++ List.replicate 79 0
def setBytes : List Byte := setHead ++ sha384 setHead ++ List.replicate 8 0
def setUp : State :=
  let s := regs [(aCnt 0 0, 2)] <| inState .loaded (fun x => { x with staged := [⟨0, 0, 0, 0, true, []⟩, ⟨4096, 184, 184, 184, false, sha384 setHead⟩] })
  { s with flt := { s.flt with stack := memWrite [] 4096 setBytes } }

theorem witness_ImageAndModeCommandsComplete_scale : setUp.admits (.setModeAtScaleSet (hdr .pcieA 0 0) 1 5 9 4096) = true
    ∧ ((setUp.dropHead .pcieA).setModeScale 1 5 9 4096).2 = none := by decide +kernel

/-- Group 0 is armed, and the allocation holds its block at 0. -/
def kind1Up : State :=
  let s := armedUp
  { s with flt := { s.flt with stack := memWrite [] 0 armBytes } }
theorem witness_ImageAndModeCommandsComplete_trigger : kind1Up.admits (.setModeAtTrigger (hdr .pcieA 0 0) 1 5 9 0) = true
    ∧ ((kind1Up.dropHead .pcieA).setModeTrigger 1 5 9 0).2 = none := by decide +kernel
theorem witness_ImageAndModeCommandsComplete : (inState .loaded id).admits (.setModeAtSeeds (hdr .pcieA 0 0) 1 5 (2 ^ 48 - 1) 1 [9]) = true
    ∧ (((inState .loaded id).dropHead .pcieA).setModeSeeds 1 5 (2 ^ 48 - 1) 1 [9]).2 = none
    ∧ (((inState .loaded id).dropHead .pcieA).setModeSeeds 1 5 (2 ^ 48) 1 [9]).2 = some (stRange, det618 5)
    ∧ (inState .loaded (fun x => { x with change := some (chg false none) })).admits (.setModeAtCancel (hdr .pcieA 0 0) 1) = true
    ∧ (chg false none).boundary = none := by decide +kernel
theorem witness_ImageAndModeCommandsComplete_images : (inState .loaded id).admits (.stageImage (hdr .pcieA 64 0) 1 0 4096 64 0) = true
    ∧ ((inState .loaded id).dropHead .pcieA).stageCheck (hdr .pcieA 64 0) 1 0 4096 64 0 = none
    ∧ (inState .bound (fun x => { x with staged := [⟨0, 0, 0, 0, false, []⟩] })).admits (.load (hdr .pcieA 0 0) 1 false false none 0) = true
    ∧ ((inState .bound (fun x => { x with staged := [⟨0, 0, 0, 0, false, []⟩] })).dropHead .pcieA).loadAccept 1 0 false = none
    ∧ (inState .paused id).admits (.saveState (hdr .pcieA 0 0) 1 4) = true ∧ (inState .paused id).saveCheck 1 4 = none
    ∧ (inState .paused id).saveCheck 1 6 = some (stRange, det618 5) := by decide +kernel

/-- A saved area's header stands at save base 4. -/
def savedUp : State :=
  let s := inState .loaded id
  { s with flt := { s.flt with stack := memWrite [] (4 * 2 ^ 26) [0x53, 0x41, 0x56, 0x45, 0, 1, 0, 1, 0, 0, 0, 1] } }
theorem witness_ImageAndModeCommandsComplete_restore : savedUp.admits (.restoreState (hdr .pcieA 0 0) 1 4) = true ∧ savedUp.restoreCheck 1 4 = none
    ∧ ((after (.restoreState (hdr .pcieA 0 0) 1 4) savedUp).part 1).state = .loading := by decide +kernel

theorem witness_RunAndServiceCommandsComplete : (inState .loaded id).admits (.startAt (hdr .pcieA 0 0) 1 false 4096 ⟨0, 0, 0, 0, 0, 0, 0⟩) = true
    ∧ (inState .loaded id).startCheck 1 false 4096 ⟨0, 0, 0, 0, 0, 0, 0⟩ = none ∧ (inState .loaded id).startCheck 1 true 0 ⟨0, 0, 0, 0, 0, 0, 0⟩ = none
    ∧ (inState .loaded id).startCheck 1 false 0 ⟨0, 0, 0, 0, 0, 0, 0⟩ = some (stTiming, det618 6)
    ∧ (inState .running id).admits (.pause (hdr .pcieA 0 0) 1) = true ∧ ((after (.pause (hdr .pcieA 0 0) 1) (inState .running id)).part 1).state = .pausing
    ∧ (inState .paused id).admits (.resume (hdr .pcieA 0 0) 1 64) = true ∧ (inState .paused id).resumeCheck 1 64 = none
    ∧ (inState .paused id).resumeCheck 1 63 = some (stTiming, det618 6)
    ∧ (inState .paused id).admits (.barrier (hdr .pcieA 0 0) 3 ⟨1, 0, 0⟩ 8192 5) = true
    ∧ (inState .paused id).barrierCheck 3 ⟨1, 0, 0⟩ 8192 = none := by decide +kernel
theorem witness_RunAndServiceCommandsComplete_service : pkgUp.admits (.scrub (hdr .pcieA 64 0) 0 true 15 0 0 12582912) = true
    ∧ (pkgUp.dropHead .pcieA).scrubCheck (hdr .pcieA 64 0) 0 15 (BitVec.ofNat 16 0) 0 12582912 = none
    ∧ (pkgUp.dropHead .pcieA).scrubCheck (hdr .pcieA 64 0) 0 15 (BitVec.ofNat 16 0) 1 12582912 = some (stRange, det618 5)
    ∧ pkgUp.admits (.storeSettings (hdr .pcieA 0 0) 1) = true ∧ (pkgUp.dropHead .pcieA).storeCheck (hdr .pcieA 0 0) 1 = none := by decide +kernel

/-- Lane 100 is PRECISE with a lock at stage 2; four scans run on its die. -/
def eyeUp (n : Nat) : State :=
  let s := regs [(aLane 100 4, 0x40000000)] pkgUp
  { s with ops := (List.range n).map (fun i => ⟨.pcieA, i, .eyeScan (hdr .pcieA 99 0) i ⟨0, 0, 0, 1, 0, 0, 1, 16⟩, hdr .pcieA 99 0, 0x50, none,
      BitVec.ofNat 8 stStepping, 0, some 1, [1], 0, [], false⟩) }
theorem witness_RunAndServiceCommandsComplete_eye : (eyeUp 3).admits (.eyeScan (hdr .pcieA 36 0) 100 ⟨0, 0, 0, 1, 0, 0, 1, 16⟩) = true
    ∧ ((eyeUp 3).dropHead .pcieA).eyeCheck (hdr .pcieA 36 0) 100 ⟨0, 0, 0, 1, 0, 0, 1, 16⟩ = none ∧ laneDie 100 = 1
    ∧ (eyeUp 3).scansOn 1 < 4 ∧ 4 ≤ (eyeUp 4).scansOn 1 ∧ ((eyeUp 4).dropHead .pcieA).eyeCheck (hdr .pcieA 36 0) 100 ⟨0, 0, 0, 1, 0, 0, 1, 16⟩ = none
    ∧ (eyeUp 4).admits (.eyeScan (hdr .pcieA 36 0) 100 ⟨0, 0, 0, 1, 0, 0, 1, 16⟩) = true := by decide +kernel

/-- SMBus is a package port. -/
def smb : State := regs [(aCtl 0x160, 0xC0000000)] up
theorem witness_InstantCommandsComplete : pkgUp.portPkg .pcieA = true
    ∧ (inState .loaded id).admits (.setWakeTol (hdr .pcieA 0 0) 1 0) = true ∧ (inState .loaded id).pkgState = 0
    ∧ (((inState .loaded id).dropHead .pcieA).setReg (aPwr 0 (0x100 + 4 * 1)) 0).tooDeep = false
    ∧ smb.admits (.bufWrite (hdr .smbus 224 65312) [5]) = true ∧ bufCheck (hdr .smbus 224 65312) (bufLimit .smbus) = none
    ∧ bufCheck (hdr .smbus 224 65313) (bufLimit .smbus) = some (det618 5) ∧ bufCheck (hdr .jtag 53 0) (bufLimit .jtag) = some (det618 5)
    ∧ smb.admits (.bufRead (hdr .smbus 2 0)) = true ∧ bufCheck (hdr .smbus 2 0) 224 = none
    ∧ memByte ((after (.bufWrite (hdr .smbus 224 65312) [5]) smb).port .smbus).buffer 65312 = 5 := by decide +kernel

/-- Partition 1 has one closed audit batch; it is paired with partition 2 of package 7. -/
def auditUp : State :=
  { inState .loaded id with
    chains := [(1, ⟨[], zeroBytes 48, [⟨1, [⟨true, 0, 0, 0, [1]⟩], true, false⟩], [⟨0, zeroBytes 8, zeroBytes 48, zeroBytes 48, some [1, 2], false, false⟩], 2⟩)]
    mit := ⟨[(1, 2)], [(1, (zeroBytes 48, 0))], [], [], [], [], []⟩ }
def fetchReply : List Byte := zeroBytes 104 ++ leBytes 4 0 ++ leBytes 4 2 ++ zeroBytes 24 ++ [1, 2]
theorem witness_InstantCommandsComplete_audit : auditUp.admits (.auditFetch (hdr .pcieA 162 4096) 1 false false 0) = true ∧ (0 : Nat) ≠ latestBatch
    ∧ mapGetD auditUp.flt.auditBad (2 ^ 20 * 1 + 0) false = false ∧ hostShort (hdr .pcieA 162 4096) (160 + 2) = false
    ∧ (after (.auditFetch (hdr .pcieA 162 4096) 1 false false 0) auditUp).hostBytes (hdr .pcieA 138 4096) 138 = fetchReply := by decide +kernel
theorem witness_InstantCommandsComplete_mitten : auditUp.admits (.mittenPair (hdr .pcieA 0 0) true 3 7 [(1, 15)]) = true
    ∧ (auditUp.dropHead .pcieA).mitCheck (hdr .pcieA 0 0) 3 7 [(1, 15)] = none
    ∧ (after (.mittenPair (hdr .pcieA 0 0) true 3 7 [(1, 15)]) auditUp).field (aMit 0) 11 0 = 7
    ∧ (regs [(aMit 0, 0x80000000)] auditUp).admits (.mittenPairDissolve (hdr .pcieA 0 0)) = true
    ∧ (regs [(aMit 0, 0x80000000)] auditUp).flag (aMit 0) 31 = true
    ∧ (∀ e ∈ auditUp.mit.pairs, (auditUp.part e.1).owner = some .pcieA) := by decide +kernel

/-! ### Lanes, operations, rings, transfers, the TAP -/

/-- A RAW lane at a stage, receiver on. -/
def laneAt (l mode stage : Nat) (s : State) : State :=
  regs [(aLane l 0, BitVec.ofNat 32 (mode * 2 ^ 29 + 2 ^ 14)), (aLane l 4, BitVec.ofNat 32 (stage * 2 ^ 29 + l % 16 * 2 ^ 19))] s

theorem witness_LaneModeComplete : ctlLanes 0 31 = some [31] ∧ ctlLanes 1 15 = some (groupLanes 19) ∧ ctlLanes 0 160 = none
    ∧ pkgUp.admits (.laneCtlSetMode (hdr .pcieA 0 0) 0 31 0 [0, 0, 0, 0x24]) = true ∧ pkgUp.laneInUse 31 = false ∧ pkgUp.laneStage 31 = 0
    ∧ rateOk false (argWord [0, 0, 0, 0x24] 0) = true ∧ bitsOf (argWord [0, 0, 0, 0x24] 0) 31 29 < 5
    ∧ (after (.laneCtlSetMode (hdr .pcieA 0 0) 0 31 0 [0, 0, 0, 0x24]) pkgUp).laneMode 31 = 1
    ∧ pkgUp.admits (.laneCtlUp (hdr .pcieA 0 0) 0 31 0 []) = true ∧ (after (.laneCtlUp (hdr .pcieA 0 0) 0 31 0 []) pkgUp).laneRx 31 = true
    ∧ pkgUp.admits (.laneCtlDown (hdr .pcieA 0 0) 0 31 0 []) = true := by decide +kernel
theorem witness_LaneServiceComplete : (laneAt 159 1 3 pkgUp).laneMode 159 = 1 ∧ (laneAt 159 1 3 pkgUp).laneStage 159 = 3
    ∧ (laneAt 159 1 3 pkgUp).admits (.laneCtlSlip (hdr .pcieA 0 0) 0 159 0 [63]) = true
    ∧ (laneAt 159 1 3 pkgUp).admits (.laneCtlTest (hdr .pcieA 0 0) 0 159 0 [0, 0, 0, 0xC0]) = true ∧ (laneAt 159 1 3 pkgUp).laneInUse 159 = false
    ∧ (laneAt 159 1 3 pkgUp).admits (.laneCtlInject (hdr .pcieA 0 0) 0 159 0 []) = true
    ∧ pkgUp.admits (.laneCtlSetEq (hdr .pcieA 0 0) 0 159 0 []) = true ∧ eqOk 159 (bytesAt [] 0 16) = true
    ∧ ((after (.laneCtlSetEq (hdr .pcieA 0 0) 0 159 0 []) pkgUp).lane 159).eqSet = true := by decide +kernel
theorem witness_LaneServiceComplete_settings : pkgUp.admits (.laneCtlSetMap (hdr .pcieA 0 0) 2 19 0 [7, 1]) = true
    ∧ mapGet (after (.laneCtlSetMap (hdr .pcieA 0 0) 2 19 0 [7, 1]) pkgUp).lan.maps 19 = some [19, 1, 0, 0, 0, 0, 0, 0]
    ∧ pkgUp.admits (.laneCtlSetClass (hdr .pcieA 0 0) 3 95 15 []) = true ∧ ctlPsel 3 95 = some 95 ∧ pkgUp.pselInUse 95 = false
    ∧ pkgUp.admits (.laneCtlSetOut (hdr .pcieA 14 0) 3 95 7 [0, 0, 0, 0x80, 0, 0, 7, 0]) = true ∧ pkgUp.flag (aTempl 95 7 0x200) 31 = false
    ∧ hostShort (hdr .pcieA 14 0) (bitsOf (argWord [0, 0, 0, 0x80, 0, 0, 7, 0] 4) 21 15) = false
    ∧ (after (.laneCtlSetOut (hdr .pcieA 14 0) 3 95 7 [0, 0, 0, 0x80, 0, 0, 7, 0]) pkgUp).flag (aTempl 95 7 0x200) 31 = true := by decide +kernel
theorem witness_LaneServiceComplete_jesd : pkgUp.admits (.laneCtlSetJesd (hdr .pcieA 0 0) 4 15 0 [0, 0, 0x1F, 0x80, 1]) = true
    ∧ (List.range 160).all (fun l => !pkgUp.laneInUse l) = true
    ∧ (after (.laneCtlSetJesd (hdr .pcieA 0 0) 4 15 0 [0, 0, 0x1F, 0x80, 1]) pkgUp).reg (aJesd 1 7 4) = 1 := by decide +kernel

/-- An operation of PCIe A with tag 7. -/
def opOf (c : Instr) (op : BitVec 8) (ag : Nat) (n : Nat) : Op := ⟨.pcieA, 2, c, hdr .pcieA n 0, op, some 1, BitVec.ofNat 8 stStepping, 3, some ag, [0], 0, [], false⟩
def withOp (o : Op) : State := { inState .paused (fun x => { x with staged := [⟨4096, 64, 64, 0, false, []⟩] }) with ops := [o] }
def savOp : Op := opOf (.saveState (hdr .pcieA 0 0) 1 4) 0x22 1 0
def eyeOp : Op := opOf (.eyeScan (hdr .pcieA 99 0) 3 ⟨0, 0, 0, 1, 0, 0, 1, 16⟩) 0x50 1 99
def stgOp : Op := opOf (.stageImage (hdr .pcieA 64 0) 1 0 4096 64 0) 0x12 1 64
def sedOp : Op := opOf (.setModeAtSeeds (hdr .pcieA 0 0) 1 5 9 1 [9]) 0x25 1 0

theorem witness_LongStepsComplete : (withOp savOp).canStep savOp = true ∧ savOp.status.toNat = stStepping
    ∧ (withOp savOp).ops.find? (fun o => decide (o.port = .pcieA ∧ o.hdr.tag = 7) && o.agent.isSome) = some savOp
    ∧ (after (.longOpStep .pcieA 7 ⟨false, 0, [], false, false⟩) (withOp savOp)).ops.map (·.steps) = [4]
    ∧ (withOp eyeOp).canStep eyeOp = true ∧ gridPoints ⟨0, 0, 0, 1, 0, 0, 1, 16⟩ = 1
    ∧ (after (.longOpStep .pcieA 7 ⟨false, 0, [1, 2, 3, 4], false, false⟩) (withOp eyeOp)).ops = []
    ∧ (after (.longOpStep .pcieA 7 ⟨false, 0, [], false, false⟩) (withOp sedOp)).ops.map (·.steps) = [4] := by decide +kernel
/-- A LOAD under way of an image of one template and nothing else, staged at 0; the counters of die 0 stand still. -/
def bareImg : List Byte := List.replicate 12 0 ++ [1, 16, 1, 1] ++ List.replicate 16 0 ++ leBytes 8 48 ++ leBytes 8 32
  ++ [1, 0, 0, 0, 16, 0, 0, 0, 0xFF, 0xFF, 0xFF, 0xFF, 0, 0, 0, 0] ++ [1, 0, 1] ++ List.replicate 13 0
def loadOp : Op := opOf (.load (hdr .pcieA 0 0) 1 false false none 0) 0x20 1 0
def loadUp (o : Op) : State :=
  let s := regs [(aCnt 0 0, 2)] (inState .loading (fun x => { x with staged := [⟨0, 80, 80, 80, false, []⟩] }))
  { s with ops := [o], flt := { s.flt with stack := memWrite [] 0 bareImg } }
theorem witness_LongStepsComplete_load : (loadUp loadOp).canStep loadOp = true ∧ loadGroups ((loadUp loadOp).part 1) = 1
    ∧ (((loadUp loadOp).putOp { loadOp with steps := 4 }).loadSome 1 0 0).2 = true
    ∧ (after (.longOpStep .pcieA 7 ⟨false, 0, [], false, false⟩) (loadUp loadOp)).ops.map (fun o => (o.steps, o.done)) = [(4, 1)]
    ∧ (after (.longOpStep .pcieA 7 ⟨false, 0, [], false, true⟩) (loadUp loadOp)).ops = []
    ∧ (after (.longOpStep .pcieA 7 ⟨false, 0, [], false, false⟩) (loadUp { loadOp with done := 1 })).ops = []
    ∧ (((loadUp { loadOp with steps := 0 }).putOp { loadOp with steps := 1 }).loadBegin 1 0 false none).2.isSome
    ∧ (after (.longOpStep .pcieA 7 ⟨false, 0, [], false, false⟩) (loadUp { loadOp with steps := 0 })).ops = [] := by decide +kernel
theorem witness_StagingWritesFourCopies : (withOp stgOp).canStep stgOp = true ∧ partBase ((withOp stgOp).part 1) + 4096 + 2 ≤ stackBytes
    ∧ (after (.longOpStep .pcieA 7 ⟨false, 0, [8, 9], false, false⟩) (withOp stgOp)).stackRead 3 4096 2 = [8, 9]
    ∧ (after (.longOpStep .pcieA 7 ⟨false, 0, [8, 9], false, false⟩) (withOp stgOp)).ops.map (·.done) = [2] := by decide +kernel

theorem witness_RingCommandsComplete : (up.portEn .pcieB = true ∧ up.sqSize 1 > 15)
    ∧ (after (.ctlSqTailWrite 1 15) up).field (aCtl 0x110C) 11 0 = 15
    ∧ (zeroBytes 64).length = 64
    ∧ (after (.ctlSqTailWrite 1 15) up).field (aCtl 0x1110) 11 0 ≠ (after (.ctlSqTailWrite 1 15) up).field (aCtl 0x110C) 11 0
    ∧ ((after (.descriptorFetch 1 (zeroBytes 64)) (after (.ctlSqTailWrite 1 15) up)).port .pcieB).ready.length = 1
    ∧ (after (.pcieLinkUp 1) (after (.portReset 1 true) up)).portEn .pcieB = true := by decide +kernel

/-- A short form of 12 bytes, and an entry that waits. -/
def entry0 : Completion := ⟨3, 1, 0, 0, 0, false, []⟩
def shortPorts : State := ((regs [(aCrn 0 8, 0x40000000)] up).putPort .smbus { port0 with unread := [entry0] }).putPort .jtag
  { port0 with unread := [entry0] }
theorem witness_TransfersComplete : shortPorts.portEn .smbus = true ∧ shortPorts.portEn .jtag = true ∧ (shortPorts.port .smbus).unread = [entry0]
    ∧ (shortPorts.port .jtag).ready.length < 16 ∧ (shortPorts.port .jtag).unread = [entry0]
    ∧ ((after (.smbusBlockWrite (zeroBytes 12) true) shortPorts).port .smbus).ready.length = 1
    ∧ ((after (.smbusBlockWrite (zeroBytes 11) true) shortPorts).port .smbus).ready.length = 0
    ∧ (after .glinComplete shortPorts).readBytes.length = 256 ∧ (after .smbusBlockRead shortPorts).readBytes.take 2 = (completionBytes .smbus false entry0).take 2 := by
  decide +kernel

/-- Link 19 leads to package 2, which is the master; a CONTROL message waits. -/
def ctlUp : State := (regs [(aLink 19 0, 0x80040002), (aWyl 0 4, 0x80000002)] up).putWlink 19 { wylLink0 with inbox := [⟨2, 0, 0, zeroBytes 72⟩] }
theorem witness_TransfersComplete_control : ctlUp.flag (aWyl 0 4) 31 = true ∧ ctlUp.fromMaster (linkNo 1 3) = true
    ∧ (ctlUp.wlink (linkNo 1 3)).inbox.find? (fun x => decide (x.mtype = 2)) = some ⟨2, 0, 0, zeroBytes 72⟩
    ∧ (fieldLE (zeroBytes 72) 4 1).testBit 0 = false ∧ fieldLE (zeroBytes 72) 0 2 = (ctlUp.ctlAck + 1) % 2 ^ 16
    ∧ ctlUp.ctlLink = some 19 ∧ ((after (.control 1 3) ctlUp).port .wyile).ready.length = 1
    ∧ (after (.control 1 3) ctlUp).wyl.ctl.accepted = some 0 := by decide +kernel
theorem witness_TapComplete : up.sys.blocked = false ∧ up.crownStopped 0 = false ∧ up.responseHolds (1 :: zeroBytes 199) = true
    ∧ up.responseHolds (zeroBytes 200) = false ∧ (after (.glinResponse (2 :: zeroBytes 199)) up).field (aCrn 0 8) 31 30 = 2
    ∧ (after (.glinResponse (zeroBytes 200)) up).sys.blocked = true ∧ State.reset.sys.pins.resetLow = true
    ∧ (after .glinChallenge (after (.glinResponse (zeroBytes 200)) up)).readBytes = [] := by decide +kernel
theorem test_extest : (after (.extest [true]) (after (.samplePreload [false]) State.reset)).sys.tap = ⟨0x00, [true], some [false], false⟩ := by decide +kernel

/-! ### Registers, counters, apertures -/

theorem witness_RegisterAccessComplete_write : (regRow (aLane 3 0x40)).isSome = true ∧ agentMay .brim (aLane 3 0x40) = true ∧ addrOff (aLane 3 0x40) < 0x1800000
    ∧ 0x1000000 ≤ addrOff (aLane 3 0x40) ∧ aLane 3 0x40 < 2 ^ 28 ∧ regRow 0xFFFFFF8 = none ∧ regRow 2 = none
    ∧ agentMay .brim (aGau 0 0) = false := by decide +kernel
theorem witness_RegisterAccessComplete_read : aCap 1 0 % 4 = 0 ∧ (regRow (aCap 1 0)).isSome = true ∧ up.silent (aCap 1 0) = false
    ∧ (up.loRead (addrDie (aCap 1 0)) (addrOff (aCap 1 0))).isNone = true ∧ addrOff (aCap 1 0) < 0x4000000
    ∧ (after (.rcRead .pcieA (aFlt 1 4) true) { filled with cyc := [] }).readData = 0x40000000
    ∧ (after (.rcRead .pcieA (aFlt 1 4) true) filled).readData = 0 ∧ addrOff (aSeq 1 0x10) = 0x600010 ∧ up.silent (aSeq 1 0x10) = false := by decide +kernel
/-- Two happenings of one cycle: the record keeps the one first in the order, and a clear in their cycle does not lose it. -/
def twice : State := (up.firstRecord (aLat 1 0xC) 5 (firstOrder 9 0 0) []).firstRecord (aLat 1 0xC) 4 (firstOrder 8 0 0) []
theorem witness_RegisterAccessComplete_first : mapGet up.cyc (aLat 1 0xC) = none ∧ up.flag (aLat 1 0xC) 31 = false
    ∧ twice.reg (aLat 1 0xC) = 0x80000004 ∧ agentMay .pcieA (aLat 1 0xC) = true ∧ (twice.regCycle (aLat 1 0xC)).along = []
    ∧ (twice.regCycle (aLat 1 0xC)).order.isSome = true ∧ (0x80000000 : Word).getLsbD 31 = true
    ∧ (after (.registerWrite .pcieA (aLat 1 0xC) 0x80000000 true) twice).reg (aLat 1 0xC) = 0x80000004
    ∧ (after (.registerWrite .pcieA (aLat 1 0xC) 0x80000000 true) { twice with cyc := [] }).flag (aLat 1 0xC) 31 = false := by decide +kernel
/-- PCIe A writes before the Brim in one cycle: the later rank stands, whichever came first. -/
theorem test_agents_of_one_cycle :
    let w := fun (g : Agent) (v : Word) (s : State) => after (.registerWrite g (aLane 3 0x40) v true) s
    (w .brim 0x10000000 (w .pcieA 0x20000000 up)).reg (aLane 3 0x40) = (w .pcieA 0x20000000 (w .brim 0x10000000 up)).reg (aLane 3 0x40) := by decide +kernel
/-- W1C: MIT_DIV_INFO[VALID] clears where a 1 is written, not where a 0 is. -/
theorem test_w1c : (after (.registerWrite .pcieA (aMit 0x100) 0x80000000 true) (regs [(aMit 0x100, 0x80000005)] up)).reg (aMit 0x100) = 5
    ∧ (after (.registerWrite .pcieA (aMit 0x100) 0 true) (regs [(aMit 0x100, 0x80000005)] up)).reg (aMit 0x100) = 0x80000005 := by decide +kernel

/-- The schedule counts stand past 2^32. -/
def late1 : State := { up with seq := { up.seq with count0 := 2 ^ 32 + 9 } }
theorem witness_LoRegistersComplete : late1.silent (aSeq 0 8) = false ∧ (after (.seqCycleLoRead 0) late1).readData = 9
    ∧ (after (.seqCycleLoRead 0) late1).reg (aSeq 0 0xC) = 1 ∧ up.silent (aStrm 1 16383 0) = false
    ∧ (regs [(aLane 159 0x40, 0x42000000)] up).flag (aLane 159 0x40) 30 = true
    ∧ (regs [(aLane 159 0x40, 0x42000000)] up).flag (aLane 159 0x40) 25 = true ∧ up.silent (aLane 159 0x44) = false
    ∧ (after (.lanPrbsLoRead 159 false (2 ^ 48 - 1)) (regs [(aLane 159 0x40, 0x42000000)] up)).reg (aLane 159 0x48) = 65535 := by decide +kernel
theorem witness_LoRegistersComplete_write : up.streamInUse 16383 = false ∧ running.streamInUse 5 = true
    ∧ (after (.capStrmSeqLoWrite 1 16383 8) up).nextSeq 1 16383 = 8 ∧ (after (.capStrmSeqLoWrite 0 5 8) running).flag (aCap 0 0) 31 = true
    ∧ (after (.cntValLoWrite 1 95 8) (regs [(aCounter 1 95 + 8, 3)] up)).counter 1 95 = 3 * 2 ^ 32 + 8 := by decide +kernel

/-- Counters 63 of the die and 24 of the cores are enabled and unchained. -/
def cntUp : State := { regs [(cntCfg 1 63, 0x80000000), (aCounter 1 (64 + 24), 0x80000000)] up with cnt := { up.cnt with val := [(256 + 64 + 24, BitVec.ofNat 48 (2 ^ 48 - 1))] } }
theorem witness_CountersComplete : cntUp.flag (aCnt 1 0) 1 = false ∧ cntUp.flag (cntCfg 1 63) 31 = true ∧ cntUp.flag (cntCfg 1 63) 30 = false
    ∧ cntUp.counter 1 63 + min 5 65535 < 2 ^ 48 ∧ (after (.counterWrap 1 63 false 5 0 0) cntUp).counter 1 63 = 5
    ∧ cntUp.flag (aCounter 1 (64 + 24)) 31 = true ∧ cntUp.flag (aCounter 1 (64 + 24)) 29 = false ∧ 2 ^ 48 ≤ cntUp.counter 1 (64 + 24) + 1
    ∧ cntUp.flag (aCounter 1 (64 + 24) + 0x10) 31 = false ∧ (after (.counterWrap 1 24 true 1 0 0) cntUp).counter 1 88 = 0
    ∧ (after (.counterWrap 1 24 true 1 0 0) cntUp).flag (aCnt 1 0x18) 24 = true := by decide +kernel
theorem witness_CountersComplete_page : ((regs [(aCnt 0 0xC, 8)] two).pageLive 0 0 3) = true := by decide +kernel
/-- CRC-32 of a software stream. -/
def chkUp : State := regs [(aUnitChk 1 3 0, 0x20C00000 + 3 * 2 ^ 18), (aUnitChk 1 3 4, 0x04C11DB7), (aUnitChk 1 3 0xC, 0xFFFFFFFF), (aUnitChk 1 3 0x14, 0xFFFFFFFF)] up
theorem witness_CountersComplete_chk : chkUp.field (aUnitChk 1 3 0) 30 24 = 32 ∧ chkUp.field (aUnitChk 1 3 0) 21 20 = 0
    ∧ (after (.chkStart 1 3) chkUp).flag (aUnitChk 1 3 0x34) 31 = true ∧ chkUp.flag (aUnitChk 1 3 0x34) 31 = false
    ∧ (regs [(aUnitChk 1 3 0, 0)] up).field (aUnitChk 1 3 0) 30 24 < 8 ∧ (after (.chkStart 1 3) (regs [(aUnitChk 1 3 0, 0)] up)).flag (aUnitChk 1 3 0x34) 30 = true
    ∧ (after (.chkFinish 1 3) (after (.chkStart 1 3) chkUp)).chkRes 1 3 = 0 := by decide +kernel
/-- The check values of "123456789" that the spec's table of algorithms gives by its parameters. -/
theorem test_crc32_check : crcFinal 32 true 0xFFFFFFFF (crcBytes 32 0x04C11DB7 true 0xFFFFFFFF [0x31, 0x32, 0x33, 0x34, 0x35, 0x36, 0x37, 0x38, 0x39]) = 0xCBF43926 := by
  decide +kernel
/-- The spec's example of an input check: an empty message of stream 200, sequence number 4,096. -/
theorem test_input_check_example : inputCheck 200 4096 [] = 0x0008000000001300#64 ∧ inputCheck 0 0 [] = 0
    ∧ crc32c (2 ^ 32 - 1) [0x31, 0x32, 0x33, 0x34, 0x35, 0x36, 0x37, 0x38, 0x39] = 0xE3069283#32
    ∧ crc64 (2 ^ 64 - 1) [0x31, 0x32, 0x33, 0x34, 0x35, 0x36, 0x37, 0x38, 0x39] = 0x995DC9BBDF1939FA#64 := by decide +kernel

/-- The aperture of die 0 shows region 1, which no partition holds; the BAR2 of link A is open. -/
def apUp : State := { regs [(dieBase 0 + 0x7FFF000, 0x80000001)] filled with lat := { up.lat with sram := [(2 ^ 19 * 64 + 8, 7)] } }
theorem witness_AperturesComplete : apUp.apertureRegion 0 0 = some 1 ∧ up.apertureRegion 0 0 = none ∧ addrDie 0x4000008 = 0
    ∧ apUp.rowHeld (64 * 1 + 8 / 0x80000) (8 % 0x80000 / 32) = false
    ∧ (apUp.sramRead (64 * 1 + 8 / 0x80000) (8 % 0x80000) 4).2 = false ∧ apUp.silent 0x4000008 = false
    ∧ (after (.apertureRead 0 0x4000008) apUp).readData = 7 := by decide +kernel
theorem witness_AperturesComplete_bar2 : filled.bar2Open = true ∧ filled.bar2May 1 (filled.bar2Addr 1 (2 ^ 36 - 1) % stackBytes) = true
    ∧ ({ filled with parts := two.parts } : State).bar2May 1 0 = false ∧ ({ filled with parts := two.parts } : State).bar2May 0 0 = true
    ∧ (after (.bar2Access 1 5 none 1) { filled with parts := two.parts }).readEnd = .unsupported
    ∧ (after (.bar2Access 1 (2 ^ 36 - 1) (some [6]) 0) filled).flt.stack = [(2 ^ 36 - 1, 6)] := by decide +kernel

/-! ### Frames, bring-up, integrity -/

/-- A RAW frame of one payload word on lane 3. -/
def rawBytes : List Byte := [0xFB, 0, 0, 1, 0, 0, 0, 5] ++ zeroBytes 8
def rawUp : State := laneAt 3 1 5 up
theorem witness_SourceFramesComplete : rawUp.laneMode 3 = 1 ∧ 5 ≤ rawUp.laneStage 3 ∧ rawUp.laneTest 3 = false ∧ rawUp.lanePsel 3 = 3
    ∧ bitsOf (beNat (bytesAt rawBytes 0 8)) 47 32 = 1 ∧ bitsOf (beNat (bytesAt rawBytes 0 8)) 63 56 = 0xFB ∧ rawBytes.length = 8 + pad8 1
    ∧ crc32c (2 ^ 32 - 1) rawBytes = BitVec.ofNat 32 (crc32c (2 ^ 32 - 1) rawBytes).toNat
    ∧ (after (.rawFrameReceive 3 3 rawBytes (crc32c (2 ^ 32 - 1) rawBytes).toNat 0 false) rawUp).reg (aPsel 3 + 0x10) = 1
    ∧ (after (.rawFrameReceive 3 3 rawBytes 0 0 true) rawUp).reg (aPsel 3 + 0x14) = 1 := by decide +kernel
/-- JESD link 0 of die 0 on logical lane 3, locked. -/
def jesdUp : State :=
  let s := regs [(aJesd 0 0 0, 0x80000000), (aJesd 0 0 4, 8)] (laneAt 3 2 5 up)
  { s with lan := { s.lan with lemc := [(0, 0)] } }
theorem witness_SourceFramesComplete_jesd : jesdUp.jesdLocked 0 0 = true ∧ jesdUp.jesdLanes 0 0 = [3] ∧ jesdUp.jesdE 0 0 = 1
    ∧ (zeroBytes 256).length = 8 * (32 * 1) ∧ (jesdUp.jesdPhys 0 0).find? (fun l => decide (jesdUp.laneLogical l = 3)) = some 3
    ∧ (after (.jesdMultiblockReceive 0 0 [zeroBytes 256] true) jesdUp).reg (aPsel 3 + 0x10) = 1
    ∧ (after (.jesdMultiblockReceive 0 0 [zeroBytes 256] false) jesdUp).reg (aPsel 3 + 0x14) = 1 := by decide +kernel
/-- An Ethernet broadcast of type 0x88B5 on lane 3, whose rule 2 matches it. -/
def ethBytes : List Byte := List.replicate 6 0xFF ++ zeroBytes 6 ++ [0x88, 0xB5]
def ethUp : State := regs [(aPsel 3 + 0x108, 0x800088B5)] (laneAt 3 3 5 up)
theorem witness_SourceFramesComplete_eth : ethUp.pselLanes 3 = 3 :: [] ∧ ethUp.laneMode 3 = 3 ∧ 5 ≤ ethUp.pselStage 3 ∧ ethUp.laneTest 3 = false
    ∧ ethBytes.length + 4 ≤ 9216 ∧ ethUp.ptpTaken 3 ethBytes = false ∧ beNat (bytesAt ethBytes 12 2) ≠ 0x8808 ∧ ethUp.ethPasses 3 3 ethBytes = true
    ∧ (List.range 16).find? (fun c => ethUp.ethRule 3 ethBytes c) = some 2
    ∧ (List.range 16).find? (fun c => (laneAt 3 3 5 up).ethRule 3 ethBytes c) = none
    ∧ (after (.ethFrameReceive 3 ethBytes (leNat (ethFcs ethBytes)) 0) ethUp).reg (aPsel 3 + 0x10) = 1 := by decide +kernel
theorem witness_LaneBringUpComplete : (laneAt 159 1 0 up).laneRx 159 = true ∧ ((laneAt 159 1 0 up).lane 159).slipping = false
    ∧ (List.range 5).all (fun k => decide ((after (.laneStageAdvance 159 true (~~~(markerWord 0))) (laneAt 159 1 k up)).laneStage 159 = k + 1)) = true
    ∧ (laneAt 159 1 3 up).flag (aLane 159 4) 18 = false ∧ (after (.laneDrop 159 4) (laneAt 159 1 5 up)).laneStage 159 = 4
    ∧ (after (.slipTestDone 159 [markerWord 3]) (laneAt 159 1 2 up)).flag (aLane 159 4) 16 = true
    ∧ (regs [(aLane 159 0x40, 0x40000000), (aLane 159 0, 0x20001000)] up).laneTest 159 = true
    ∧ (regs [(aLane 159 0x40, 0x40000000), (aLane 159 0, 0x20001000)] up).flag (aLane 159 0x40) 30 = true := by decide +kernel
theorem witness_LaneBringUpComplete_laser : (regs [(aOptEng 15 4, 0x80000000), (aOptEng 15 8, 0x00640000)] up).flag (aOptEng 15 4) 31 = true
    ∧ 99 < (regs [(aOptEng 15 4, 0x80000000), (aOptEng 15 8, 0x00640000)] up).field (aOptEng 15 8) 31 16 ∧ 11 * 100 ≤ 10 * 110
    ∧ (after (.sysrefEdge 0 5) (regs [(aJesd 0 0 0, 0x80000000)] up)).flag (aJesd 0 0 8) 30 = true := by decide +kernel

/-- A rescale entry of region 1, which serves no image, waits for its repair. -/
def repUp : State := { regs [(aFlt 0 0x104, 3), (aFlt 0 0x100, 5), (aFlt 0 0x10, 0x80000000)] up with
  flt := { up.flt with repairs := [(0, [⟨1, 8192 * 64, none⟩])] }, lat := { up.lat with rescale := [(8192 * 64, 9)] } }
theorem witness_IntegrityEventsComplete : mapGetD repUp.flt.repairs 0 [] = ⟨1, 8192 * 64, none⟩ :: [] ∧ repUp.crownStopped 0 = false
    ∧ rowDie 1 (8192 * 64) = 0 ∧ repUp.rowPart 1 (8192 * 64) = none ∧ (after (.repair 0) repUp).lat.rescale = []
    ∧ repUp.field (aFlt 0 0x100) 15 0 ≠ 0 ∧ repUp.field (aFlt 0 0x104) 15 0 ≠ 0 ∧ (after (.bucketLeak 0 0) repUp).field (aFlt 0 0x104) 15 0 = 2
    ∧ repUp.flag (aFlt 0 0x10) 31 = true ∧ (∀ e ∈ repUp.flt.cfgBad, 0x2000000 ≤ addrOff e.1)
    ∧ (after (.scrubPass 0) repUp).reg (aFlt 0 0x14) = 1 := by decide +kernel

/-! ### Boot, cores, power, audit, Mitten -/

/-- A boot state. -/
def booting (b : Boot) : State := { up with sys := { up.sys with boot := b } }
theorem witness_BootComplete : State.reset.sys.boot = .fill ∧ State.reset.bestSlot 0 = none ∧ (after .sramFillDone State.reset).sys.boot = .failFw
    ∧ (after (.stackTrainingDone [true, true, true, true]) (booting .crown)).sys.boot = .memory
    ∧ (after (.stackTrainingDone [true, true, false, true]) (booting .crown)).sys.boot = .failMem
    ∧ (after .memFillDone (booting .memory)).flag (aFlt 1 4) 30 = true ∧ (after .bootReady (booting .brim)).field (aCrn 0 0) 31 28 = 4 := by decide +kernel
theorem witness_BootComplete_pins : (after .flashRequest up).sys.pins.flashReq = true ∧ up.sys.pins.flashReq = false
    ∧ (List.replicate 12 (100 : Int)).length = 12 ∧ up.flag (aFlt 1 0) 31 = false ∧ up.crownStopped 1 = false
    ∧ (after (.thermalSample 1 (List.replicate 12 100)) up).flag (aFlt 1 0) 31 = true
    ∧ (after (.thermalSample 1 (List.replicate 12 90)) up).flag (aPwr 1 0) 28 = true
    ∧ (after (.thermalSample 1 (List.replicate 12 86)) up).flag (aPwr 1 0) 28 = false ∧ (after (.thermtrip 1 11) up).sys.pins.thermtrip = true := by decide +kernel
theorem witness_CoresComplete : up.crownStopped 1 = false ∧ (after (.crownLockstep 1 0) up).crownStopped 1 = true ∧ mapGetD up.sys.crownDead 1 false = false
    ∧ (after (.crownRestartDone 1) (after (.crownLockstep 1 0) up)).crownStopped 1 = false ∧ up.brimUp = true ∧ up.coreState 1 3 = 0
    ∧ (after (.brimWatchdog 1 3) up).coreState 1 3 = 1 ∧ (after (.brimRestartDone 1 3 true) (after (.brimWatchdog 1 3) up)).coreState 1 3 = 0
    ∧ (regs [(aCrn 0 8, 0x80000000)] up).field (aCrn 0 8) 31 30 = 2
    ∧ (after (.brimDebugHalt 1 3) (regs [(aCrn 0 8, 0x80000000)] up)).coreState 1 3 = 3
    ∧ (after (.brimDebugResume 1 3) (after (.brimDebugHalt 1 3) (regs [(aCrn 0 8, 0x80000000)] up))).coreState 1 3 = 0
    ∧ (regs [(aCore 1 3, 0x80000000)] up).coreState 1 3 = 2 ∧ ((regs [(aCore 1 3, 0x80000000)] up).core 1 3).stale = false := by decide +kernel
/-- Three restarts within a second hold the core. -/
theorem test_fourth_restart : (after (.brimWatchdog 0 1) { up with sys := { up.sys with cores := [(1, ⟨0, [0, 0, 0], false⟩)] } }).coreState 0 1 = 2 := by decide +kernel
theorem witness_PowerStatesComplete : (regs [(aPwr 0 8, 150)] up).regionPower 15 < 2 ∧ wakeTime 2 ≤ (regs [(aPwr 0 8, 150)] up).regionTol 15
    ∧ (regs [(aPwr 0 8, 150)] up).sys.waking.getLsbD 15 = false ∧ (regs [(aPwr 0 8, 150)] up).regionPart 15 = none
    ∧ (after (.regionPowerEntry 15 2) (regs [(aPwr 0 8, 150)] up)).regionPower 15 = 2
    ∧ (after (.regionPowerEntry 15 2) (regs [(aPwr 0 8, 149)] up)).regionPower 15 = 0 := by decide +kernel
theorem witness_PowerStatesComplete_package : (regs [(aPwr 0 8, 120000)] up).pkgState < 4 ∧ wakeTime 4 ≤ (regs [(aPwr 0 8, 120000)] up).leastTol
    ∧ (regs [(aPwr 0 8, 120000)] up).pkgIdle 4 = true ∧ up.sys.wakingPkg = false := by decide +kernel
theorem witness_PowerStatesComplete_wake : ({ up with sys := { up.sys with waking := 1, wakingPkg := true } } : State).sys.waking.getLsbD 0 = true
    ∧ up.regionPower 0 ≤ regionFit (up.regionTol 0) ∧ up.pkgState ≤ pkgFit up.leastTol
    ∧ (after (.wakeComplete (some 0)) { up with sys := { up.sys with waking := 1, wakingPkg := true } }).sys.waking = 0
    ∧ (after (.wakeComplete none) { up with sys := { up.sys with waking := 1, wakingPkg := true } }).sys.wakingPkg = false := by decide +kernel

/-- Partition 1 runs an active pair over link 19; a record of it waits, one is to be sent; its audit batch can close; a barrier's instant has come. -/
def rec1 (seq : Nat) : MittenRec := ⟨1, 5, seq, zeroBytes 24, 0, [], 0⟩
def pairUp : State :=
  let s := regs [(aMit 0, 0x80013007)] { auditUp with parts := [(1, { part1 with image := some { img with digest := zeroBytes 48 } })] }
  { s with now := 1024, mit := { s.mit with toSend := [rec1 1], localRecs := [rec1 0] }, barrier := some ⟨hdr .pcieA 0 0, 3, 0, 4096, 9⟩ }
theorem witness_AuditAndMittenComplete : (mapGet pairUp.chains 1).any (fun c => (closable c).isSome) = true
    ∧ (mapGet (after (.batchClose 1) pairUp).chains 1).any (fun c => decide (c.closed.length = 2)) = true
    ∧ pairUp.mit.toSend = rec1 1 :: [] ∧ pairUp.mitActive 1 = true ∧ pairUp.mit.peerRecs.find? (sameEvent (rec1 1)) = none
    ∧ pairUp.mit.localRecs.find? (fun r => decide (r.cycle + pairUp.mitWait ≤ pairUp.now)) = some (rec1 0)
    ∧ (after .mittenWaitExpiry pairUp).reg (aMit 0x24) = 1 ∧ mapGet pairUp.mit.pairs 1 = some 2
    ∧ (0 : Nat) ≤ (pairUp.tb 3).t / 2 ^ 32 ∧ (after .barrierRelease pairUp).seq.count1 = 4096 := by decide +kernel
/-- A comparison record of the peer's partition 2, sequence number 7; a dissolution notice. -/
def peerBody : List Byte := listSet (listSet (zeroBytes 128) 40 2) 24 7
theorem witness_AuditAndMittenComplete_message : pairUp.flag (aMit 0) 31 = true ∧ pairUp.field (aMit 0) 16 12 = linkNo 1 3
    ∧ peerBody ≠ dissolution ∧ pairUp.mit.pairs.find? (fun e => decide (e.2 = fieldLE peerBody 40 1)) = some (1, 2)
    ∧ (1, (bodyRec 1 1024 peerBody).stream, (bodyRec 1 1024 peerBody).seq) ∉ pairUp.mit.lost
    ∧ pairUp.mit.localRecs.find? (sameEvent (bodyRec 1 1024 peerBody)) = none
    ∧ (after (.mitten 1 3) (pairUp.putWlink 19 { wylLink0 with inbox := [⟨3, 0, 0, peerBody⟩] })).mit.peerRecs.length = 1
    ∧ (after (.mitten 1 3) (pairUp.putWlink 19 { wylLink0 with inbox := [⟨3, 0, 0, dissolution⟩] })).reg (aMit 0) = 0 := by decide +kernel

end Sys2Proof.Tests
end

/-! PROOFS. Which commands hand regions on, and that every step keeps the invariant (R3, R31, R293, R297 to R301). -/

namespace Sys2Proof.Machine

/-! ### Which regions a partition holds (R31) -/

/-- Partition `p` holds region `r`. -/
def State.holds (s : State) (p r : Nat) : Bool := (s.part p).regions.getLsbD r

theorem holds_congr {s t : State} {p : Nat} (h : (t.part p).regions = (s.part p).regions) (r : Nat) :
    t.holds p r = s.holds p r := by
  rw [State.holds, State.holds, h]

@[simp] theorem testBit_regions (s : State) (p r : Nat) : (s.part p).regions.toNat.testBit r = s.holds p r := by
  rw [State.holds, BitVec.testBit_toNat]

theorem holds_putPart (s : State) (p : Nat) (x : Partition) (q r : Nat) :
    (s.putPart p x).holds q r = if q = p then x.regions.getLsbD r else s.holds q r := by
  rw [State.holds, part_putPart]
  split <;> rfl

/-- Two masks of regions share none exactly when no region is in both. -/
theorem and_eq_zero_iff (x y : BitVec 16) : x &&& y = 0 ↔ ∀ i, x.getLsbD i = true → y.getLsbD i = false := by
  constructor
  · intro h i hx
    have hi : (x &&& y).getLsbD i = false := by simp [h]
    simpa [hx] using hi
  · intro h
    refine BitVec.eq_of_getLsbD_eq fun i _ => ?_
    cases hx : x.getLsbD i
    · simp [hx]
    · simp [h i hx]

@[simp] theorem getLsbD_regionMask (rs : List Nat) (r : Nat) : (regionMask rs).getLsbD r = (decide (r < 16) && decide (r ∈ rs)) := by
  have h : ∀ (m : BitVec 16), (rs.foldl (fun m r => m ||| BitVec.ofNat 16 (2 ^ r)) m).getLsbD r
      = (m.getLsbD r || (decide (r < 16) && decide (r ∈ rs))) := by
    induction rs with
    | nil => simp
    | cons x rs ih =>
      intro m
      rw [List.foldl_cons, ih, BitVec.getLsbD_or, BitVec.getLsbD_ofNat, Nat.testBit_two_pow]
      by_cases hx : x = r
      · subst hx
        cases m.getLsbD x
        · by_cases lt : x < 16 <;> simp [lt]
        · simp
      · simp [hx, Ne.symm hx]
  simpa [regionMask] using h 0

theorem mem_maskList {n m r : Nat} : r ∈ maskList n m ↔ r < n ∧ m.testBit r = true := by
  simp [maskList]

/-! ### The invariant, region by region -/

theorem inv_iff (s : State) : Inv s ↔ s.hw.legal = true ∧ (∀ c ∈ s.pending, c.wf = true)
    ∧ (∀ p q r, p < 16 → q < 16 → s.holds p r = true → s.holds q r = true → p = q)
    ∧ (∀ p r, p < 16 → s.holds p r = true → s.isFused r = false) := by
  have fused : ∀ r, s.isFused r = s.hw.fused.getLsbD r := fun r => BitVec.testBit_toNat ..
  constructor
  · rintro ⟨legal, wf, disjoint, unfused⟩
    refine ⟨legal, wf, fun p q r hp hq h1 h2 => ?_, fun p r hp h => ?_⟩
    · by_contra hne
      have h3 := (and_eq_zero_iff _ _).1 (disjoint p q hp hq hne) r h1
      exact absurd h2 (by rw [State.holds, h3]; simp)
    · rw [fused]
      exact (and_eq_zero_iff _ _).1 (unfused p hp) r h
  · rintro ⟨legal, wf, disjoint, unfused⟩
    refine ⟨legal, wf, fun p q hp hq hne => ?_, fun p hp => ?_⟩
    · refine (and_eq_zero_iff _ _).2 fun r h1 => Bool.eq_false_iff.2 fun h2 => hne (disjoint p q r hp hq h1 h2)
    · exact (and_eq_zero_iff _ _).2 fun r h => (fused r).symm.trans (unfused p r hp h)

/-- Under the invariant the partition that holds a region is the one that `regionPart` finds. -/
theorem regionPart_of_holds {s : State} (i : Inv s) {p r : Nat} (hp : p < 16) (h : s.holds p r = true) : s.regionPart r = some p := by
  obtain ⟨_, _, disjoint, _⟩ := (inv_iff s).1 i
  cases e : s.regionPart r with
  | none =>
    have := List.find?_eq_none.1 e p (List.mem_range.2 hp)
    simp [h] at this
  | some q =>
    have hq := List.mem_range.1 (List.mem_of_find?_eq_some e)
    have hr := List.find?_some e
    rw [testBit_regions] at hr
    rw [disjoint p q r hp hq h hr]

/-! ### Regions that leave (R301) -/

/-- `t` has the queue and the part identity of `s`, and no partition holds a region in `t` that it does not hold in `s`. -/
def Shrinks (s t : State) : Prop := t.pending = s.pending ∧ t.hw = s.hw ∧ ∀ p r, t.holds p r = true → s.holds p r = true

theorem Shrinks.refl (s : State) : Shrinks s s := ⟨rfl, rfl, fun _ _ h => h⟩

theorem Shrinks.trans {a b c : State} (h : Shrinks a b) (k : Shrinks b c) : Shrinks a c :=
  ⟨k.1.trans h.1, k.2.1.trans h.2.1, fun p r e => h.2.2 p r (k.2.2 p r e)⟩

theorem Same.shrinks {s t : State} (h : Same s t) : Shrinks s t :=
  ⟨h.1, h.2.1, fun p r e => (holds_congr (h.2.2 p) r) ▸ e⟩

/-- Where no partition gains a region, the invariant holds on. -/
theorem inv_of_shrinks {s t : State} (i : Inv s) (h : Shrinks s t) : Inv t := by
  obtain ⟨pending, hw, sub⟩ := h
  obtain ⟨legal, wf, disjoint, unfused⟩ := (inv_iff s).1 i
  refine (inv_iff t).2 ⟨hw ▸ legal, pending ▸ wf, fun p q r hp hq h1 h2 => disjoint p q r hp hq (sub p r h1) (sub q r h2),
    fun p r hp h => ?_⟩
  rw [State.isFused, hw]
  exact unfused p r hp (sub p r h)

theorem inv_of_same {s t : State} (i : Inv s) (h : Same s t) : Inv t := inv_of_shrinks i h.shrinks

/-- A partition that ceases holds no region, and every other one holds what it held. -/
theorem cease_frame (s : State) (p : Nat) : (s.cease p).pending = s.pending ∧ (s.cease p).hw = s.hw
    ∧ ∀ q, ((s.cease p).part q).regions = if q = p then 0 else (s.part q).regions := by
  obtain ⟨pending, hw, regions⟩ : Same s ((s.disarmPart p).auditClosing p true) := by simp [Same.refl]
  refine ⟨pending, hw, fun q => ?_⟩
  unfold State.cease
  rw [part_putPart]
  split
  · rfl
  · exact regions q

/-- What a partition holds after regions `rs` left partition `p`: `p` loses them, and no other partition any (R301). -/
theorem leave_frame (s : State) (p : Nat) (rs : List Nat) : (s.leave p rs).pending = s.pending ∧ (s.leave p rs).hw = s.hw
    ∧ ∀ q, ((s.leave p rs).part q).regions = if q = p then (s.part q).regions &&& ~~~regionMask rs else (s.part q).regions := by
  unfold State.leave
  extract_lets digest unloaded still u pt v
  obtain ⟨pending, hw, regions⟩ : Same s u := by
    unfold u
    split
    · exact (same_putPart s unloaded p { still with state := .bound } rfl).2 (by simp [unloaded, Same.refl])
    · exact Same.refl s
  have left : ∀ q, (v.part q).regions = if q = p then (s.part q).regions &&& ~~~regionMask rs else (s.part q).regions := fun q => by
    unfold v
    rw [part_putPart]
    split
    · next e => rw [e, ← regions p]
    · exact regions q
  split
  · next none =>
    obtain ⟨pending', hw', regions'⟩ := cease_frame v p
    refine ⟨pending'.trans pending, hw'.trans hw, fun q => ?_⟩
    rw [regions', ← left]
    split
    · next e => rw [e, none]
    · rfl
  · exact ⟨pending, hw, left⟩

theorem holds_leave (s : State) (p : Nat) (rs : List Nat) (q r : Nat) :
    (s.leave p rs).holds q r = (s.holds q r && !(decide (q = p) && decide (r ∈ rs))) := by
  obtain ⟨_, _, regions⟩ := leave_frame s p rs
  rw [State.holds, regions, State.holds]
  by_cases e : q = p
  · rw [if_pos e, BitVec.getLsbD_and, BitVec.getLsbD_not, getLsbD_regionMask]
    by_cases hr : r < 16
    · simp only [e, hr, decide_true, Bool.true_and]
    · rw [BitVec.getLsbD_of_ge _ _ (Nat.not_lt.1 hr), Bool.false_and, Bool.false_and]
  · simp [e]

theorem Shrinks.leave (s : State) (p : Nat) (rs : List Nat) : Shrinks s (s.leave p rs) := by
  obtain ⟨pending, hw, _⟩ := leave_frame s p rs
  refine ⟨pending, hw, fun q r h => ?_⟩
  rw [holds_leave, Bool.and_eq_true] at h
  exact h.1

/-! ### BIND and UNBIND (R297 to R301) -/

/-- A partition leaves those of the regions `rs` that it holds. -/
def State.vacate (s : State) (rs : List Nat) (q : Nat) : State := s.leave q (rs.filter (fun r => decide (s.regionPart r = some q)))

theorem not_holds_vacate {s : State} (i : Inv s) (rs : List Nat) {q r : Nat} (hq : q < 16) (hr : r ∈ rs) :
    (s.vacate rs q).holds q r = false := by
  rw [State.vacate, holds_leave]
  cases h : s.holds q r
  · rfl
  · simp [hr, regionPart_of_holds i hq h]

/-- After partitions `l` have vacated regions `rs`, none of them holds one of `rs`. -/
theorem vacate_all {s : State} (i : Inv s) (rs l : List Nat) : Shrinks s (l.foldl (fun s q => s.vacate rs q) s)
    ∧ ∀ q ∈ l, q < 16 → ∀ r ∈ rs, (l.foldl (fun s q => s.vacate rs q) s).holds q r = false := by
  induction l generalizing s with
  | nil => exact ⟨Shrinks.refl s, by simp⟩
  | cons x l ih =>
    have hx : Shrinks s (s.vacate rs x) := Shrinks.leave ..
    obtain ⟨sub, gone⟩ := ih (inv_of_shrinks i hx)
    refine ⟨hx.trans sub, fun q hq lt r hr => ?_⟩
    rcases List.mem_cons.1 hq with rfl | hq
    · exact Bool.eq_false_iff.2 fun h => absurd (sub.2.2 q r h) (by simp [not_holds_vacate i rs lt hr])
    · exact gone q hq lt r hr

/-- Regions that are not fused and that no other partition holds may join a partition. -/
theorem inv_join {s : State} (i : Inv s) (p : Nat) (mask : BitVec 16) (unfused : ∀ r, mask.getLsbD r = true → s.isFused r = false)
    (free : ∀ q r, q < 16 → q ≠ p → mask.getLsbD r = true → s.holds q r = false) :
    Inv (s.putPart p { s.part p with regions := (s.part p).regions ||| mask }) := by
  obtain ⟨legal, wf, disjoint, unfused'⟩ := (inv_iff s).1 i
  have held : ∀ q r, (s.putPart p { s.part p with regions := (s.part p).regions ||| mask }).holds q r
      = (s.holds q r || (decide (q = p) && mask.getLsbD r)) := fun q r => by
    rw [holds_putPart]
    by_cases e : q = p
    · simp [e, State.holds]
    · simp [e]
  have apart : ∀ q r, q < 16 → q ≠ p → mask.getLsbD r = true → s.holds q r = true → False := fun q r hq hn hm h => by
    simp [free q r hq hn hm] at h
  refine (inv_iff _).2 ⟨legal, wf, fun x y r hx hy h1 h2 => ?_, fun x r hx h => ?_⟩
  · rw [held, Bool.or_eq_true, Bool.and_eq_true, decide_eq_true_eq] at h1 h2
    rcases h1 with h1 | ⟨rfl, h1⟩ <;> rcases h2 with h2 | ⟨rfl, h2⟩
    · exact disjoint x y r hx hy h1 h2
    · exact by_contra fun hn => apart x r hx hn h2 h1
    · exact by_contra fun hn => apart y r hy (Ne.symm hn) h1 h2
    · rfl
  · rw [held, Bool.or_eq_true, Bool.and_eq_true] at h
    rcases h with h | ⟨_, h⟩
    · exact unfused' x r hx h
    · exact unfused r h

/-- A BIND that its checks let pass names no fused region (R299). -/
theorem bindCheck_unfused {s : State} {port : Port} {p : Nat} {rs : List Nat} {base size : Nat}
    (h : s.bindCheck port p rs base size = none) : ∀ r ∈ rs, s.isFused r = false := by
  have e : rs.any s.isFused = false := Bool.eq_false_iff.2 fun any => by simp [State.bindCheck, any, at618] at h
  simpa using e

theorem inv_bindCmd {s : State} (i : Inv s) (port : Port) (p : Nat) (mask : BitVec 16) (base size : Nat) :
    Inv (s.bindCmd port p mask base size).1 := by
  unfold State.bindCmd
  extract_lets rs genesis named capped fresh v srcs w pt
  split
  · exact i
  · next check =>
    have inMask : ∀ r, mask.getLsbD r = true → r ∈ rs := fun r h =>
      mem_maskList.2 ⟨BitVec.lt_of_getLsbD h, by rwa [BitVec.testBit_toNat]⟩
    have born : Shrinks s v := by
      unfold v
      split
      · refine ⟨rfl, rfl, fun q r h => ?_⟩
        rw [holds_putPart] at h
        split at h
        · simp [fresh, part0] at h
        · exact h
      · exact Shrinks.refl s
    have iv := inv_of_shrinks i born
    obtain ⟨sub, gone⟩ : Shrinks v w ∧ ∀ q ∈ srcs, q < 16 → ∀ r ∈ rs, w.holds q r = false := vacate_all iv rs srcs
    have iw : Inv w := inv_of_shrinks iv sub
    refine inv_join iw p mask (fun r h => ?_) fun q r hq hn h => Bool.eq_false_iff.2 fun hw => ?_
    · rw [State.isFused, sub.2.1, born.2.1]
      exact bindCheck_unfused check r (inMask r h)
    · have hv := sub.2.2 q r hw
      have mem : q ∈ srcs := by
        simp only [srcs, List.mem_eraseDups, List.mem_filter, List.mem_filterMap, decide_eq_true_eq]
        exact ⟨⟨r, inMask r h, regionPart_of_holds iv hq hv⟩, hn⟩
      simp [gone q mem hq r (inMask r h)] at hw

theorem inv_unbindCmd {s : State} (i : Inv s) (p : Nat) (mask : BitVec 16) : Inv (s.unbindCmd p mask).1 := by
  unfold State.unbindCmd
  extract_lets rs
  split
  · exact i
  split
  · exact i
  · exact inv_of_shrinks i (Shrinks.leave ..)


/-! ### Commands that hand no region on -/

/-- A command of class W or S that its own check lets pass is accepted; nothing on its way moves a region. -/
theorem same_take_begin (a s : State) (c : Instr) (e : State → Option (Nat × Nat)) (f : State → Bool → State → State)
    (h : ∀ t b u, Same a (f t b u) ↔ Same a u) :
    Same a (s.take c (fun t b => t.vet c (fun _ _ => t.begin c (e t) (f t b)))) ↔ Same a s :=
  same_take _ _ _ _ fun t b => same_vet _ _ _ _ fun _ _ => same_begin _ _ _ _ _ (h t b t)

/-- A SET_MODE_AT whose checks and acceptance `f` makes moves no region. -/
theorem same_take_modeSet (a s : State) (c : Instr) (h : CmdHdr) (p : Nat) (f : State → State × Option (Nat × Nat))
    (k : ∀ t, Same a (f t).1 ↔ Same a t) :
    Same a (s.take c (fun t _ => t.vet c (fun _ _ => t.modeSet c h p (f t)))) ↔ Same a s :=
  same_take _ _ _ _ fun t _ => same_vet _ _ _ _ fun _ _ => same_modeSet _ _ _ _ _ _ (k t)

theorem PortsRegs.part {a t : State} (h : PortsRegs a t) (p : Nat) : t.part p = a.part p := by
  rw [State.part, h, State.part]

/-- Taking a place changes no partition. -/
@[simp] theorem part_addOp (s : State) (c : Instr) (st : Nat) (agent : Option Nat) (ds : List Nat) (buf : List Byte) (told : Bool)
    (p : Nat) :
    (s.addOp c st agent ds buf told).part p = s.part p := by
  unfold State.addOp
  split
  · rfl
  · dsimp only
    split
    · rfl
    · exact (PortsRegs.interim ..).part p

/-- An access inside its BAR answers what it does (R697). -/
theorem next_of_inside {p : Prop} [Decidable p] {f : Fault} {s t : State}
    (h : (if p then .fault f else .next s : Host.Outcome State Fault Refusal) = .next t) : s = t := by
  split at h
  · cases h
  · exact Host.Outcome.next.inj h

/-- BIND, UNBIND and cold reset are the only commands that hand a region on: every other one keeps the queue, the part identity and
the regions of every partition (R31, R293, R297, R298). -/
theorem exec_same {c : Instr} {s t : State} (bind : ∀ h p rs b n, c ≠ .bind h p rs b n) (unbind : ∀ h p rs, c ≠ .unbind h p rs)
    (reset : c ≠ .coldReset) (e : exec c s = .next t) : Same s t := by
  cases c
  case bind => exact absurd rfl (bind _ _ _ _ _)
  case unbind => exact absurd rfl (unbind _ _ _)
  case coldReset => exact absurd rfl reset
  case registerWrite | rcRead | apertureRead => exact next_of_inside e ▸ by split <;> simp [Same.refl]
  case bar2Access => exact next_of_inside e ▸ (same_bar2 ..).2 (Same.refl s)
  case stageImage | startAt | pause | saveState | resume | scrub | storeSettings | eyeScan | barrier =>
    exact Host.Outcome.next.inj e ▸ (same_take_begin _ _ _ _ _ (by simp)).2 (Same.refl s)
  case load | restoreState =>
    refine Host.Outcome.next.inj e ▸ (same_take_begin _ _ _ _ _ fun _ _ _ => ?_).2 (Same.refl s)
    exact (same_putPart _ _ _ _ (by simp [State.addLong])).trans (same_addLong ..)
  case setModeAtScaleSet | setModeAtTrigger | setModeAtSeeds =>
    exact Host.Outcome.next.inj e ▸ (same_take_modeSet _ _ _ _ _ _ (by simp)).2 (Same.refl s)
  all_goals
    rw [← Host.Outcome.next.inj e]
    simp [Same.refl]

/-! ### Every step keeps the invariant -/

theorem inv_complete {s : State} (i : Inv s) (h : CmdHdr) (op st d r : Nat) : Inv (s.complete h op st d r) :=
  inv_of_same i ((same_complete ..).2 (Same.refl s))

theorem inv_take {s : State} (i : Inv s) (c : Instr) (f : State → Bool → State) (k : ∀ t b, Inv t → Inv (f t b)) :
    Inv (s.take c f) := by
  have dropped : ∀ p, Inv (s.dropHead p) := fun p => inv_of_same i ((same_dropHead ..).2 (Same.refl s))
  unfold State.take
  split
  · exact i
  · dsimp only
    split
    · exact k _ _ (dropped _)
    · exact inv_complete (dropped _) ..
    · refine inv_of_same i ?_
      (repeat' split) <;> simp [Same.refl]

theorem inv_vet {s : State} (i : Inv s) (c : Instr) (f : CmdHdr → Nat → State) (k : ∀ h op, Inv (f h op)) : Inv (s.vet c f) := by
  unfold State.vet
  split
  · exact i
  · split
    · exact inv_complete i ..
    · exact k ..

/-- A class I command keeps the invariant where its effect does. -/
theorem inv_instant {s : State} (i : Inv s) (c : Instr) (f : State → CmdRes) (k : ∀ t, Inv t → Inv (f t).1) :
    Inv (s.instant c f) := by
  refine inv_take i c _ fun t _ it => inv_vet it c _ fun h op => ?_
  dsimp only
  split
  · exact inv_complete it ..
  · split
    · exact inv_complete (inv_of_same (k t it) ((same_putPort ..).2 (Same.refl _))) ..
    · exact inv_complete (k t it) ..

/-- After cold reset no partition holds a region (R293, R648). -/
theorem Shrinks.coldReset (s : State) : Shrinks s s.coldReset := by
  refine ⟨rfl, rfl, fun p r h => ?_⟩
  simp [State.holds, State.part, State.coldReset, State.reset, mapGetD, part0] at h

theorem exec_keeps_inv {c : Instr} {s t : State} (i : Inv s) (e : exec c s = .next t) : Inv t := by
  by_cases bind : ∃ h p rs b n, c = .bind h p rs b n
  · obtain ⟨h, p, rs, b, n, rfl⟩ := bind
    exact Host.Outcome.next.inj e ▸ inv_instant i _ _ fun t it => inv_bindCmd it ..
  by_cases unbind : ∃ h p rs, c = .unbind h p rs
  · obtain ⟨h, p, rs, rfl⟩ := unbind
    exact Host.Outcome.next.inj e ▸ inv_instant i _ _ fun t it => inv_unbindCmd it ..
  by_cases reset : c = .coldReset
  · subst reset
    exact Host.Outcome.next.inj e ▸ inv_of_shrinks i (Shrinks.coldReset s)
  · exact inv_of_same i (exec_same (fun h p rs b n k => bind ⟨h, p, rs, b, n, k⟩) (fun h p rs k => unbind ⟨h, p, rs, k⟩) reset e)

/-- The queue may lose commands. -/
theorem inv_pending {s : State} (i : Inv s) {cs : List Instr} (h : ∀ c ∈ cs, c ∈ s.pending) : Inv { s with pending := cs } :=
  ⟨i.legal, fun c hc => i.wf c (h c hc), i.disjoint, i.fused⟩

/-- Settles O3: a cycle moves no region, and of the commands only BIND, UNBIND and cold reset do. -/
theorem everyStepKeepsInv : Obligations.EveryStepKeepsInv := by
  intro s t i e
  unfold Machine.step at e
  split at e
  · exact Host.Outcome.next.inj e ▸ inv_of_same i ((same_tick ..).2 (Same.refl s))
  · next c cs queue => exact exec_keeps_inv (inv_pending i fun d hd => queue ▸ List.mem_cons_of_mem _ hd) e

/-- Settles O4: a KH16 has no fused region, no command waits, and no partition holds a region. -/
theorem resetMeetsInv : Obligations.ResetMeetsInv := by
  have none : ∀ p r, State.reset.holds p r = false := fun p r => by
    simp [State.holds, State.part, State.reset, mapGetD, part0]
  exact (inv_iff _).2 ⟨by decide, fun c hc => (by cases hc), fun p q r _ _ h => by simp [none] at h,
    fun p r _ h => by simp [none] at h⟩

end Sys2Proof.Machine

/-! PROOFS. How the dispatcher takes a command and what the common checks answer (R615 to R618), and accesses of BAR0 that are no
aligned 32-bit ones (R10). -/

namespace Sys2Proof.Machine

/-! ### Taking a command (R615 to R617) -/

/-- Every Gliniril command goes through the dispatcher and the checks that come first; only its effect is its own. -/
theorem exec_command {c : Instr} {x : CmdHdr × Nat × Option Nat} (h : cmdInfo c = some x) :
    ∃ f : State → Bool → CmdHdr → Nat → State, ∀ s, exec c s = .next (s.take c (fun t told => t.vet c (f t told))) := by
  cases c <;> cases h <;> exact ⟨_, fun _ => rfl⟩

section
variable {c : Instr} {s : State} {h : CmdHdr} {op : Nat} {part : Option Nat} (info : cmdInfo c = some (h, op, part))
include info

/-- A command that is taken leaves its port and is performed. -/
theorem take_go (f : State → Bool → State) (go : s.taking c h op part = .go) :
    s.take c f = f (s.dropHead h.port) (s.port h.port).queued := by
  simp [State.take, info, go]

/-- A command that is not taken stays ready, or becomes ready. -/
theorem take_wait (f : State → Bool → State) (wait : s.taking c h op part = .wait false) :
    s.take c f = if (s.port h.port).ready.any (fun d => sameCmd d c) then s else s.pushReady h.port c := by
  simp [State.take, info, wait]

/-- A command that fails a check which comes first completes with that check's status (R618). -/
theorem vet_refused {st d : Nat} (f : CmdHdr → Nat → State) (refused : s.gate h op part = some (st, d)) :
    s.vet c f = s.complete h op st d 0 := by
  simp [State.vet, info, refused]

/-- A command that meets the checks which come first is performed. -/
theorem vet_passed (f : CmdHdr → Nat → State) (passed : s.gate h op part = none) : s.vet c f = f h op := by
  simp [State.vet, info, passed]

theorem exec_refused {st d : Nat} (go : s.taking c h op part = .go) (refused : (s.dropHead h.port).gate h op part = some (st, d)) :
    exec c s = .next ((s.dropHead h.port).complete h op st d 0) := by
  obtain ⟨f, e⟩ := exec_command info
  rw [e, take_go info _ go, vet_refused info _ refused]

theorem exec_wait (wait : s.taking c h op part = .wait false) :
    exec c s = .next (if (s.port h.port).ready.any (fun d => sameCmd d c) then s else s.pushReady h.port c) := by
  obtain ⟨f, e⟩ := exec_command info
  rw [e, take_wait info _ wait]

/-- A command that the dispatcher leaves stays ready where it is ready, and becomes ready where it is not. -/
theorem exec_wait_cases (wait : s.taking c h op part = .wait false) :
    ((s.port h.port).ready.any (fun d => sameCmd d c) = true → exec c s = .next s)
    ∧ ((s.port h.port).ready.any (fun d => sameCmd d c) = false → exec c s = .next (s.pushReady h.port c)) := by
  rw [exec_wait info wait]
  exact ⟨fun k => by rw [if_pos k], fun k => by rw [k]; rfl⟩

end

/-- A command that may leave its port is taken unless its port, or one before it, has a turn first (R41, R615). -/
theorem taking_of_go {s : State} {c : Instr} {h : CmdHdr} {op : Nat} {part : Option Nat} (go : s.ownTaking c h op part = .go) :
    s.taking c h op part = if s.portTaken h.port || s.portBefore h.port then .wait false else .go := by
  simp [State.taking, go]

/-- Before the part is host-usable no command is taken (R616). -/
theorem taking_before_boot {s : State} {c : Instr} {h : CmdHdr} {op : Nat} {part : Option Nat} (boot : s.sys.boot ≠ .ready) :
    s.taking c h op part = .wait false := by
  simp [State.taking, State.ownTaking, boot]

/-! ### The checks that come first (R618) -/

/-- A well-formed command of a port that does not own the partition it names is refused for that (R294). -/
theorem gate_not_owner {s : State} {h : CmdHdr} {op p : Nat} (clean : h.clean = true) (known : h.unknown = none)
    (pkg : opPackage op = true → op ≠ 0x60 → s.portPkg h.port = true) (hp : p < 16) (owner : (s.part p).owner ≠ some h.port)
    (bind : op ≠ 0x10) : s.gate h op (some p) = some (stOwner, det618 3) := by
  have package : (opPackage op && decide (op ≠ 0x60) && !s.portPkg h.port) = false := by
    by_cases e : opPackage op = true ∧ op ≠ 0x60
    · simp [pkg e.1 e.2]
    · rw [not_and_or] at e
      rcases e with e | e
      · simp [e]
      · simp [not_not.1 e]
  rw [State.gate, if_neg (by simp [clean, known]), package, if_neg Bool.false_ne_true]
  simp [Nat.not_le.2 hp, owner, bind, at618]

/-- Settles O7: a command runs through `take` and `vet`, and each of the three parts is one way out of them. -/
theorem commonChecksRefuse : Obligations.CommonChecksRefuse := by
  refine ⟨fun c s h op part info go => ⟨fun st d refused => ?_, fun p named hp clean known pkg owner bind => ?_⟩,
    fun c s h op part info go => ⟨fun other => ?_, fun untaken first => ?_⟩, fun c s h op part info boot => ?_⟩
  · have e := exec_refused info go refused
    exact ⟨e, _, e, (PortsRegs.dropHead s h.port).trans (PortsRegs.complete ..)⟩
  · subst named
    exact exec_refused info go (gate_not_owner clean known pkg hp owner bind)
  · exact exec_wait_cases info ((taking_of_go go).trans (if_pos (by simpa using other)))
  · rw [taking_of_go go, untaken, first]
    rfl
  · exact exec_wait_cases info (taking_before_boot boot)

/-! ### Accesses that are no aligned 32-bit ones (R10) -/

theorem exec_registerWrite {a : Nat} (h : a < 2 ^ 28) (g : Agent) (v : Word) (aligned : Bool) (s : State) :
    exec (.registerWrite g a v aligned) s = .next (if aligned then s.agentWrite g a v else s) :=
  if_neg (Nat.not_le.2 h)

theorem exec_rcRead {a : Nat} (h : a < 2 ^ 28) (g : Agent) (aligned : Bool) (s : State) :
    exec (.rcRead g a aligned) s = .next (if aligned && decide (a % 4 = 0) then s.barRead g a else s.readOut 0) :=
  if_neg (Nat.not_le.2 h)

/-- Settles O13: both accesses lie in the BAR, and the switch for aligned ones is off. -/
theorem unalignedAccesses : Obligations.UnalignedAccesses :=
  fun s g _ v h => ⟨exec_registerWrite h g v false s, exec_rcRead h g false s⟩

end Sys2Proof.Machine

/-! PROOFS. The class I commands that write their answer to the host buffer: IDENTIFY, QUERY, COUNTER_READ, READ_SETTINGS (R621 to R624,
R628, R664). -/

namespace Sys2Proof.Machine

/-! ### Little-endian fields (R9) -/

@[simp] theorem length_leBytes (n v : Nat) : (leBytes n v).length = n := by
  induction n generalizing v with
  | zero => rfl
  | succ n ih => simp [leBytes, ih]

theorem leNat_leBytes (n v : Nat) : leNat (leBytes n v) = v % 256 ^ n := by
  induction n generalizing v with
  | zero => simp [leBytes, leNat, Nat.mod_one]
  | succ n ih =>
    rw [leBytes, leNat, ih, BitVec.toNat_ofNat, show 256 ^ (n + 1) = 256 * 256 ^ n from Nat.pow_succ', Nat.mod_mul,
      show 2 ^ 8 = 256 from rfl]

@[simp] theorem length_zeroBytes (n : Nat) : (zeroBytes n).length = n := by simp [zeroBytes]

@[simp] theorem length_deviceId (s : State) : s.deviceId.length = 16 := by simp [State.deviceId, beBytes]

/-- A field that stands between two byte strings reads as its value. -/
theorem fieldLE_append (l r : List Byte) (n v : Nat) : fieldLE (l ++ (leBytes n v ++ r)) l.length n = v % 256 ^ n := by
  rw [fieldLE, bytesAt, List.drop_left, List.take_left' (length_leBytes n v), length_leBytes, Nat.sub_self, List.replicate_zero,
    List.append_nil, leNat_leBytes]

/-- Values of `n` bytes each, one after the other. -/
theorem length_flatMap_leBytes (n : Nat) (ws : List Nat) : (ws.flatMap (leBytes n)).length = n * ws.length := by
  induction ws with
  | nil => rfl
  | cons w ws ih => simp [ih, Nat.mul_add, Nat.add_comm]

theorem fieldLE_flatMap (n : Nat) (ws : List Nat) (i : Nat) (h : i < ws.length) :
    fieldLE (ws.flatMap (leBytes n)) (n * i) n = ws.getD i 0 % 256 ^ n := by
  have cut : ws.flatMap (leBytes n)
      = (ws.take i).flatMap (leBytes n) ++ (leBytes n (ws.getD i 0) ++ (ws.drop (i + 1)).flatMap (leBytes n)) := by
    rw [← List.flatMap_cons, ← List.flatMap_append, List.getD_eq_getElem _ _ h, List.getElem_cons_drop, List.take_append_drop]
  have e := fieldLE_append ((ws.take i).flatMap (leBytes n)) ((ws.drop (i + 1)).flatMap (leBytes n)) n (ws.getD i 0)
  rwa [← cut, length_flatMap_leBytes, List.length_take_of_le (Nat.le_of_lt h)] at e

/-! ### Class I commands (R618, R621) -/

theorem admits_iff {c : Instr} {s : State} {h : CmdHdr} {op : Nat} {part : Option Nat} (info : cmdInfo c = some (h, op, part)) :
    s.admits c = true ↔ s.taking c h op part = .go ∧ (s.dropHead h.port).gate h op part = none ∧ h.hostErr = false := by
  simp [State.admits, info, and_assoc]

/-- An admitted class I command completes with what its effect gives. -/
theorem instant_admitted {c : Instr} {s t : State} {h : CmdHdr} {op : Nat} {part : Option Nat} {f : State → CmdRes} {st d r : Nat}
    (info : cmdInfo c = some (h, op, part)) (admitted : s.admits c = true) (effect : f (s.dropHead h.port) = (t, st, d, r)) :
    s.instant c f = t.complete h op st d r := by
  obtain ⟨go, passed, host⟩ := (admits_iff info).1 admitted
  rw [State.instant, take_go info _ go, vet_passed info _ passed]
  simp [effect, host]

/-- What an answer wrote reads back from the host buffer. -/
theorem hostBytes_hostWrite (s : State) (h : CmdHdr) (b : List Byte) : (s.hostWrite h b).hostBytes h b.length = b := by
  unfold State.hostBytes State.hostWrite
  cases p : portPcie h.port <;> simp [memRead_memWrite]

@[simp] theorem regs_hostWrite (s : State) (h : CmdHdr) (b : List Byte) : (s.hostWrite h b).regs = s.regs := by
  unfold State.hostWrite
  split <;> rfl

@[simp] theorem cnt_hostWrite (s : State) (h : CmdHdr) (b : List Byte) : (s.hostWrite h b).cnt = s.cnt := by
  unfold State.hostWrite
  split <;> rfl

@[simp] theorem sys_hostWrite (s : State) (h : CmdHdr) (b : List Byte) : (s.hostWrite h b).sys = s.sys := by
  unfold State.hostWrite
  split <;> rfl

/-- An admitted command that answers `b`, with room for it, ends with OK and its length, the answer in the host buffer. -/
theorem ends_answer {c : Instr} {s : State} {h : CmdHdr} {op : Nat} {part : Option Nat} {f : State → CmdRes} {b : List Byte}
    {P : State → Prop} (info : cmdInfo c = some (h, op, part)) (run : exec c s = .next (s.instant c f)) (admitted : s.admits c = true)
    (effect : f (s.dropHead h.port) = (s.dropHead h.port).answer h b) (room : hostShort h b.length = false)
    (post : P ((s.dropHead h.port).hostWrite h b)) : Ends c s b.length P := by
  refine ⟨h, op, part, _, info, run.trans (congrArg _ (instant_admitted info admitted (effect.trans ?_))), post⟩
  rw [State.answer, room]
  rfl

/-! ### IDENTIFY and the PCI configuration space (R6, R623) -/

theorem length_identity (s : State) (p : Port) : (s.identity p).length = 64 := by
  unfold State.identity
  cases s.hw.stepping <;> simp

/-- The identity block begins with the vendor and the device of the grade. -/
theorem identity_head (s : State) (p : Port) :
    ∃ rest, s.identity p = leBytes 2 Config.vendorId.toNat ++ (leBytes 2 (gradeId s.hw.grade) ++ rest) := by
  unfold State.identity
  cases s.hw.stepping <;> exact ⟨_, by simp only [List.append_assoc]; rfl⟩

theorem pciIdWord_toNat (s : State) : s.pciIdWord.toNat = gradeId s.hw.grade * 2 ^ 16 + Config.vendorId.toNat := by
  have hv := Config.vendorId.isLt
  have hg : gradeId s.hw.grade < 2 ^ 16 := by cases s.hw.grade <;> decide
  rw [State.pciIdWord, BitVec.toNat_ofNat, Nat.mod_eq_of_lt (by omega)]

theorem identity_names_pci (s : State) (p : Port) : fieldLE (s.identity p) 0 4 = s.pciIdWord.toNat := by
  obtain ⟨rest, e⟩ := identity_head s p
  have hv := Config.vendorId.isLt
  have hg : gradeId s.hw.grade < 2 ^ 16 := by cases s.hw.grade <;> decide
  rw [e, pciIdWord_toNat]
  simp [fieldLE, bytesAt, leBytes, leNat]
  omega

theorem pciIdWord_device (s : State) : s.pciIdWord.toNat / 2 ^ 16 = gradeId s.hw.grade := by
  have hv := Config.vendorId.isLt
  rw [pciIdWord_toNat]
  omega

/-! ### QUERY, COUNTER_READ (R624, R628) -/

/-- The bytes of QUERY are its words, one after the other. -/
theorem query_of_words {s : State} {h : CmdHdr} {sel part : Nat} {ws : List Nat} (words : s.queryWords h.port sel part = some ws) :
    s.query h sel part = s.answer h (ws.flatMap (leBytes 4)) := by
  rw [State.query, words, List.flatMap_eq_foldl]

/-- The values of COUNTER_READ: the counters, the beat counters, and the schedule count of the die last. -/
theorem counterBytes_eq (s : State) (d mask bmask : Nat) : s.counterBytes d mask bmask
    = ((maskList 64 mask).map (s.counter d) ++ (maskList 32 bmask).map (fun k => s.counter d (64 + k))
      ++ [s.cycle d]).flatMap (leBytes 8) := by
  simp [State.counterBytes, List.flatMap_def, List.map_map, Function.comp_def]

theorem length_counterBytes (s : State) (d mask bmask : Nat) : (s.counterBytes d mask bmask).length
    = 8 * ((maskList 64 mask).length + (maskList 32 bmask).length + 1) := by
  rw [counterBytes_eq, length_flatMap_leBytes]
  simp [Nat.add_assoc]

/-- The last value of COUNTER_READ is the schedule count of the die. -/
theorem counterBytes_last (s : State) (d mask bmask : Nat) : fieldLE (s.counterBytes d mask bmask)
    (8 * ((maskList 64 mask).length + (maskList 32 bmask).length)) 8 = s.cycle d % 2 ^ 64 := by
  rw [counterBytes_eq, fieldLE_flatMap _ _ _ (by simp), List.getD_append_right _ _ _ _ (by simp)]
  simp

/-- A COUNTER_READ that its check lets pass has room for its values. -/
theorem counterRead_room {s : State} {h : CmdHdr} {pkg : Bool} {d mask bmask : Nat}
    (passed : s.counterReadCheck h pkg d mask bmask = none) :
    hostShort h (8 * ((maskList 64 mask).length + (maskList 32 bmask).length + 1)) = false := by
  rw [Nat.mul_comm]
  unfold State.counterReadCheck at passed
  dsimp only at passed
  split at passed
  · cases passed
  split at passed
  · cases passed
  split at passed
  · cases passed
  · next room => exact Bool.eq_false_iff.2 room

theorem counterRead_of_passed {s : State} {h : CmdHdr} {d mask bmask : Nat}
    (passed : s.counterReadCheck h (s.portPkg h.port) d mask bmask = none) :
    s.counterRead h d mask bmask = s.answer h (s.counterBytes d mask bmask) := by
  rw [State.counterRead, passed]

/-- Settles O37: the four commands are answers, of which the host buffer holds the bytes. -/
theorem queriesComplete : Obligations.QueriesComplete := by
  intro s h s'
  refine ⟨fun admitted room => ?_, identity_names_pci s h.port, ?_, fun sel part ws admitted words room => ?_,
    fun d mask bmask admitted passed => ?_, fun rmask admitted small room => ?_⟩
  · have e := length_identity s h.port
    rw [← e] at room ⊢
    refine ends_answer rfl rfl admitted ?_ room ⟨hostBytes_hostWrite .., regs_hostWrite ..⟩
    rw [State.answer, e]
    rfl
  · rw [pciIdWord_device]
    cases s.hw.grade <;> rfl
  · have e := length_flatMap_leBytes 4 ws
    rw [← e] at room ⊢
    refine ends_answer rfl rfl admitted (query_of_words words) room ⟨regs_hostWrite .., fun i hi => ?_⟩
    rw [hostBytes_hostWrite]
    exact fieldLE_flatMap 4 ws i hi
  · intro n
    have e : (s'.counterBytes d mask bmask).length = n := length_counterBytes ..
    have room : hostShort h n = false := counterRead_room passed
    have last : n - 8 = 8 * ((maskList 64 mask).length + (maskList 32 bmask).length) := by omega
    rw [last, ← e]
    rw [← e] at room
    refine ends_answer rfl rfl admitted (counterRead_of_passed passed) room ⟨cnt_hostWrite .., ?_⟩
    rw [hostBytes_hostWrite]
    exact counterBytes_last ..
  · refine ends_answer rfl rfl admitted ?_ room ⟨hostBytes_hostWrite .., sys_hostWrite ..⟩
    simp [State.readSettingsCmd, Nat.not_le.2 small]
    rfl

end Sys2Proof.Machine

/-! PROOFS. Register writes and reads under the access codes (R10 to R12, R47, R249, R702). -/

namespace Sys2Proof.Machine

/-! ### What a cycle has done to a register -/

@[simp] theorem regCycle_putCycle (s : State) (a : Nat) (e : RegCycle) (b : Nat) :
    (s.putCycle a e).regCycle b = if b = a then e else s.regCycle b := by
  simp only [State.regCycle, State.putCycle, mapGetD, mapGet_mapSet, State.reg]
  split <;> rfl

theorem regCycle_of_none {s : State} {a : Nat} (h : mapGet s.cyc a = none) : s.regCycle a = ⟨s.reg a, s.reg a, 0, none, [], 0⟩ := by
  rw [State.regCycle, mapGetD, h, Option.getD_none]

/-! ### Writes (R11, R12, R702) -/

/-- Which bits a write changes, and which it clears. -/
theorem getLsbD_writeUnder (r : RegRow) (crown later : Bool) (old v : Word) {i : Nat} (hi : i < 32) :
    (writeUnder r crown later old v).getLsbD i
      = ((if !later && (r.rw.testBit i || (r.lk.testBit i && crown)) then v.getLsbD i else old.getLsbD i)
        && !(r.w1c.testBit i && v.getLsbD i)) := by
  have mask : (if later then 0 else if crown then r.rw ||| r.lk else r.rw).testBit i
      = (!later && (r.rw.testBit i || (r.lk.testBit i && crown))) := by
    cases later <;> cases crown <;> simp
  simp only [writeUnder, BitVec.getLsbD_or, BitVec.getLsbD_and, BitVec.getLsbD_not, BitVec.getLsbD_ofNat, hi, decide_true, Bool.true_and,
    mask]
  cases !later && (r.rw.testBit i || (r.lk.testBit i && crown)) <;> cases old.getLsbD i <;> cases v.getLsbD i <;> simp

/-- What a write of `v` leaves in a register of row `r`: the bits its access codes let it change, and the W1C bits that the cycle
has set. -/
def State.written (s : State) (r : RegRow) (g : Agent) (a : Nat) (v : Word) : Word :=
  writeUnder r (decide (g = .crown)) (decide (agentRank g < (s.regCycle a).agent)) (s.reg a) v
    ||| ((s.regCycle a).fresh &&& v &&& BitVec.ofNat 32 r.w1c)

/-- What a write leaves noted of the cycle. -/
def State.cycleWritten (s : State) (r : RegRow) (g : Agent) (a : Nat) (v : Word) : RegCycle :=
  let e := s.regCycle a
  { e with base := writeUnder r (decide (g = .crown)) (decide (agentRank g < e.agent)) e.base v, agent := max e.agent (agentRank g) }

theorem regStore_of_row {s : State} {g : Agent} {a : Nat} {v : Word} {r : RegRow} (row : regRow a = some r) :
    s.regStore g a v = if r.w1c.testBit 31
      then ((s.setReg a (s.written r g a v)).putCycle a (s.cycleWritten r g a v)).recordAgain a v
      else (s.setReg a (s.written r g a v)).putCycle a (s.cycleWritten r g a v) := by
  rw [State.regStore, row]
  rfl

/-- A register that no first record of the cycle claims holds what was written. -/
theorem regStore_plain {s : State} {g : Agent} {a : Nat} {v : Word} {r : RegRow} (row : regRow a = some r)
    (unclaimed : r.w1c.testBit 31 = true → (s.regCycle a).order = none) :
    s.regStore g a v = (s.setReg a (s.written r g a v)).putCycle a (s.cycleWritten r g a v) := by
  rw [regStore_of_row row]
  split
  · next h => simp [State.recordAgain, State.cycleWritten, unclaimed h]
  · rfl

/-- A first record whose VALID a write clears takes the happening of the write's own cycle (R12). -/
theorem regStore_record {s : State} {g : Agent} {a : Nat} {v : Word} {r : RegRow} (row : regRow a = some r)
    (valid : r.w1c.testBit 31 = true) (set : v.getLsbD 31 = true) (claimed : (s.regCycle a).order.isSome = true)
    (alone : (s.regCycle a).along = []) :
    s.regStore g a v = ((s.setReg a (s.written r g a v)).putCycle a (s.cycleWritten r g a v)).setReg a (s.regCycle a).fresh := by
  have cleared : (s.cycleWritten r g a v).base.getLsbD 31 = false := by
    rw [State.cycleWritten, getLsbD_writeUnder _ _ _ _ _ (by decide), valid, set]
    simp
  rw [regStore_of_row row, if_pos valid, State.recordAgain]
  simp only [regCycle_putCycle, if_true, BitVec.testBit_toNat, cleared, set]
  rw [if_pos (by simpa [State.cycleWritten] using claimed), State.putRecord]
  simp [State.cycleWritten, alone]

theorem getLsbD_written (s : State) (r : RegRow) (g : Agent) (a : Nat) (v : Word) {i : Nat} (hi : i < 32) :
    (s.written r g a v).getLsbD i
      = (((if !decide (agentRank g < (s.regCycle a).agent) && (r.rw.testBit i || (r.lk.testBit i && decide (g = .crown)))
            then v.getLsbD i else (s.reg a).getLsbD i)
          && !(r.w1c.testBit i && v.getLsbD i))
        || ((s.regCycle a).fresh.getLsbD i && r.w1c.testBit i && v.getLsbD i)) := by
  rw [State.written, BitVec.getLsbD_or, getLsbD_writeUnder _ _ _ _ _ hi, BitVec.getLsbD_and, BitVec.getLsbD_and, BitVec.getLsbD_ofNat,
    decide_eq_true hi, Bool.true_and, Bool.and_right_comm]

/-- The blocks whose registers a write only stores. -/
theorem regWrite_stored {s : State} {g : Agent} {a : Nat} {v : Word} (block : (0x30000 ≤ addrOff a ∧ addrOff a < 0x50000)
    ∨ (0x1000000 ≤ addrOff a ∧ addrOff a < 0x1800000) ∨ 0x2000000 ≤ addrOff a) : s.regWrite g a v = s.regStore g a v := by
  unfold State.regWrite
  dsimp only
  iterate 9 rw [if_neg (by omega)]

theorem agentWrite_of_row {s : State} {g : Agent} {a : Nat} {v : Word} {r : RegRow} (row : regRow a = some r) (may : agentMay g a = true) :
    s.agentWrite g a v = s.regWrite g a v := by
  simp [State.agentWrite, row, may]

theorem agentWrite_nowhere {s : State} {g : Agent} {a : Nat} {v : Word} (row : regRow a = none) : s.agentWrite g a v = s := by
  simp [State.agentWrite, row]

/-! ### First records (R12) -/

theorem firstRecord_later {s : State} {a v o p : Nat} (h : (s.regCycle a).order = some p) (le : p ≤ o) : s.firstRecord a v o [] = s := by
  simp [State.firstRecord, h, le]

/-- The word of a first record: VALID, and the happening. -/
def recordWord (v : Nat) : Word := BitVec.ofNat 32 (v % 2 ^ 31 + 2 ^ 31)

/-- The state with the happening `v` at place `o` recorded at `a`. -/
def State.recorded (s : State) (a v o : Nat) : State :=
  (s.putCycle a { s.regCycle a with fresh := recordWord v, order := some o, along := [] }).setReg a (recordWord v)

theorem reg_recorded (s : State) (a v o : Nat) : (s.recorded a v o).reg a = recordWord v := by
  rw [State.recorded, reg_setReg, if_pos rfl]

theorem regCycle_recorded (s : State) (a v o : Nat) :
    (s.recorded a v o).regCycle a = { s.regCycle a with fresh := recordWord v, order := some o, along := [] } := by
  simp [State.recorded, State.regCycle, State.putCycle, mapGetD]

/-- A happening that no earlier one of the cycle precedes is recorded where VALID was clear before. -/
theorem firstRecord_earlier {s : State} {a v o : Nat} (first : ∀ p, (s.regCycle a).order = some p → o < p)
    (clear : (s.regCycle a).base.getLsbD 31 = false) : s.firstRecord a v o [] = s.recorded a v o := by
  unfold State.firstRecord
  dsimp only
  rw [if_neg, if_neg]
  · rfl
  · rw [BitVec.testBit_toNat, clear]
    exact Bool.false_ne_true
  · cases h : (s.regCycle a).order with
    | none => simp
    | some p => simp [first p h]

/-- A record that stood before the cycle keeps its place. -/
theorem reg_firstRecord_valid {s : State} {a v o : Nat} {along : List (Nat × Nat)}
    (valid : (s.regCycle a).base.getLsbD 31 = true) (b : Nat) :
    (s.firstRecord a v o along).reg b = s.reg b := by
  unfold State.firstRecord
  dsimp only
  rw [BitVec.testBit_toNat, valid, if_pos rfl]
  exact (apply_ite (fun t : State => t.reg b) _ _ _).trans (ite_self _)

/-- Of two happenings of one cycle the one first in order is recorded, whichever came first. -/
theorem reg_firstRecord_two {s : State} {a v w o p : Nat} (fresh : mapGet s.cyc a = none) (clear : s.flag a 31 = false) (lt : o < p) :
    ((s.firstRecord a v o []).firstRecord a w p []).reg a = recordWord v
    ∧ ((s.firstRecord a w p []).firstRecord a v o []).reg a = recordWord v := by
  have start := regCycle_of_none fresh
  have base : (s.regCycle a).base.getLsbD 31 = false := by
    rw [start]
    rwa [State.flag, BitVec.testBit_toNat] at clear
  have one : ∀ v o, s.firstRecord a v o [] = s.recorded a v o := fun v o => firstRecord_earlier (by simp [start]) base
  constructor
  · rw [one, firstRecord_later (congrArg RegCycle.order (regCycle_recorded s a v o)) (Nat.le_of_lt lt), reg_recorded]
  · rw [one, firstRecord_earlier, reg_recorded]
    · rw [regCycle_recorded]
      intro q h
      exact Option.some.inj h ▸ lt
    · rw [regCycle_recorded]
      exact base

/-! ### Reads (R10 to R12, R249) -/

/-- What a read leaves in a register of row `r`: its RC bits as the cycle has set them, the others as they were (R12). -/
theorem reg_regClear {s : State} {a : Nat} {r : RegRow} (row : regRow a = some r) (other : addrOff a ≠ 0x600010) :
    (s.regClear a).reg a
      = (s.reg a &&& ~~~BitVec.ofNat 32 r.rc) ||| ((s.regCycle a).fresh &&& BitVec.ofNat 32 r.rc) := by
  rw [State.regClear, row]
  dsimp only
  split
  · next h => simp only [h, BitVec.not_zero, BitVec.and_allOnes, BitVec.and_zero, BitVec.or_zero]
  · simp [State.peakAgain, other, State.clearBits]

@[simp] theorem reg_clearBits_ne (s : State) (a : Nat) (m : Word) {b : Nat} (h : b ≠ a) : (s.clearBits a m).reg b = s.reg b := by
  simp [State.clearBits, h]

/-- A read touches no other register. -/
theorem reg_regClear_ne (s : State) (a : Nat) {b : Nat} (h : b ≠ a) : (s.regClear a).reg b = s.reg b := by
  unfold State.regClear State.peakAgain
  (repeat' split) <;> simp [h]

theorem regClear_frame (s : State) (a : Nat) : (s.regClear a).flt = s.flt ∧ (s.regClear a).parts = s.parts := by
  unfold State.regClear State.peakAgain
  (repeat' split) <;> exact ⟨rfl, rfl⟩

/-- The largest count of operations is the only register at its offset: its upper half is RC. -/
theorem rc_of_opsMax {a : Nat} {r : RegRow} (h : a < 2 ^ 28) (row : regRow a = some r) (off : addrOff a = 0x600010) :
    r.rc = 0xFFFF0000 := by
  have place : a = 0x600010 ∨ a = 0x8600010 := by
    rw [addrOff] at off
    omega
  rcases place with rfl | rfl <;> exact (Option.some.inj row) ▸ rfl

/-- The largest count since a read is the present one, or what the cycle has counted (R249). -/
theorem field_regClear_opsMax {s : State} {a : Nat} {r : RegRow} (row : regRow a = some r) (off : addrOff a = 0x600010)
    (rc : r.rc = 0xFFFF0000) : (s.regClear a).field a 31 16
      = max (getBits (s.regCycle a).fresh 31 16) (min 65535 (if addrDie a = 0 then s.seq.ops0 else s.seq.ops1)) := by
  have cleared : (s.clearBits a (BitVec.ofNat 32 r.rc)).field a 31 16 = getBits (s.regCycle a).fresh 31 16 := by
    rw [rc]
    simp only [State.field, State.clearBits, reg_putCycle, reg_setReg, if_true]
    refine getBits_eq_of_testBit fun j low high => ?_
    have mask : (0xFFFF0000 : Nat).testBit j = true := by interval_cases j <;> rfl
    have hj : j < 32 := by omega
    simp only [BitVec.testBit_toNat, BitVec.getLsbD_or, BitVec.getLsbD_and, BitVec.getLsbD_not, BitVec.getLsbD_ofNat, mask, hj]
    simp
  have small : getBits (s.regCycle a).fresh 31 16 < 2 ^ 16 := Nat.mod_lt _ (by decide)
  rw [State.regClear, row]
  dsimp only
  rw [if_neg (by rw [rc]; decide), State.peakAgain, if_pos off, field_setField_same _ _ _ _ _ (by decide), cleared]
  exact Nat.mod_eq_of_lt (by omega)

/-- A read of a register that no LO latch serves answers its value before the cycle, and clears it. -/
theorem barRead_plain {s : State} {g : Agent} {a : Nat} (may : agentMay g a = true) (heard : s.silent a = false)
    (lo : s.loRead (addrDie a) (addrOff a) = none) (outside : addrOff a < 0x4000000 ∨ 0x7FFF000 ≤ addrOff a) :
    s.barRead g a = (s.regClear a).readOut ((s.readState a).peekWord (agentLink g) a) := by
  unfold State.barRead
  rw [if_neg (by simp [may, heard]), if_neg (by omega), lo]

/-! ### The registers of R207 -/

/-- The first-record register of region `r` is a register of its own, with VALID alone W1C. -/
theorem regRow_latInfo {r : Nat} (h : r < 16) : regRow (aLat r 0xC) = some (infoRow 0x200000C [(0x400000, 8)]) := by
  interval_cases r <;> rfl

theorem aLat_inside {r : Nat} (h : r < 16) : aLat r 0xC < 2 ^ 28 ∧ 0x2000000 ≤ addrOff (aLat r 0xC) := by
  unfold aLat dieBase addrOff
  omega

section
variable {s : State} {g : Agent} {a : Nat} {v : Word} {r : RegRow}

/-- A write of a block that only stores, under the access codes: the bits it may change, the W1C bits, and nothing else. -/
theorem exec_write_plain (inside : a < 2 ^ 28) (row : regRow a = some r) (may : agentMay g a = true)
    (unclaimed : r.w1c.testBit 31 = true → (s.regCycle a).order = none)
    (block : (0x30000 ≤ addrOff a ∧ addrOff a < 0x50000) ∨ (0x1000000 ≤ addrOff a ∧ addrOff a < 0x1800000)) :
    exec (.registerWrite g a v true) s = .next ((s.setReg a (s.written r g a v)).putCycle a (s.cycleWritten r g a v)) := by
  rw [exec_registerWrite inside, if_pos rfl, agentWrite_of_row row may, regWrite_stored (block.imp id .inl), regStore_plain row unclaimed]

/-- A write that clears VALID of a first record without registers beside it: the record of its own cycle stands, or none. -/
theorem regStore_clears (row : regRow a = some r) (valid : r.w1c.testBit 31 = true) (set : v.getLsbD 31 = true)
    (alone : (s.regCycle a).along = []) :
    ((s.regCycle a).order.isSome = true → (s.regStore g a v).reg a = (s.regCycle a).fresh)
    ∧ ((s.regCycle a).order = none → (s.regCycle a).fresh = 0 → (s.regStore g a v).flag a 31 = false)
    ∧ ∀ b, b ≠ a → (s.regStore g a v).reg b = s.reg b := by
  refine ⟨fun claimed => ?_, fun unclaimed empty => ?_, fun b hb => ?_⟩
  · rw [regStore_record row valid set claimed alone, reg_setReg, if_pos rfl]
  · rw [regStore_plain row fun _ => unclaimed, State.flag, BitVec.testBit_toNat, reg_putCycle, reg_setReg, if_pos rfl,
      getLsbD_written _ _ _ _ _ (by decide), valid, set, empty]
    simp
  · cases claim : (s.regCycle a).order with
    | none => rw [regStore_plain row fun _ => claim, reg_putCycle, reg_setReg, if_neg hb]
    | some p =>
      rw [regStore_record row valid set (by rw [claim]; rfl) alone, reg_setReg, if_neg hb, reg_putCycle, reg_setReg, if_neg hb]

end

/-- Settles O50: writes through what a write leaves in its register, reads through what a read clears there. -/
theorem registerAccessComplete : Obligations.RegisterAccessComplete := by
  refine ⟨fun s g a v inside => ⟨⟨s, exec_registerWrite inside g v false s, rfl⟩,
      fun row => ?_, fun r row may unclaimed block => ?_⟩,
    fun s => ⟨fun a v w o p fresh clear lt => reg_firstRecord_two fresh clear lt, fun a v o fresh valid => ?_,
      fun g r v hr may set alone => ?_⟩,
    fun s g a inside => ⟨⟨_, exec_rcRead inside g false s, rfl, rfl⟩, fun r aligned row may heard lo outside => ?_⟩⟩
  · refine ⟨s, ?_, rfl⟩
    rw [exec_registerWrite inside, if_pos rfl, agentWrite_nowhere row]
  · refine ⟨_, exec_write_plain inside row may unclaimed block, fun i hi => ?_, fun b hb => ?_, rfl, rfl⟩
    · rw [reg_putCycle, reg_setReg, if_pos rfl, getLsbD_written s r g a v hi]
    · rw [reg_putCycle, reg_setReg, if_neg hb]
  · refine reg_firstRecord_valid ?_ a
    rw [regCycle_of_none fresh]
    rwa [State.flag, BitVec.testBit_toNat] at valid
  · obtain ⟨inside, block⟩ := aLat_inside hr
    refine ⟨s.regStore g (aLat r 0xC) v, ?_, regStore_clears (regRow_latInfo hr) rfl set alone⟩
    rw [exec_registerWrite inside, if_pos rfl, agentWrite_of_row (regRow_latInfo hr) may, regWrite_stored (.inr (.inr block))]
  · obtain ⟨flt, parts⟩ := regClear_frame s a
    refine ⟨(s.regClear a).readOut ((s.readState a).peekWord (agentLink g) a), ?_, rfl, reg_regClear row,
      fun off => field_regClear_opsMax row off (rc_of_opsMax inside row off), fun b hb => reg_regClear_ne s a hb, flt, parts⟩
    rw [exec_rcRead inside, if_pos (by simp [aligned]), barRead_plain may heard lo outside]

end Sys2Proof.Machine

/-! PROOFS. Reads and writes of the LO registers: both halves of a value go together (R12, R141, R248, R330, R415, R416, R463, R506, R545,
R575, R576, R672, R678, R696). -/

namespace Sys2Proof.Machine

/-- A command whose operands name something has its effect. -/
theorem exec_only {c : Instr} {s t u : State} (run : exec c s = .next (s.only c t)) (named : c.ranges = true) (effect : t = u) :
    exec c s = .next u :=
  run.trans (congrArg _ ((if_pos named).trans effect))

theorem and_named {p q : Prop} [Decidable p] [Decidable q] (hp : p) (hq : q) : (decide p && decide q) = true := by
  simp [hp, hq]

/-- A read answers with its word. -/
theorem readData_readOut (s : State) (w : Nat) : (s.readOut w).readData = BitVec.ofNat 32 w := rfl

/-! ### Reads that latch HI -/

/-- A read of a LO register answers the low half, HI holds what it latched, and no other register changes. -/
theorem answers_latchRead {c : Instr} {s : State} {lo hi v h : Nat} (run : exec c s = .next (s.latchRead lo hi v h))
    (heard : s.silent lo = false) :
    Answers c s (fun t => t.readData = BitVec.ofNat 32 v ∧ t.reg hi = BitVec.ofNat 32 h ∧ ∀ b, b ≠ hi → t.reg b = s.reg b) := by
  have latched : s.latchRead lo hi v h = (s.setReg hi (BitVec.ofNat 32 h)).readOut v := if_neg (by simp [heard])
  refine ⟨_, run.trans (congrArg _ latched), rfl, ?_, fun b hb => ?_⟩
  · rw [reg_readOut, reg_setReg, if_pos rfl]
  · rw [reg_readOut, reg_setReg, if_neg hb]

theorem exec_seqCycleLoRead {d : Nat} (hd : d < 2) (s : State) :
    exec (.seqCycleLoRead d) s = .next (s.latchRead (aSeq d 8) (aSeq d 0xC) (s.cycle d) (s.cycle d / 2 ^ 32)) :=
  exec_only rfl (decide_eq_true hd) (if_neg (by omega))

theorem exec_gauLyrLoRead {d l k : Nat} (hd : d < 2) (hl : l < 64) (hk : k < 3) (s : State) :
    exec (.gauLyrLoRead d l k) s = .next (s.latchRead (aGau d (0x10008 + 0x20 * l + 8 * k)) (aGau d (0x10008 + 0x20 * l + 8 * k) + 4)
      (s.layerCount (64 * d + l) k) (s.layerCount (64 * d + l) k / 2 ^ 32)) :=
  exec_only rfl (Bool.and_eq_true_iff.2 ⟨and_named hd hl, decide_eq_true hk⟩) (if_neg (by omega))

theorem exec_seqPartBndLoRead {p : Nat} (hp : p < 16) (s : State) :
    exec (.seqPartBndLoRead p) s = .next (s.latchRead (aSeq 0 (0x408 + 0x10 * p)) (aSeq 0 (0x40C + 0x10 * p)) (s.bndLo p) (s.bndHi p)) :=
  exec_only rfl (decide_eq_true hp) (if_neg (by omega))

theorem exec_memErrAddrLoRead {d k : Nat} (hd : d < 2) (hk : k < 2) (s : State) :
    exec (.memErrAddrLoRead d k) s = .next (s.latchRead (aMem d (0x100 * k + 0x10)) (aMem d (0x100 * k + 0x14))
      (mapGetD s.flt.errAddr (2 * d + k) 0) (mapGetD s.flt.errAddr (2 * d + k) 0 / 2 ^ 32)) :=
  exec_only rfl (and_named hd hk) (if_neg (by omega))

theorem exec_timSrvOffLoRead {t : Nat} (ht : t < 4) (s : State) :
    exec (.timSrvOffLoRead t) s = .next (s.latchRead (aTb t 0x34) (aTb t 0x38) (s.tb t).off.toNat ((s.tb t).off.toNat / 2 ^ 32)) :=
  exec_only rfl (decide_eq_true ht) (if_neg (by omega))

theorem exec_timPpsTauLoRead (s : State) : exec .timPpsTauLoRead s
    = .next (s.latchRead (aTim 0x20010) (aTim 0x20014) (s.tim.ppsTau.getD 0) (s.tim.ppsTau.getD 0 / 2 ^ 32)) := rfl

theorem exec_nvsSeqLoRead {d : Nat} (hd : d < 2) (s : State) :
    exec (.nvsSeqLoRead d) s = .next (s.latchRead (aNvs d 4) (aNvs d 8) s.sys.seq (s.sys.seq / 2 ^ 32)) :=
  exec_only rfl (decide_eq_true hd) (if_neg (by omega))

theorem exec_cntValLoRead {d n : Nat} (hd : d < 2) (hn : n < 96) (s : State) :
    exec (.cntValLoRead d n) s
      = .next (s.latchRead (aCounter d n + 4) (aCounter d n + 8) (s.counter d n) (s.counter d n / 2 ^ 32)) :=
  exec_only rfl (and_named hd hn) (if_neg (by omega))

theorem exec_chkResLoRead {d u : Nat} (hd : d < 2) (hu : u < 4) (s : State) :
    exec (.chkResLoRead d u) s = .next (s.latchRead (aUnitChk d u 0x2C) (aUnitChk d u 0x30) (s.chkRes d u) (s.chkRes d u / 2 ^ 32)) :=
  exec_only rfl (and_named hd hu) (if_neg (by omega))

theorem exec_chkAudBatchLoRead {p : Nat} (hp : p < 16) (s : State) :
    exec (.chkAudBatchLoRead p) s = .next (s.latchRead (aChk 0 (0x10004 + 0x10 * p)) (aChk 0 (0x10008 + 0x10 * p)) (s.openBatchNo p)
      (s.openBatchNo p / 2 ^ 32)) :=
  exec_only rfl (decide_eq_true hp) (if_neg (by omega))

/-! ### The sequence number of a stream (R415, R416, R463) -/

/-- A read of a stream's number answers its low half and stages its upper half for HI; no register changes. -/
theorem answers_capStrmSeqLoRead {s : State} {d st : Nat} (hd : d < 2) (hst : st < 16384) (heard : s.silent (aStrm d st 0) = false) :
    Answers (.capStrmSeqLoRead d st) s (fun t => t.readData = BitVec.ofNat 32 (s.nextSeq d st) ∧ t.regs = s.regs
      ∧ mapGetD t.cap.seqHi (16384 * d + st) 0 = s.nextSeq d st / 2 ^ 32) := by
  have e : s.strmSeqLo d st = ({ s with cap := { s.cap with
      seqHi := mapPut s.cap.seqHi (16384 * d + st) (s.nextSeq d st / 2 ^ 32) 0 } }).readOut (s.nextSeq d st) := by
    rw [State.strmSeqLo, if_neg (by omega), if_neg (by simp [heard])]
  refine ⟨_, exec_only rfl (and_named hd hst) e, readData_readOut .., readOut_regs .., ?_⟩
  rw [readOut_cap]
  simp only [mapGetD_mapPut, if_true]

theorem aStrm_inj {d st st' k k' : Nat} (hk : k < 4) (hk' : k' < 4) (h : aStrm d st k = aStrm d st' k') : st = st' ∧ k = k' := by
  unfold aStrm aCap at h
  omega

theorem field_all (s : State) (a : Nat) : s.field a 31 0 = (s.reg a).toNat :=
  Nat.mod_eq_of_lt (s.reg a).isLt

/-- A sequence number that is set reads back, 48 bits wide. -/
theorem nextSeq_setSeq_same (s : State) (d st v : Nat) : (s.setSeq d st v).nextSeq d st = v % 2 ^ 48 := by
  have apart : aStrm d st 0 ≠ aStrm d st 1 := fun h => absurd (aStrm_inj (by decide) (by decide) h).2 (by decide)
  rw [State.nextSeq, field_all, State.setSeq, field_setReg, if_pos rfl, reg_setReg, if_neg apart, reg_setReg, if_pos rfl]
  simp only [getBits, bitsOf, BitVec.toNat_ofNat, Nat.shiftRight_zero]
  omega

theorem nextSeq_setSeq_ne (s : State) {d st st' : Nat} (v : Nat) (h : st' ≠ st) : (s.setSeq d st v).nextSeq d st' = s.nextSeq d st' := by
  have apart : ∀ k k', k < 4 → k' < 4 → aStrm d st' k ≠ aStrm d st k' := fun k k' hk hk' e => h (aStrm_inj hk hk' e).1
  simp only [State.nextSeq, State.setSeq, field_setReg, apart 0 0 (by decide) (by decide), apart 0 1 (by decide) (by decide),
    apart 1 0 (by decide) (by decide), apart 1 1 (by decide) (by decide), if_false]

/-- An ignored write changes no sequence number: it only sets the mark in CAP_CTL (R415). -/
theorem nextSeq_mapIgnored (s : State) (d st : Nat) : (s.mapIgnored d).nextSeq d st = s.nextSeq d st := by
  have apart : ∀ k, aStrm d st k ≠ aCap d 0 := fun k => by
    unfold aStrm aCap
    omega
  rw [State.nextSeq, State.mapIgnored, field_setFlag_ne _ _ _ _ _ _ _ (apart 0), field_setFlag_ne _ _ _ _ _ _ _ (apart 1), State.nextSeq]

section
variable {s : State} {d st : Nat} (hd : d < 2) (hst : st < 16384) (v : Word)
include hd hst

theorem answers_capStrmSeqLoWrite_free (free : s.streamInUse st = false) : Answers (.capStrmSeqLoWrite d st v) s (fun t =>
    t.nextSeq d st = v.toNat + 2 ^ 32 * (mapGetD s.cap.seqHi (16384 * d + st) 0 % 65536)
    ∧ ∀ st', st' < 16384 → st' ≠ st → t.nextSeq d st' = s.nextSeq d st') := by
  have e : s.strmSeqLoWrite d st v = s.setSeq d st (v.toNat + 2 ^ 32 * mapGetD s.cap.seqHi (16384 * d + st) 0) := by
    rw [State.strmSeqLoWrite, if_neg (by omega), if_neg (by simp [free])]
  refine ⟨_, exec_only rfl (and_named hd hst) e, ?_, fun st' _ h => nextSeq_setSeq_ne s _ h⟩
  rw [nextSeq_setSeq_same]
  have hv := v.isLt
  omega

theorem answers_capStrmSeqLoWrite_used (used : s.streamInUse st = true) : Answers (.capStrmSeqLoWrite d st v) s (fun t =>
    t.nextSeq d st = s.nextSeq d st ∧ t.flag (aCap d 0) 31 = true) := by
  have e : s.strmSeqLoWrite d st v = s.mapIgnored d := by
    rw [State.strmSeqLoWrite, if_neg (by omega), if_pos used]
  refine ⟨_, exec_only rfl (and_named hd hst) e, nextSeq_mapIgnored s d st, ?_⟩
  rw [State.mapIgnored, flag_setFlag, if_pos ⟨rfl, by decide, rfl⟩]

end

/-! ### Counters (R678) -/

theorem counter_putCounter (s : State) (d n v m : Nat) :
    (s.putCounter d n v).counter d m = if m = n then v % 2 ^ 48 else s.counter d m := by
  rw [State.counter, State.putCounter]
  dsimp only
  rw [mapGetD_mapPut]
  by_cases h : m = n
  · simp [h]
  · rw [if_neg (by omega), if_neg h, State.counter]

/-- A write of a counter's LO register stores both halves, HI as it stands. -/
theorem answers_cntValLoWrite {s : State} {d n : Nat} (hd : d < 2) (hn : n < 96) (v : Word) : Answers (.cntValLoWrite d n v) s (fun t =>
    t.counter d n = v.toNat + 2 ^ 32 * s.field (aCounter d n + 8) 15 0
    ∧ (∀ m, m < 96 → m ≠ n → t.counter d m = s.counter d m) ∧ t.regs = s.regs) := by
  have e : s.cntValLoWrite d n v = s.putCounter d n (v.toNat + 2 ^ 32 * s.field (aCounter d n + 8) 15 0) := if_neg (by omega)
  refine ⟨_, exec_only rfl (and_named hd hn) e, ?_, fun m _ h => ?_, rfl⟩
  · have hv := v.isLt
    have hi : s.field (aCounter d n + 8) 15 0 < 2 ^ 16 := Nat.mod_lt _ (by decide)
    rw [counter_putCounter, if_pos rfl]
    omega
  · rw [counter_putCounter, if_neg h]

/-! ### The checker of a lane (R545) -/

/-- A read of a counting checker answers what it has counted since it locked. -/
theorem answers_lanPrbsLoRead {s : State} {l n : Nat} (hl : l < 160) (hn : n < 2 ^ 48) (heard : s.silent (aLane l 0x44) = false)
    (on : s.flag (aLane l 0x40) 30 = true) (locked : s.flag (aLane l 0x40) 25 = true) : Answers (.lanPrbsLoRead l false n) s (fun t =>
      t.readData = BitVec.ofNat 32 n ∧ t.reg (aLane l 0x48) = BitVec.ofNat 32 (n / 2 ^ 32)) := by
  have e : s.prbsRead l false n = (((s.putLane l { s.lane l with errs := n }).setReg (aLane l 0x44) (BitVec.ofNat 32 n)).setReg
      (aLane l 0x48) (BitVec.ofNat 32 (n / 2 ^ 32))).readOut n := by
    unfold State.prbsRead
    simp only [heard, on, locked, hn, Bool.false_eq_true, if_false, if_true, Bool.and_self, Bool.not_true]
  refine ⟨_, exec_only rfl (decide_eq_true hl) e, readData_readOut .., ?_⟩
  rw [reg_readOut, reg_setReg, if_pos rfl]

/-- Settles O51: every such read is a latching one but for the streams and the checkers, and the three writes are those of R415, R463
and R678. -/
theorem loRegistersComplete : Obligations.LoRegistersComplete := by
  refine ⟨fun s d hd => ⟨answers_latchRead (exec_seqCycleLoRead hd s),
    fun l k hl hk => answers_latchRead (exec_gauLyrLoRead hd hl hk s),
    fun p hp => answers_latchRead (exec_seqPartBndLoRead hp s), fun k hk => answers_latchRead (exec_memErrAddrLoRead hd hk s),
    fun t ht => answers_latchRead (exec_timSrvOffLoRead ht s), answers_latchRead (exec_timPpsTauLoRead s),
    answers_latchRead (exec_nvsSeqLoRead hd s), fun n hn => answers_latchRead (exec_cntValLoRead hd hn s),
    fun u hu => answers_latchRead (exec_chkResLoRead hd hu s), fun p hp => answers_latchRead (exec_chkAudBatchLoRead hp s),
    fun st hst heard => answers_capStrmSeqLoRead hd hst heard,
    fun l n hl hn heard on locked => answers_lanPrbsLoRead hl hn heard on locked⟩,
    fun s d st n v hd hst hn => ⟨answers_capStrmSeqLoWrite_free hd hst v, answers_capStrmSeqLoWrite_used hd hst v,
      answers_cntValLoWrite hd hn v⟩⟩

end Sys2Proof.Machine

/-! PROOFS. What no command touches: the queue and the part's identity; and which commands hand regions on (R31, R293, R297, R298,
R648). -/

namespace Sys2Proof.Machine

/-- `t` has the queue and the part identity of `s`. -/
def SamePart (s t : State) : Prop := t.pending = s.pending ∧ t.hw = s.hw

theorem SamePart.refl (s : State) : SamePart s s := ⟨rfl, rfl⟩

theorem SamePart.trans {a b c : State} (h : SamePart a b) (k : SamePart b c) : SamePart a c := ⟨k.1.trans h.1, k.2.trans h.2⟩

theorem Same.samePart {s t : State} (h : Same s t) : SamePart s t :=
  have ⟨pending, hw, _⟩ := h
  ⟨pending, hw⟩

theorem Shrinks.samePart {s t : State} (h : Shrinks s t) : SamePart s t :=
  have ⟨pending, hw, _⟩ := h
  ⟨pending, hw⟩

/-! ### What a class I command can do -/

/-- A command that the dispatcher meets either runs on a port that has lost its head, or moves no region. -/
theorem take_runs (s : State) (c : Instr) (f : State → Bool → State) :
    Same s (s.take c f) ∨ ∃ p b, s.take c f = f (s.dropHead p) b := by
  unfold State.take
  split
  · exact .inl (Same.refl s)
  · dsimp only
    split
    · exact .inr ⟨_, _, rfl⟩
    · exact .inl ((same_complete ..).2 ((same_dropHead ..).2 (Same.refl s)))
    · left
      (repeat' split) <;> simp [Same.refl]

/-- A taken command either meets its checks and runs, or moves no region. -/
theorem vet_runs (s : State) (c : Instr) (f : CmdHdr → Nat → State) : Same s (s.vet c f) ∨ ∃ h op, s.vet c f = f h op := by
  unfold State.vet
  split
  · exact .inl (Same.refl s)
  · split
    · exact .inl ((same_complete ..).2 (Same.refl s))
    · exact .inr ⟨_, _, rfl⟩

/-- A class I command keeps the queue and the part identity where its effect does. -/
theorem SamePart.instant (s : State) (c : Instr) (f : State → CmdRes) (k : ∀ t, SamePart t (f t).1) : SamePart s (s.instant c f) := by
  unfold State.instant
  obtain h | ⟨p, b, h⟩ := take_runs s c _
  · exact h.samePart
  have dropped : SamePart s (s.dropHead p) := ((same_dropHead ..).2 (Same.refl s)).samePart
  rw [h]
  refine dropped.trans ?_
  obtain h | ⟨hdr, op, h⟩ := vet_runs (s.dropHead p) c _
  · exact h.samePart
  rw [h]
  dsimp only
  split
  · exact ((same_complete ..).2 (Same.refl _)).samePart
  · refine (k _).trans (Same.samePart ?_)
    split <;> simp [Same.refl]

/-! ### BIND and UNBIND -/

theorem SamePart.leaves (rs : State → Nat → List Nat) (l : List Nat) (s : State) :
    SamePart s (l.foldl (fun s q => s.leave q (rs s q)) s) := by
  induction l generalizing s with
  | nil => exact SamePart.refl s
  | cons q l ih => exact (Shrinks.leave s q (rs s q)).samePart.trans (ih _)

/-- BIND moves regions and no more of what the invariant speaks of (R297, R298). -/
theorem SamePart.bindCmd (s : State) (port : Port) (p : Nat) (mask : BitVec 16) (base size : Nat) :
    SamePart s (s.bindCmd port p mask base size).1 := by
  unfold State.bindCmd
  extract_lets rs genesis named capped fresh born srcs left
  split
  · exact SamePart.refl s
  · have isBorn : SamePart s born := by
      unfold born
      split <;> exact SamePart.refl s
    exact isBorn.trans (SamePart.leaves (fun s q => rs.filter (fun r => decide (s.regionPart r = some q))) srcs born)

theorem SamePart.unbindCmd (s : State) (p : Nat) (mask : BitVec 16) : SamePart s (s.unbindCmd p mask).1 := by
  unfold State.unbindCmd
  extract_lets rs
  split
  · exact SamePart.refl s
  split
  · exact SamePart.refl s
  · exact (Shrinks.leave ..).samePart

/-- No command touches the queue or the part's identity. -/
theorem exec_samePart {c : Instr} {s t : State} (e : exec c s = .next t) : SamePart s t := by
  by_cases bind : ∃ h p rs b n, c = .bind h p rs b n
  · obtain ⟨h, p, rs, b, n, rfl⟩ := bind
    exact Host.Outcome.next.inj e ▸ SamePart.instant s _ _ fun t => SamePart.bindCmd t ..
  by_cases unbind : ∃ h p rs, c = .unbind h p rs
  · obtain ⟨h, p, rs, rfl⟩ := unbind
    exact Host.Outcome.next.inj e ▸ SamePart.instant s _ _ fun t => SamePart.unbindCmd t ..
  by_cases reset : c = .coldReset
  · subst reset
    exact Host.Outcome.next.inj e ▸ (Shrinks.coldReset s).samePart
  · exact (exec_same (fun h p rs b n k => bind ⟨h, p, rs, b, n, k⟩) (fun h p rs k => unbind ⟨h, p, rs, k⟩) reset e).samePart

/-- Settles O6: every command keeps the queue and the part's identity, and all but BIND, UNBIND and cold reset keep the regions too. -/
theorem regionsMoveByBindingAlone : Obligations.RegionsMoveByBindingAlone := by
  intro c s t e
  obtain ⟨pending, hw⟩ := exec_samePart e
  refine ⟨pending, hw, fun bind unbind reset => ?_⟩
  obtain ⟨_, _, regions⟩ := exec_same bind unbind reset e
  exact regions

end Sys2Proof.Machine

/-! PROOFS. Tokens on the move: cluster switches, the die fabric, crossings, the bridge and the sync cells (R37, R46, R161, R218, R220,
R221). -/

namespace Sys2Proof.Machine

/-! ### What leaves the lattice alone -/

/-- What every turn of a loop keeps, the loop keeps. -/
theorem foldl_keeps {β γ : Type} (g : State → γ) (f : State → β → State) (h : ∀ t x, g (f t x) = g t) (l : List β) (s : State) :
    g (l.foldl f s) = g s := by
  induction l generalizing s with
  | nil => rfl
  | cons x l ih => exact (ih (f s x)).trans (h s x)

/-- The same of a loop that carries a value beside the state. -/
theorem foldl_fst_keeps {β γ δ : Type} (g : State → γ) (f : State × δ → β → State × δ) (h : ∀ t x, g (f t x).1 = g t.1) (l : List β)
    (s : State × δ) : g (l.foldl f s).1 = g s.1 := by
  induction l generalizing s with
  | nil => rfl
  | cons x l ih => exact (ih (f s x)).trans (h s x)

theorem ite_lat {c : Prop} [Decidable c] {a t u : State} (h : t.lat = a.lat) (k : u.lat = a.lat) : (if c then t else u).lat = a.lat := by
  split
  · exact h
  · exact k

theorem ite_fst_lat {β : Type} {c : Prop} [Decidable c] {a : State} {x y : State × β} (h : x.1.lat = a.lat) (k : y.1.lat = a.lat) :
    (if c then x else y).1.lat = a.lat := by
  split
  · exact h
  · exact k

@[simp] theorem count_lat (s : State) (d ev n : Nat) (o : Occ) : (s.count d ev n o).lat = s.lat := by rw [CntRegs.count s d ev n o]
@[simp] theorem bucketAdd_lat (s : State) (d k n : Nat) : (s.bucketAdd d k n).lat = s.lat := by rw [PortsRegs.bucketAdd s d k n]
@[simp] theorem fault_lat (s : State) (d : Nat) (f : FaultRec) : (s.fault d f).lat = s.lat := by rw [(FltFrame.fault s d f).1]
@[simp] theorem mapInst_lat (s : State) (i : Nat) (f : Inst → Inst) : (s.mapInst i f).lat = s.lat := rfl
@[simp] theorem raise_lat (s : State) (i : Nat) (f : BitVec 16) : (s.raise i f).lat = s.lat := rfl
@[simp] theorem markLate_lat (s : State) (i : Nat) : (s.markLate i).lat = s.lat := rfl

@[simp] theorem setAlong_lat (s : State) (e : Nat × Nat) : (s.setAlong e).lat = s.lat := ite_lat rfl rfl

@[simp] theorem putRecord_lat (s : State) (a : Nat) (w : Word) (along : List (Nat × Nat)) : (s.putRecord a w along).lat = s.lat :=
  foldl_keeps State.lat _ setAlong_lat along (s.setReg a w)

@[simp] theorem firstRecord_lat (s : State) (a v o : Nat) (along : List (Nat × Nat)) : (s.firstRecord a v o along).lat = s.lat :=
  ite_lat rfl (ite_lat rfl (putRecord_lat ..))

@[simp] theorem stallAt_lat (s : State) (r u i cause : Nat) : (s.stallAt r u i cause).lat = s.lat :=
  (count_lat ..).trans ((firstRecord_lat ..).trans (addReg_lat ..))

@[simp] theorem stall_lat (s : State) (u i cause : Nat) : (s.stall u i cause).lat = s.lat := stallAt_lat ..

@[simp] theorem roFault_lat (s : State) (d code kind key detail u : Nat) (p : Option Nat) (i : Nat) :
    (s.roFault d code kind key detail u p i).lat = s.lat :=
  ite_lat rfl (ite_lat (addField_lat ..) (ite_lat (fault_lat ..) (fault_lat ..)))

@[simp] theorem cfgCheck_lat (s : State) (u i : Nat) (as : List Nat) : (s.cfgCheck u i as).1.lat = s.lat := by
  refine foldl_fst_keeps State.lat _ (fun t w => ?_) as (s, false)
  split
  · exact roFault_lat ..
  · rfl

@[simp] theorem arrive_lat (s : State) (u q : Nat) (f : ElemFmt) (h : Held) : (s.arrive u q f h).1.lat = s.lat := by
  have checked : (if !h.exempt && sideFails f h.tok then s.sideFault u q h else (s, h)).1.lat = s.lat := ite_fst_lat (fault_lat ..) rfl
  unfold State.arrive
  generalize (if !h.exempt && sideFails f h.tok then s.sideFault u q h else (s, h)) = a at checked ⊢
  refine Eq.trans ?_ checked
  obtain ⟨t, x⟩ := a
  exact ite_fst_lat ((fault_lat ..).trans ((count_lat ..).trans ((firstRecord_lat ..).trans (addReg_lat ..)))) rfl

/-! ### An operation that is done, a result that is released -/

@[simp] theorem execOp_lat (s : State) (i d sched : Nat) : (s.execOp i d sched).lat = s.lat := by
  have done : ∀ t : State, (t.opDone i d).lat = t.lat := fun t => by
    unfold State.opDone
    (repeat' split) <;> rfl
  unfold State.execOp
  rw [done]
  split <;> rfl

@[simp] theorem instEnd_lat (s : State) (i : Nat) : (s.instEnd i).lat = s.lat := by
  unfold State.instEnd
  (repeat' split) <;> rfl

@[simp] theorem doOp_lat (s : State) (i d sched : Nat) : (s.doOp i d sched).lat = s.lat := (instEnd_lat ..).trans (execOp_lat ..)

@[simp] theorem ensureBatch_lat (s : State) (p : Nat) : (s.ensureBatch p).lat = s.lat := by
  unfold State.ensureBatch
  (repeat' split) <;> rfl

@[simp] theorem auditPush_lat (s : State) (p : Nat) (e : AuditEntry) : (s.auditPush p e).lat = s.lat := by
  unfold State.auditPush
  extract_lets t u
  have closed : t.lat = s.lat := by
    unfold t
    (repeat' split) <;> rfl
  have opened : u.lat = s.lat := (ensureBatch_lat t p).trans closed
  split <;> exact opened

@[simp] theorem auditFill_lat (s : State) (p i : Nat) (bytes : List Byte) : (s.auditFill p i bytes).lat = s.lat := by
  unfold State.auditFill
  split <;> rfl

@[simp] theorem deepFirst_lat (s : State) (i : Nat) : (s.deepFirst i).lat = s.lat := by
  unfold State.deepFirst
  split
  · rfl
  split
  · rfl
  split
  · rfl
  split
  · rfl
  · exact ite_lat ((firstRecord_lat ..).trans (addReg_lat ..)) rfl

@[simp] theorem firstRelease_lat (s : State) (d : Nat) (x : Inst) : (s.firstRelease d x).lat = s.lat :=
  (deepFirst_lat ..).trans ((auditPush_lat ..).trans (ite_lat ((count_lat ..).trans (count_lat ..)) (count_lat ..)))

@[simp] theorem lateEvent_lat (s : State) (d : Nat) (x : Inst) : (s.lateEvent d x).lat = s.lat :=
  ite_lat ((maxField_lat ..).trans (addReg_lat ..)) rfl

@[simp] theorem mittenForm_lat (s : State) (x : Inst) : (s.mittenForm x).lat = s.lat := by
  unfold State.mittenForm
  (repeat' split) <;> rfl

@[simp] theorem lastRelease_lat (s : State) (d : Nat) (x : Inst) : (s.lastRelease d x).lat = s.lat :=
  (mittenForm_lat ..).trans ((lateEvent_lat ..).trans ((lateEvent_lat ..).trans (auditFill_lat ..)))

@[simp] theorem countRelease_lat (s : State) (d ep late : Nat) (x : Inst) (tok : Token) : (s.countRelease d ep late x tok).lat = s.lat := by
  unfold State.countRelease
  extract_lets taint raised marked counted first released
  have faulted : raised.lat = s.lat := ite_lat rfl (raise_lat ..)
  have h : counted.lat = s.lat := (mapInst_lat ..).trans (ite_lat ((markLate_lat ..).trans faulted) faulted)
  have k : first.lat = s.lat := by
    unfold first
    split
    · exact ite_lat ((firstRelease_lat ..).trans h) h
    · exact h
  split
  · exact ite_lat ((lastRelease_lat ..).trans k) k
  · exact k

@[simp] theorem wylHand_lat (s : State) (d ep c : Nat) (t : Token) : (s.wylHand d ep c t).lat = s.lat := by
  unfold State.wylHand
  split
  · rfl
  · exact ite_lat (addReg_lat ..) rfl

@[simp] theorem putOut_lat (s : State) (p : Nat) (x : OutPort) : (s.putOut p x).lat = s.lat := rfl

@[simp] theorem endFrame_lat (s : State) (p t : Nat) (bad : Bool) (f : OutFrame) : (s.endFrame p t bad f).lat = s.lat := by
  unfold State.endFrame
  extract_lets n b x q lit sent y put counted
  have h : counted.lat = s.lat := (addReg_lat ..).trans ((putOut_lat ..).trans (ite_lat (putOut_lat ..) rfl))
  exact ite_lat ((addReg_lat ..).trans h) h

@[simp] theorem frameToken_lat (s : State) (p : Nat) (x : Inst) (tok : Token) : (s.frameToken p x tok).lat = s.lat := by
  unfold State.frameToken
  extract_lets on t last
  clear_value t
  split
  · exact addReg_lat ..
  · next t _ =>
    extract_lets ended tag f g full
    have h : ended.lat = s.lat := by
      unfold ended
      split
      · exact ite_lat rfl (endFrame_lat ..)
      · rfl
    exact ite_lat ((endFrame_lat ..).trans h) ((putOut_lat ..).trans h)

@[simp] theorem trigOutPulse_lat (s : State) (pin : Nat) : (s.trigOutPulse pin).lat = s.lat := ite_lat rfl rfl

/-- A released result leaves the lattice alone (R48, R522). -/
@[simp] theorem releaseResult_lat (s : State) (d ep due : Nat) (h : Held) : (s.releaseResult d ep due h).lat = s.lat := by
  unfold State.releaseResult
  extract_lets c counted sent
  have k : counted.lat = s.lat := by
    unfold counted
    split
    · exact countRelease_lat ..
    · rfl
  refine (instEnd_lat ..).trans (ite_lat (ite_lat ((trigOutPulse_lat ..).trans k) k) (ite_lat ((wylHand_lat ..).trans k) ?_))
  split
  · exact (frameToken_lat ..).trans k
  · exact k

@[simp] theorem sideWrite_lat (s : State) (k : Nat) (l : Layer) (x : Inst) (es : List (Nat × BitVec 32)) :
    (s.sideWrite k l x es).lat = s.lat := foldl_keeps State.lat (fun s e => s.sideWrite1 k l x e) (fun _ _ => rfl) es s

@[simp] theorem gauTake_lat (s : State) (d e : Nat) (h : Held) : (s.gauTake d e h).lat = s.lat := by
  unfold State.gauTake
  split
  · rfl
  extract_lets lim got
  split
  · rfl
  · exact (sideWrite_lat ..).trans (ite_lat (fault_lat ..) rfl)

/-! ### Crossings (R37, R220) -/

@[simp] theorem latePassage_lat (s : State) (d c : Nat) (p : Passage) : (s.latePassage d c p).lat = s.lat :=
  ite_lat rfl ((markLate_lat ..).trans (addReg_lat ..))

/-- A token that enters a region in lattice mode joins queues of its units, and takes no passage with it. -/
theorem latticeIn_xIn (s : State) (r n : Nat) (h : Held) : (s.latticeIn r n h).lat.xIn = s.lat.xIn := by
  refine foldl_keeps (·.lat.xIn) _ (fun t j => ?_) _ _
  have arrived := arrive_lat t (unitAddr r (8 * n + j / 4) (4 * ((s.cluster (64 * r + 8 * n)).latCount % 4) + j % 4)) 0 .int8 h
  dsimp only
  split
  · split
    · next e => exact (congrArg Lattice.xIn (e ▸ arrived) :)
    · next e => exact (congrArg Lattice.xIn (e ▸ arrived) :)
  · rfl

/-- A token released into an island leaves the passages into the islands as they are. -/
theorem crossIn_xIn (s : State) (d ep c : Nat) (p : Passage) : (s.crossIn d ep c p).lat.xIn = s.lat.xIn := by
  unfold State.crossIn
  dsimp only
  split
  · split
    · exact latticeIn_xIn ..
    · rfl
  · split
    · exact congrArg Lattice.xIn (releaseResult_lat ..)
    · split
      · exact congrArg Lattice.xIn (gauTake_lat ..)
      · rfl

theorem exec_crossingRelease {d ep : Nat} {inward : Bool} {p : Passage} {rest : List Passage} (s : State) (hd : d < 2) (hep : ep < 512)
    (head : mapGetD (if inward then s.lat.xIn else s.lat.xOut) (512 * d + ep) [] = p :: rest) (due : p.rel ≤ s.cycle d)
    (live : s.instLive p.held.inst = true) (wakes : inward = false → s.dead d = false) :
    exec (.crossingRelease d ep inward) s = .next (if inward then s.crossingIn d ep p rest else s.crossingOut d ep p rest) := by
  refine exec_only rfl (and_named hd hep) ?_
  have go : ¬(s.cycle d < p.rel ∨ s.instLive p.held.inst = false ∨ (inward = false ∧ s.dead d = true)) := by
    rintro (late | dead | ⟨out, dead⟩)
    · omega
    · simp [live] at dead
    · simp [wakes out] at dead
  unfold State.crossingRelease
  rw [head]
  exact if_neg go

section
variable {s : State} {d ep : Nat} {p : Passage} {rest : List Passage} (hd : d < 2) (hep : ep < 512) (due : p.rel ≤ s.cycle d)
  (live : s.instLive p.held.inst = true)
include hd hep due live

/-- A token that leaves an island goes from its crossing onto the fabric, and the next one of its path is held a cycle. -/
theorem answers_crossingOut (head : mapGetD s.lat.xOut (512 * d + ep) [] = p :: rest) (awake : s.dead d = false) :
    Answers (.crossingRelease d ep false) s (fun t =>
      mapGetD t.lat.xOut (512 * d + ep) [] = bumpHead (s.cycle d + 1) rest
      ∧ mapGetD t.lat.fabIn (512 * d + ep) [] = mapGetD s.lat.fabIn (512 * d + ep) [] ++ [{ p with rel := s.cycle d }]) := by
  have moved : (s.crossingOut d ep p rest).lat = { s.lat with
      xOut := mapPut s.lat.xOut (512 * d + ep) (bumpHead (s.cycle d + 1) rest) []
      fabIn := mapPut s.lat.fabIn (512 * d + ep) (mapGetD s.lat.fabIn (512 * d + ep) [] ++ [{ p with rel := s.cycle d }]) [] } := by
    rw [State.crossingOut, latePassage_lat]
  refine ⟨_, exec_crossingRelease s hd hep head due live fun _ => awake, ?_⟩
  rw [if_neg (by decide)]
  dsimp only
  rw [moved]
  exact ⟨by rw [mapGetD_mapPut, if_pos rfl], by rw [mapGetD_mapPut, if_pos rfl]⟩

theorem answers_crossingIn (head : mapGetD s.lat.xIn (512 * d + ep) [] = p :: rest) (room : s.islandFree d ep = true)
    (first : s.lowerPort d ep = false) :
    Answers (.crossingRelease d ep true) s (fun t => mapGetD t.lat.xIn (512 * d + ep) [] = bumpHead (s.cycle d + 1) rest) := by
  refine ⟨_, exec_crossingRelease s hd hep head due live (fun e => by cases e), ?_⟩
  rw [if_pos rfl, State.crossingIn]
  dsimp only
  rw [if_neg (by simp [first]), if_neg (by simp [room]), crossIn_xIn]
  simp

end

/-! ### The die bridge (R35, R221) -/

/-- The head of a bridge channel joins the tokens at the port of the other die, whatever the check bits say. -/
theorem bridgeRelease_lat {s : State} {d ch : Nat} (ecc : Nat) {p : Passage} {rest : List Passage}
    (head : mapGetD s.lat.bridge (32 * d + ch) [] = p :: rest) (due : p.rel ≤ s.cycle (1 - d)) (live : s.instLive p.held.inst = true) :
    ∃ x, (s.bridgeRelease d ch ecc).lat = { s.lat with
      bridge := mapPut s.lat.bridge (32 * d + ch) (bumpHead (s.cycle (1 - d) + 1) rest) []
      fabIn := mapPut s.lat.fabIn (512 * (1 - d) + p.src) (mapGetD s.lat.fabIn (512 * (1 - d) + p.src) [] ++ [x]) [] } := by
  unfold State.bridgeRelease
  extract_lets dst c b
  split
  · next empty => exact absurd (empty.symm.trans head) (List.cons_ne_nil _ _).symm
  next p' rest' filled =>
  obtain ⟨rfl, rfl⟩ := List.cons.inj (filled.symm.trans head)
  rw [if_neg (by simp [live, due, c, dst])]
  extract_lets late corrected
  have h : corrected.lat = s.lat :=
    ite_lat ((bucketAdd_lat ..).trans (ite_lat ((markLate_lat ..).trans (addReg_lat ..)) rfl))
      (ite_lat ((markLate_lat ..).trans (addReg_lat ..)) rfl)
  split
  next t x pair =>
  have k : t.lat = s.lat := (congrArg (·.1.lat) pair).symm.trans (ite_fst_lat ((fault_lat ..).trans h) h)
  refine ⟨⟨x, c, c, 0⟩, ?_⟩
  rw [k]

theorem answers_bridgeRelease {s : State} {d ch ecc : Nat} {p : Passage} {rest : List Passage} (hd : d < 2) (hch : ch < 32)
    (head : mapGetD s.lat.bridge (32 * d + ch) [] = p :: rest) (due : p.rel ≤ s.cycle (1 - d)) (live : s.instLive p.held.inst = true) :
    Answers (.bridgeRelease d ch ecc) s (fun t => mapGetD t.lat.bridge (32 * d + ch) [] = bumpHead (s.cycle (1 - d) + 1) rest
      ∧ (mapGetD t.lat.fabIn (512 * (1 - d) + p.src) []).length = (mapGetD s.lat.fabIn (512 * (1 - d) + p.src) []).length + 1) := by
  obtain ⟨x, moved⟩ := bridgeRelease_lat ecc head due live
  refine ⟨_, exec_only rfl (and_named hd hch) rfl, ?_⟩
  dsimp only
  rw [moved]
  exact ⟨by rw [mapGetD_mapPut, if_pos rfl], by rw [mapGetD_mapPut, if_pos rfl, List.length_append, List.length_singleton]⟩

/-! ### The die fabric (R215 to R218) -/

/-- A token that a slot moves joins no queue of tokens for its own die. -/
theorem fabPut_fabIn (s : State) (r t : Nat) (e : DfSlot) (h : Held) {q : Nat} (hq : q < 4096) :
    mapGetD (s.fabPut r t e h).lat.fabIn q [] = mapGetD s.lat.fabIn q [] := by
  unfold State.fabPut
  extract_lets d a s push
  split
  · rfl
  split
  · refine mapGetD_mapPut_ne _ _ _ _ _ _ ?_
    rw [fabQueue, if_pos rfl]
    omega
  split <;> rfl

/-- A slot that moves a token takes it from its source, and from no other source of tokens for the same die. -/
theorem fabMove_fabIn (s : State) (r src : Nat) (br : Bool) (es : List DfSlot) (x : Inst) (m : FabMove) (p : Passage)
    (rest : List Passage) {q : Nat} (hq : q < 4096) : mapGetD (s.fabMove r src br es x m p rest).lat.fabIn q []
      = if q = fabQueue (r / 8) src br then rest else mapGetD s.lat.fabIn q [] := by
  unfold State.fabMove
  extract_lets d f source used taken marked
  split
  next t bad check =>
  extract_lets h o
  have checked : t.lat = marked.lat := (congrArg (·.1.lat) check).symm.trans (cfgCheck_lat ..)
  refine (foldl_keeps (fun t => mapGetD t.lat.fabIn q []) _ (fun t e => ?_) es t).trans ?_
  · rw [doOp_lat, fabPut_fabIn _ _ _ _ _ hq, count_lat]
  · rw [checked]
    exact mapGetD_mapPut ..

theorem putWait_fabIn (s : State) (key : Nat) (w : SlotWait) : (s.putWait key w).lat.fabIn = s.lat.fabIn := rfl

theorem wylAbsent_fabIn (s : State) (r src : Nat) (es : List DfSlot) : (s.wylAbsent r src es).lat.fabIn = s.lat.fabIn := by
  unfold State.wylAbsent
  extract_lets d due
  split
  · split
    · rfl
    · rw [putWait_fabIn, markLate_lat, addReg_lat]
  · rfl

/-- The entries for the other die leave the tokens for this one where they are. -/
theorem fabGroup_across_fabIn (s : State) (r src : Nat) {q : Nat} (hq : q < 4096) :
    mapGetD (s.fabGroup r src true).lat.fabIn q [] = mapGetD s.lat.fabIn q [] := by
  have apart : q ≠ fabQueue (r / 8) src true := by
    rw [fabQueue, if_pos rfl]
    omega
  unfold State.fabGroup
  extract_lets d es
  split
  · rfl
  split
  · rw [wylAbsent_fabIn]
  split
  · rfl
  split
  · rw [fabMove_fabIn _ _ _ _ _ _ _ _ _ hq, if_neg apart]
  · rfl

/-- The head of a source moves where its slots are due and all of them are free. -/
theorem fabGroup_moves {s : State} {r src : Nat} {br : Bool} {p : Passage} {rest : List Passage} {x : Inst} {m : FabMove}
    (named : s.dfSlots r (s.cycle (r / 8) % 64) src br ≠ [])
    (free : ∀ e ∈ s.dfSlots r (s.cycle (r / 8) % 64) src br, s.fabFree r e = true)
    (head : s.fabHead (r / 8) src br = some (p, rest)) (due : s.fabDue (r / 8) src br p.held = some (x, m)) (here : m.region = r)
    (dsts : m.dsts = dfDsts (s.dfSlots r (s.cycle (r / 8) % 64) src br)) :
    s.fabGroup r src br = s.fabMove r src br (s.dfSlots r (s.cycle (r / 8) % 64) src br) x m p rest := by
  unfold State.fabGroup
  extract_lets d es
  rw [if_neg (by simpa [es, d] using named), show s.fabHead d src br = _ from head]
  dsimp only
  rw [show s.fabDue d src br p.held = _ from due]
  exact if_pos ⟨here, dsts, List.all_eq_true.2 free⟩

theorem answers_fabricSlot {s : State} {d r src : Nat} {p : Passage} {rest : List Passage} {x : Inst} {m : FabMove} (hd : d < 2)
    (hr : r < 8) (hsrc : src < 512) (live : s.regionLive (8 * d + r) = true)
    (named : s.dfSlots (8 * d + r) (s.cycle d % 64) src false ≠ [])
    (free : ∀ e ∈ s.dfSlots (8 * d + r) (s.cycle d % 64) src false, s.fabFree (8 * d + r) e = true)
    (head : s.fabHead d src false = some (p, rest)) (due : s.fabDue d src false p.held = some (x, m)) (here : m.region = 8 * d + r)
    (dsts : m.dsts = dfDsts (s.dfSlots (8 * d + r) (s.cycle d % 64) src false)) :
    Answers (.fabricSlot d r src) s (fun t => mapGetD t.lat.fabIn (fabQueue d src false) [] = rest) := by
  have die : (8 * d + r) / 8 = d := by omega
  have small : fabQueue d src false < 4096 := by
    simp only [fabQueue, Bool.false_eq_true, if_false]
    omega
  have moved := fabGroup_moves (s := s) (r := 8 * d + r) (src := src) (br := false) (by rwa [die]) (by rwa [die]) (by rwa [die])
    (by rwa [die]) here (by rwa [die])
  refine ⟨_, exec_only rfl (Bool.and_eq_true_iff.2 ⟨and_named hd hr, decide_eq_true hsrc⟩) (if_pos live), ?_⟩
  dsimp only
  rw [fabGroup_across_fabIn _ _ _ small, moved, fabMove_fabIn _ _ _ _ _ _ _ _ _ small, die, if_pos rfl]

/-! ### Destinations of a switch (R160)

The branches of `State.switchFree` one by one: its recursion is met in the last alone, so each is read off the definition itself. -/

theorem switchFree_queue (s : State) (n k f : Nat) {dst : Nat} (h : dst < 80) :
    s.switchFree n k f dst = s.queueFree (32 * k + dst / 4) (dst % 4) (s.now + 1) := by
  delta State.switchFree
  cases n <;> exact if_pos h

theorem switchFree_scale (s : State) (n k f : Nat) : s.switchFree n k f 80
    = (decide ((s.cluster k).scaleQ.length < pathDepth) && (s.cluster k).scaleQ.all (fun h => decide (h.since ≠ s.now + 1))) := by
  delta State.switchFree
  cases n <;> rfl

theorem switchFree_row (s : State) (n k f : Nat) : s.switchFree n k f 81 = true := by
  delta State.switchFree
  cases n <;> rfl

theorem switchFree_out {s : State} (n : Nat) {k : Nat} (f : Nat) {dst p : Nat} (h : 81 < dst) (edge : neighbour k (dst - 82) = .inr p) :
   s.switchFree n k f dst = decide (s.outCount (512 * (k / 512) + edgeEp (k / 64) (dst - 82) p) < pathDepth) := by
  obtain ⟨h1, h2, h3⟩ : ¬ dst < 80 ∧ ¬ dst = 80 ∧ ¬ dst = 81 := by omega
  delta State.switchFree
  cases n <;>
  · refine (if_neg h1).trans ((if_neg h2).trans ((if_neg h3).trans ?_))
    rw [edge]

theorem switchFree_last {s : State} {k : Nat} (f : Nat) {dst m : Nat} (h : 81 < dst) (edge : neighbour k (dst - 82) = .inl m) :
   s.switchFree 0 k f dst = s.sideTakes (fun _ => true) m ((dst - 80) % 4) f := by
  obtain ⟨h1, h2, h3⟩ : ¬ dst < 80 ∧ ¬ dst = 80 ∧ ¬ dst = 81 := by omega
  delta State.switchFree
  refine (if_neg h1).trans ((if_neg h2).trans ((if_neg h3).trans ?_))
  rw [edge]

theorem switchFree_side {s : State} (n : Nat) {k : Nat} (f : Nat) {dst m : Nat} (h : 81 < dst) (edge : neighbour k (dst - 82) = .inl m) :
   s.switchFree (n + 1) k f dst = s.sideTakes (fun t => s.switchFree n m f t) m ((dst - 80) % 4) f := by
  obtain ⟨h1, h2, h3⟩ : ¬ dst < 80 ∧ ¬ dst = 80 ∧ ¬ dst = 81 := by omega
  delta State.switchFree
  refine (if_neg h1).trans ((if_neg h2).trans ((if_neg h3).trans ?_))
  rw [edge]

/-! ### What a switch asks of the lattice (R148, R160) -/

/-- The switches find in `t` what they find in `a`: the lattice, the held tokens of the merge points, the cycle and the
configuration words of the regions. -/
structure SwitchesAs (a t : State) : Prop where
  lat : t.lat = a.lat
  gau : t.gau = a.gau
  now : t.now = a.now
  regs : ∀ r o, o < 0x400000 → t.reg (aLat r o) = a.reg (aLat r o)

theorem SwitchesAs.refl (s : State) : SwitchesAs s s := ⟨rfl, rfl, rfl, fun _ _ _ => rfl⟩

theorem SwitchesAs.trans {a b c : State} (h : SwitchesAs a b) (k : SwitchesAs b c) : SwitchesAs a c :=
  ⟨k.lat.trans h.lat, k.gau.trans h.gau, k.now.trans h.now, fun r o ho => (k.regs r o ho).trans (h.regs r o ho)⟩

theorem aLat_ne_aFlt {r o d k : Nat} (ho : o < 0x400000) (hk : k < 0x10000) : aLat r o ≠ aFlt d k := by
  unfold aLat aFlt dieBase
  omega

theorem SwitchesAs.addField_flt (s : State) (d k hi lo n : Nat) (hk : k < 0x10000) : SwitchesAs s (s.addField (aFlt d k) hi lo n) :=
  ⟨addField_lat .., addField_gau .., addField_now .., fun _ _ ho => reg_addField_ne _ _ _ _ _ _ (aLat_ne_aFlt ho hk)⟩

theorem SwitchesAs.flt (s : State) (x : Integrity) : SwitchesAs s { s with flt := x } := ⟨rfl, rfl, rfl, fun _ _ _ => rfl⟩

/-- A fault that only taints is logged or counted, and the switches see nothing of it. -/
theorem SwitchesAs.fault (s : State) (d : Nat) {f : FaultRec} (h : f.action = .taint) : SwitchesAs s (s.fault d f) := by
  unfold State.fault
  extract_lets q unit logged
  rw [if_neg (by simp [h])]
  unfold logged
  split
  · exact SwitchesAs.addField_flt s d 0x214 31 0 1 (by decide)
  · exact SwitchesAs.flt ..

theorem SwitchesAs.rwFault (s : State) (d detail u i : Nat) : SwitchesAs s (s.rwFault d detail u i) := by
  unfold State.rwFault
  split
  exact SwitchesAs.fault s d rfl

theorem SwitchesAs.roFault (s : State) (d code kind key detail u : Nat) (p : Option Nat) (i : Nat) :
    SwitchesAs s (s.roFault d code kind key detail u p i) := by
  unfold State.roFault
  extract_lets q
  split
  · exact SwitchesAs.refl s
  split
  · exact SwitchesAs.addField_flt s d 0x18 31 16 1 (by decide)
  split
  next st sq _ =>
  extract_lets faulted
  have h : SwitchesAs s faulted := SwitchesAs.fault s d rfl
  split
  · exact h
  · exact h.trans (SwitchesAs.flt ..)

theorem SwitchesAs.rowPayload (s : State) (k row : Nat) : SwitchesAs s (s.rowPayload k row).1 := by
  unfold State.rowPayload
  split
  · exact ⟨rfl, rfl, rfl, fun _ _ _ => rfl⟩
  · exact SwitchesAs.refl s

/-- A row that is read gives its token, and the switches find the rest as it was. -/
theorem SwitchesAs.sramToken (s : State) (k row i : Nat) : SwitchesAs s (s.sramToken k row i).1 := by
  unfold State.sramToken
  split
  next t pay bad read =>
  have h : SwitchesAs s t := (congrArg (·.1) read : (s.rowPayload k row).1 = t) ▸ SwitchesAs.rowPayload s k row
  extract_lets side u wr checked side'
  have k : SwitchesAs s checked := by
    unfold checked
    split
    · split
      · exact h.trans (SwitchesAs.rwFault ..)
      · exact h.trans (SwitchesAs.roFault ..)
    · exact h
  exact k.trans ⟨rfl, rfl, rfl, fun _ _ _ => rfl⟩

section
variable {s t : State} (same : SwitchesAs s t)
include same

theorem SwitchesAs.field {r o : Nat} (ho : o < 0x400000) (hi lo : Nat) : t.field (aLat r o) hi lo = s.field (aLat r o) hi lo := by
  rw [State.field, same.regs r o ho, State.field]

theorem SwitchesAs.unitField (u : Nat) {o : Nat} (ho : o < 0x40) (hi lo : Nat) : t.field (aUnit u o) hi lo = s.field (aUnit u o) hi lo := by
  refine same.field ?_ hi lo
  unfold uCluster uUnit
  omega

theorem SwitchesAs.queueFree (u q a : Nat) : t.queueFree u q a = s.queueFree u q a := by
  have gated : t.uGated u = s.uGated u := by
    rw [State.uGated, State.uKind, State.regionMode, same.unitField u (by decide), same.field (by decide)]
    rfl
  have depth : t.uDepth u q = s.uDepth u q := by
    rw [State.uDepth, gated, same.unitField u (by decide), same.unitField u (by decide)]
    rfl
  rw [State.queueFree, depth, State.unit, State.mergeHeld, same.lat, same.gau]
  rfl

theorem SwitchesAs.switchEntries (k : Nat) {f : Nat} (hf : f < 64) (src : Nat) : t.switchEntries k f src = s.switchEntries k f src := by
  refine List.filterMap_congr fun l hl => ?_
  have word : t.reg (aSwSlot k (8 * f + l)) = s.reg (aSwSlot k (8 * f + l)) := same.regs _ _ (by
    have := List.mem_range.1 hl
    omega)
  dsimp only
  rw [word]

theorem SwitchesAs.waitAllows (key : Nat) (dsts : List Nat) : t.waitAllows key dsts = s.waitAllows key dsts := by
  rw [State.waitAllows, same.lat, State.waitAllows]

theorem SwitchesAs.cluster (k : Nat) : t.cluster k = s.cluster k := by
  rw [State.cluster, same.lat, State.cluster]

theorem SwitchesAs.sideTakes (go : Nat → Bool) (k d : Nat) {f : Nat} (hf : f < 64) : t.sideTakes go k d f = s.sideTakes go k d f := by
  unfold State.sideTakes
  rw [same.cluster, same.switchEntries k hf]
  split
  · rfl
  · dsimp only
    rw [same.waitAllows, same.now]
  · rfl

/-- A destination has room in `t` where it has room in `s`. -/
theorem SwitchesAs.switchFree (fuel k : Nat) {f : Nat} (hf : f < 64) (dst : Nat) :
    t.switchFree fuel k f dst = s.switchFree fuel k f dst := by
  have out : ∀ key, t.outCount key = s.outCount key := fun key => by
    rw [State.outCount, same.lat, State.outCount]
  have level : ∀ n k dst, (∀ m, 81 < dst → neighbour k (dst - 82) = .inl m → t.switchFree n k f dst = s.switchFree n k f dst) →
      t.switchFree n k f dst = s.switchFree n k f dst := fun n k dst side => by
    rcases (by omega : dst < 80 ∨ dst = 80 ∨ dst = 81 ∨ 81 < dst) with h | rfl | rfl | h
    · rw [switchFree_queue t n k f h, switchFree_queue s n k f h, same.queueFree, same.now]
    · rw [switchFree_scale, switchFree_scale, same.cluster, same.now]
    · rw [switchFree_row, switchFree_row]
    · cases edge : neighbour k (dst - 82) with
      | inl m => exact side m h edge
      | inr p => rw [switchFree_out n f h edge, switchFree_out n f h edge, out]
  induction fuel generalizing k dst with
  | zero =>
    refine level 0 k dst fun m h edge => ?_
    rw [switchFree_last f h edge, switchFree_last f h edge, same.sideTakes _ _ _ hf]
  | succ n ih =>
    refine level (n + 1) k dst fun m h edge => ?_
    have on : (fun x => t.switchFree n m f x) = fun x => s.switchFree n m f x := funext (ih m)
    rw [switchFree_side n f h edge, switchFree_side n f h edge, same.sideTakes _ _ _ hf, on]

end

/-! ### Moves of the switch (R160, R161) -/

theorem unit_of_lat {s t : State} (h : t.lat = s.lat) (v : Nat) : t.unit v = s.unit v := by
  rw [State.unit, h, State.unit]

theorem setQueue_out0 (x : UnitState) (q : Nat) (l : List Held) : (x.setQueue q l).out0 = x.out0 := by
  unfold UnitState.setQueue
  split <;> rfl

theorem putQueue_out0 (s : State) (u q : Nat) (l : List Held) (v : Nat) :
    ((s.putUnit u ((s.unit u).setQueue q l)).unit v).out0 = (s.unit v).out0 := by
  rw [unit_putUnit]
  split
  · next same => rw [setQueue_out0, same]
  · rfl

/-- A token that a queue takes leaves every output buffer as it is. -/
theorem enqueue_out0 (s : State) (u q : Nat) (h : Held) (v : Nat) : ((s.enqueue u q h).unit v).out0 = (s.unit v).out0 := by
  unfold State.enqueue
  extract_lets put
  split
  · exact putQueue_out0 ..
  split
  · split
    · exact putQueue_out0 ..
    · rfl
  · rfl

theorem deliver_out0 (s : State) (u q : Nat) (h : Held) (v : Nat) : ((s.deliver u q h).unit v).out0 = (s.unit v).out0 := by
  have arrived := arrive_lat s u q (s.uFmt u q) h
  unfold State.deliver
  split
  · next t x e => rw [enqueue_out0, unit_of_lat (e ▸ arrived)]
  · next t e => rw [unit_of_lat (e ▸ arrived)]

theorem deliverScale_unit (s : State) (k : Nat) (h : Held) (v : Nat) : (s.deliverScale k h).unit v = s.unit v := by
  have arrived := arrive_lat s (32 * k + 20) 0 .int8 h
  unfold State.deliverScale
  split
  · next t x e =>
    refine Eq.trans ?_ (unit_of_lat (e ▸ arrived) v)
    dsimp only
    split <;> rfl
  · next t e => exact unit_of_lat ((congrArg (·.1.lat) e).symm.trans arrived) v

/-- A transfer of the switch leaves every output buffer as it is. -/
theorem switchPut_out0 (s : State) (k : Nat) (e : Nat × Nat) (c n : Nat) (h : Held) (v : Nat) :
    ((s.switchPut k e c n h).unit v).out0 = (s.unit v).out0 := by
  unfold State.switchPut
  extract_lets w dst h
  split
  · exact deliver_out0 ..
  split
  · rw [deliverScale_unit]
  split
  · rfl
  split <;> rfl

theorem bankTake_unit (s : State) (k w i n v : Nat) : (s.bankTake k w i n).unit v = s.unit v := by
  unfold State.bankTake
  extract_lets lat banked
  have taken : banked.unit v = s.unit v := rfl
  have stalls : ((List.range n).foldl (fun s _ => s.stall (32 * k) i 3) banked).lat = banked.lat :=
    foldl_keeps State.lat _ (fun _ _ => stall_lat ..) _ _
  split
  · exact taken
  · exact (unit_of_lat ((markLate_lat ..).trans stalls) v).trans taken

/-- A source that may move and finds room for its token at every destination moves it, and no output buffer but its own changes. -/
theorem switchMove_moves {s : State} {k f : Nat} (src : Nat) {key : Nat} {es : List (Nat × Nat)} (h : Held) (pop : Bool)
    (allows : s.waitAllows key (switchDsts es) = true) (free : ∀ e ∈ es, s.switchFree 64 k f (bitsOf e.2 24 18) = true) :
    ∃ t, s.switchMove k f src key es h pop = (t, true)
      ∧ ∀ v, (t.unit v).out0 = ((if pop then s.switchPop k src else s).unit v).out0 := by
  have room : es.find? (fun e => !s.switchFree 64 k f (bitsOf e.2 24 18)) = none :=
    List.find?_eq_none.2 fun e he => by simp [free e he]
  unfold State.switchMove
  extract_lets c ds popped dropped u
  rw [if_neg (by simp [ds, allows])]
  split
  · next e found => exact absurd (found.symm.trans room) (Option.some_ne_none _)
  split
  next t bad check =>
  extract_lets h counted dues marked
  split
  next w n taken =>
  refine ⟨_, rfl, fun v => ?_⟩
  have checked : t.unit v = dropped.unit v := unit_of_lat ((congrArg (·.1.lat) check).symm.trans (cfgCheck_lat ..)) v
  have noted : marked.unit v = t.unit v := unit_of_lat (ite_lat ((markLate_lat ..).trans (count_lat ..)) (count_lat ..)) v
  have banked : w.unit v = marked.unit v := by
    split at taken
    · obtain rfl : marked.bankTake _ _ _ _ = w := congrArg Prod.fst taken
      exact bankTake_unit ..
    · obtain rfl : marked = w := congrArg Prod.fst taken
      rfl
  refine (foldl_keeps (fun t => (t.unit v).out0) _ (fun _ _ => switchPut_out0 ..) es w).trans ?_
  rw [banked, noted, checked]
  rfl

theorem switchNote_unit (s : State) (k i : Nat) (es : List (Nat × Nat)) (v : Nat) : (s.switchNote k i es).unit v = s.unit v := by
  unfold State.switchNote
  refine foldl_keeps (·.unit v) _ (fun t e => ?_) es s
  rfl

theorem switchPop_out0 (s : State) (k : Nat) {src : Nat} (h : src < 20) :
    ((s.switchPop k src).unit (32 * k + src)).out0 = (s.unit (32 * k + src)).out0.drop 1 := by
  rw [State.switchPop, if_pos h, unit_putUnit, if_pos rfl]

theorem exec_switchSlot {r c : Nat} (s : State) (src : Nat) (hr : r < 16) (hc : c < 64) :
    exec (.switchSlot r c src) s = .next (s.switchSlot (64 * r + c) src) :=
  exec_only rfl (and_named hr hc) rfl

/-- A switch slot moves the head of its port where its destinations have room. -/
theorem answers_switchSlot {s : State} {r c src : Nat} {h : Held} (hr : r < 16) (hc : c < 64) (hsrc : src < 20)
    (live : s.regionLive r = true) (head : s.switchHead (64 * r + c) src = some h)
    (named : s.switchEntries (64 * r + c) (s.cycle ((64 * r + c) / 512) % 64) src ≠ [])
    (allows : s.waitAllows (switchKey (64 * r + c) src)
      (switchDsts (s.switchEntries (64 * r + c) (s.cycle ((64 * r + c) / 512) % 64) src)) = true)
    (free : ∀ e ∈ s.switchEntries (64 * r + c) (s.cycle ((64 * r + c) / 512) % 64) src,
      s.switchFree 64 (64 * r + c) (s.cycle ((64 * r + c) / 512) % 64) (bitsOf e.2 24 18) = true) :
    Answers (.switchSlot r c src) s (fun t =>
      (t.unit (32 * (64 * r + c) + src)).out0 = (s.unit (32 * (64 * r + c) + src)).out0.drop 1) := by
  obtain ⟨t, moves, kept⟩ := switchMove_moves src h true allows free
  refine ⟨_, exec_switchSlot s src hr hc, ?_⟩
  have region : (64 * r + c) / 64 = r := by omega
  unfold State.switchSlot
  extract_lets f es
  rw [if_neg (by simp [region, live]), if_neg (by omega)]
  split
  · next e rest h' entries head' =>
    obtain rfl : h = h' := Option.some.inj (head.symm.trans head')
    rw [show s.switchMove (64 * r + c) f src (switchKey (64 * r + c) src) es h true = (t, true) from moves]
    dsimp only
    rw [switchNote_unit, kept, if_pos rfl, switchPop_out0 s _ hsrc]
  · next nothing =>
    obtain ⟨e, rest, entries⟩ := List.exists_cons_of_ne_nil named
    exact absurd head (nothing e rest h entries)

/-! ### Reads of cluster SRAM (R160, R164) -/

/-- A single entry that reads a row of cluster SRAM is the only read of its cycle. -/
theorem sramReads_single {s : State} {k f : Nat} {e : Nat × Nat} (h : s.switchEntries k f 40 = [e]) :
    s.sramReads k f = s.sramRead1 k f [e] e := by
  simp [State.sramReads, h]

theorem switchNote_served (s : State) (k i : Nat) (e : Nat × Nat) :
    mapGet (s.switchNote k i [e]).lat.memServed (2 ^ 24 + 512 * k + e.1) = some i :=
  (mapGet_mapSet ..).trans (if_pos rfl)

/-- A read of a row of cluster SRAM is noted for the event that it serves. -/
theorem answers_switchSlot_sram {s : State} {r c : Nat} {e : Nat × Nat} {x : Inst} (hr : r < 16) (hc : c < 64)
    (live : s.regionLive r = true) (only : s.switchEntries (64 * r + c) (s.cycle ((64 * r + c) / 512) % 64) 40 = [e])
    (free : s.switchFree 64 (64 * r + c) (s.cycle ((64 * r + c) / 512) % 64) (bitsOf e.2 24 18) = true)
    (allows : s.waitAllows (2 ^ 24 + 512 * (64 * r + c) + e.1) (switchDsts [e]) = true)
    (serves : s.sramServes (64 * r + c) (s.cycle ((64 * r + c) / 512) % 64) e = some x) :
    Answers (.switchSlot r c 40) s (fun t => mapGet t.lat.memServed (2 ^ 24 + 512 * (64 * r + c) + e.1) = some x.id) := by
  refine ⟨_, exec_switchSlot s 40 hr hc, ?_⟩
  have region : (64 * r + c) / 64 = r := by omega
  have frame : s.cycle ((64 * r + c) / 512) % 64 < 64 := Nat.mod_lt _ (by decide)
  unfold State.switchSlot
  extract_lets f
  rw [if_neg (by simp [region, live]), if_pos rfl, sramReads_single only]
  unfold State.sramRead1
  split
  · next nobody => exact absurd (nobody.symm.trans serves) (Option.some_ne_none _).symm
  next x' serves' =>
  obtain rfl : x' = x := Option.some.inj (serves'.symm.trans serves)
  split
  next t h token =>
  have same : SwitchesAs s t := by
    have read := SwitchesAs.sramToken s (64 * r + c) (512 * bitsOf e.2 17 13 + bitsOf e.2 12 4) x'.id
    rwa [token] at read
  extract_lets n
  obtain ⟨u, moves, _⟩ := switchMove_moves (s := t) (f := f) 40 { h with since := t.now + 1 + n } false
    ((same.waitAllows ..).trans allows) (es := [e]) (fun e' he => by
      rw [List.mem_singleton.1 he, same.switchFree 64 _ frame, free])
  rw [moves]
  exact switchNote_served ..

/-! ### Sync cells (R46) -/

theorem insertBy_perm {α : Type} (f : α → Nat) (x : α) (l : List α) : (insertBy f x l).Perm (x :: l) := by
  induction l with
  | nil => exact .refl _
  | cons y l ih =>
    rw [insertBy]
    split
    · exact .refl _
    · exact (ih.cons y).trans (.swap x y l)

/-- An element that is put in its place leaves the rest in order. -/
theorem insertBy_pairwise {α : Type} (f : α → Nat) (x : α) {l : List α} (h : l.Pairwise (fun a b => f a ≤ f b)) :
    (insertBy f x l).Pairwise (fun a b => f a ≤ f b) := by
  induction l with
  | nil => exact List.pairwise_singleton ..
  | cons y l ih =>
    obtain ⟨low, sorted⟩ := List.pairwise_cons.1 h
    rw [insertBy]
    split
    · next lt =>
      refine List.pairwise_cons.2 ⟨fun z hz => ?_, h⟩
      rcases List.mem_cons.1 hz with rfl | hz
      · exact lt.le
      · exact lt.le.trans (low z hz)
    · next ge =>
      refine List.pairwise_cons.2 ⟨fun z hz => ?_, ih sorted⟩
      rcases List.mem_cons.1 ((insertBy_perm f x l).mem_iff.1 hz) with rfl | hz
      · exact Nat.le_of_not_lt ge
      · exact low z hz

/-- The order of R46: by cycle and, within one, by logical region. -/
theorem syncKey_le_iff {x y : SyncOp} (hx : x.lregion < 2 ^ 16) (hy : y.lregion < 2 ^ 16) :
    2 ^ 16 * x.cycle + x.lregion ≤ 2 ^ 16 * y.cycle + y.lregion
      ↔ x.cycle < y.cycle ∨ (x.cycle = y.cycle ∧ x.lregion ≤ y.lregion) := by
  omega

theorem syncPut_sync (s : State) (d a r : Nat) (k : Token) : mapGetD (s.syncPut d a r k).lat.sync d []
    = insertBy (fun v => 2 ^ 16 * v.cycle + v.lregion) ⟨a, s.field (aLat r 0) 15 0, k⟩ (mapGetD s.lat.sync d []) := by
  simp [State.syncPut, mapGetD]

/-- A token that reaches the sync cells takes its place in the order of R46. -/
theorem syncPut_inOrder (s : State) (d a r : Nat) (k : Token)
    (sorted : (mapGetD s.lat.sync d []).Pairwise (fun x y => x.cycle < y.cycle ∨ (x.cycle = y.cycle ∧ x.lregion ≤ y.lregion)))
    (small : ∀ o ∈ mapGetD s.lat.sync d [], o.lregion < 2 ^ 16) :
    (mapGetD (s.syncPut d a r k).lat.sync d []).Pairwise
      (fun x y => x.cycle < y.cycle ∨ (x.cycle = y.cycle ∧ x.lregion ≤ y.lregion)) := by
  have field : s.field (aLat r 0) 15 0 < 2 ^ 16 := Nat.mod_lt _ (by decide)
  have byKey := sorted.imp_of_mem fun hx hy => (syncKey_le_iff (small _ hx) (small _ hy)).2
  rw [syncPut_sync]
  refine (insertBy_pairwise _ _ byKey).imp_of_mem fun {x y} hx hy => (syncKey_le_iff ?_ ?_).1
  · rcases List.mem_cons.1 ((insertBy_perm ..).mem_iff.1 hx) with rfl | hx
    · exact field
    · exact small x hx
  · rcases List.mem_cons.1 ((insertBy_perm ..).mem_iff.1 hy) with rfl | hy
    · exact field
    · exact small y hy

/-- Settles O32: a switch slot, a fabric slot, a crossing and a bridge channel each hand their head token on, and the sync cells take
theirs in the order of R46. -/
theorem fabricComplete : Obligations.FabricComplete := by
  refine ⟨fun s d hd => ⟨fun r c src h hr hc hsrc live head => ?_, fun r c e x hr hc live => ?_,
    fun r src p rest x m hr hsrc live => ?_, fun ep p rest hep due live => ⟨?_, ?_⟩, fun ch ecc p rest hch head due live => ?_⟩,
    fun s d a r k => ?_⟩
  · exact fun named allows free => answers_switchSlot hr hc hsrc live head named allows free
  · exact fun only free allows serves => answers_switchSlot_sram hr hc live only free allows serves
  · exact fun named free head due here dsts => answers_fabricSlot hd hr hsrc live named free head due here dsts
  · exact fun head awake => answers_crossingOut hd hep due live head awake
  · exact fun head room first => answers_crossingIn hd hep due live head room first
  · exact answers_bridgeRelease hd hch head due live
  · exact fun sorted small => ⟨syncPut_inOrder s d a r k sorted small, syncPut_sync s d a r k ▸ insertBy_perm ..⟩

end Sys2Proof.Machine

/-! PROOFS. FMAX and FMIN over fp32 terms (R72): the order key of a term follows its value, and the fold over the terms is an extremum
of that key. -/

namespace Sys2Proof.Machine

/-! ### The value of an fp32 word (R54) -/

/-- The magnitude, in steps of 2^-149, of the finite words whose lower 31 bits are `k`. -/
def f32Steps (k : ℕ) : ℕ := if k / 2 ^ 23 = 0 then k % 2 ^ 23 else (k % 2 ^ 23 + 2 ^ 23) * 2 ^ (k / 2 ^ 23 - 1)

/-- The magnitude of the words whose lower 31 bits are `k`. -/
noncomputable def f32Mag (k : ℕ) : EReal := if k / 2 ^ 23 = 255 then ⊤ else ((f32Steps k * 2 ^ (-149 : ℤ) : ℝ) : EReal)

/-- The value of a word; NaN has none. -/
noncomputable def f32Value (v : BitVec 32) : EReal :=
  match f32 v with
  | .nan => (⊥ : EReal)
  | .inf n => if n then ⊥ else ⊤
  | .fin n m e => (((if n then -(m : ℝ) else m) * 2 ^ e : ℝ) : EReal)

/-- `v` has sign bit `n` and the lower 31 bits `k`. -/
def F32Bits (v : BitVec 32) (n : Bool) (k : ℕ) : Prop := k < 2 ^ 31 ∧ v.toNat = bitOf n * 2 ^ 31 + k

theorem exists_f32Bits (v : BitVec 32) : ∃ n k, F32Bits v n k := by
  have word := v.isLt
  rcases lt_or_ge v.toNat (2 ^ 31) with low | high
  · exact ⟨false, v.toNat, low, (Nat.zero_add _).symm⟩
  · exact ⟨true, v.toNat - 2 ^ 31, by omega, (Nat.add_sub_cancel' high).symm⟩

section
variable {v : BitVec 32} {n : Bool} {k : ℕ} (b : F32Bits v n k)
include b

theorem f32_eq_of_bits :
    f32 v = if k / 2 ^ 23 = 255 then (if k % 2 ^ 23 = 0 then .inf n else .nan)
      else fpFinite fp32Fmt n (k / 2 ^ 23) (k % 2 ^ 23) := by
  obtain ⟨hk, hv⟩ := b
  have mantissa : v.toNat % 2 ^ 23 = k % 2 ^ 23 := by omega
  have exponent : v.toNat / 2 ^ 23 % 2 ^ 8 = k / 2 ^ 23 := by omega
  have sign : v.toNat / 2 ^ 31 % 2 = 1 ↔ n = true := by cases n <;> simp [bitOf] at hv ⊢ <;> omega
  have widths : fp32Fmt.p - 1 = 23 ∧ fp32Fmt.eb = 8 := ⟨rfl, rfl⟩
  simp only [f32, fpDecode, widths, Nat.reduceAdd, mantissa, exponent, sign, Bool.decide_eq_true]
  rfl

theorem f32_ne_nan_iff : f32 v ≠ .nan ↔ k ≤ 255 * 2 ^ 23 := by
  have hk := b.1
  rw [f32_eq_of_bits b, fpFinite]
  split_ifs <;> simp <;> omega

theorem f32Key_eq_of_bits : f32Key v = if n then -(k : ℤ) - 1 else k := by
  obtain ⟨hk, hv⟩ := b
  cases n <;> simp only [bitOf, f32Key, Bool.false_eq_true, if_false, if_true] at hv ⊢ <;> split_ifs <;> omega

theorem f32_finite_of_bits (finite : k / 2 ^ 23 ≠ 255) :
    ∃ m e, f32 v = .fin n m e ∧ (m * 2 ^ e : ℝ) = f32Steps k * 2 ^ (-149 : ℤ) := by
  rw [f32_eq_of_bits b, if_neg finite, fpFinite, f32Steps]
  split_ifs
  · exact ⟨_, _, rfl, rfl⟩
  · refine ⟨_, _, rfl, ?_⟩
    have exponent : fp32Fmt.sub + (k / 2 ^ 23 : ℕ) - 1 = (k / 2 ^ 23 - 1 : ℕ) + (-149) := by
      rw [show fp32Fmt.sub = -149 from rfl]; omega
    rw [exponent, zpow_add₀ two_ne_zero, zpow_natCast, ← mul_assoc, Nat.cast_mul, Nat.cast_pow]
    rfl

theorem f32Value_eq_of_bits (num : f32 v ≠ .nan) : f32Value v = if n then -f32Mag k else f32Mag k := by
  rw [f32Mag]
  by_cases top : k / 2 ^ 23 = 255
  · have infinite : f32 v = .inf n := by
      rw [f32_eq_of_bits b, if_pos top] at num ⊢
      split_ifs at num ⊢ <;> trivial
    rw [f32Value, infinite, if_pos top, EReal.neg_top]
  · obtain ⟨m, e, finite, scaled⟩ := f32_finite_of_bits b top
    rw [f32Value, finite, if_neg top, ← scaled]
    cases n
    · rfl
    · simp only [if_true, neg_mul, EReal.coe_neg]

end

theorem f32Steps_strictMono : StrictMono f32Steps := by
  refine strictMono_nat_of_lt_succ fun k => ?_
  have low : k % 2 ^ 23 < 2 ^ 23 := Nat.mod_lt _ (by decide)
  rw [f32Steps, f32Steps]
  by_cases carry : k % 2 ^ 23 + 1 = 2 ^ 23
  · have exponent : (k + 1) / 2 ^ 23 = k / 2 ^ 23 + 1 := by omega
    have mantissa : (k + 1) % 2 ^ 23 = 0 := by omega
    rw [exponent, mantissa, if_neg (Nat.succ_ne_zero _), zero_add, Nat.add_sub_cancel]
    cases k / 2 ^ 23 with
    | zero => simpa using low
    | succ e =>
      calc (k % 2 ^ 23 + 2 ^ 23) * 2 ^ e < (2 ^ 23 * 2) * 2 ^ e := by gcongr; omega
        _ = 2 ^ 23 * 2 ^ (e + 1) := by ring
  · have exponent : (k + 1) / 2 ^ 23 = k / 2 ^ 23 := by omega
    have mantissa : (k + 1) % 2 ^ 23 = k % 2 ^ 23 + 1 := by omega
    rw [exponent, mantissa]
    split_ifs
    · exact Nat.lt_succ_self _
    · gcongr
      exact Nat.lt_succ_self _

theorem f32Mag_zero : f32Mag 0 = 0 := by simp [f32Mag, f32Steps]

theorem f32Mag_nonneg (k : ℕ) : 0 ≤ f32Mag k := by
  rw [f32Mag]
  split_ifs
  · exact le_top
  · exact EReal.coe_nonneg.2 (by positivity)

theorem f32Mag_lt {j k : ℕ} (hk : k ≤ 255 * 2 ^ 23) (h : j < k) : f32Mag j < f32Mag k := by
  have finite : j / 2 ^ 23 ≠ 255 := by omega
  rw [f32Mag, f32Mag, if_neg finite]
  split_ifs
  · exact EReal.coe_lt_top _
  · have steps : (f32Steps j : ℝ) < f32Steps k := by exact_mod_cast f32Steps_strictMono h
    exact EReal.coe_lt_coe_iff.2 (by gcongr)

/-! ### The order of the terms (R72) -/

/-- `a` is `b` or comes before it: by value, −0 before +0. -/
def f32Below (a b : BitVec 32) : Prop :=
  f32Value a < f32Value b ∨ (f32Value a = f32Value b ∧ (a = b ∨ (a = 0x80000000#32 ∧ b = 0#32)))

theorem f32Key_injective : Function.Injective f32Key := by
  intro a b h
  have := a.isLt
  have := b.isLt
  unfold f32Key at h
  apply BitVec.eq_of_toNat_eq
  split_ifs at h <;> omega

theorem f32Below_of_key_le {a b : BitVec 32} (ha : f32 a ≠ .nan) (hb : f32 b ≠ .nan) (h : f32Key a ≤ f32Key b) : f32Below a b := by
  obtain ⟨n, j, bitsA⟩ := exists_f32Bits a
  obtain ⟨m, k, bitsB⟩ := exists_f32Bits b
  have hj := (f32_ne_nan_iff bitsA).1 ha
  have hk := (f32_ne_nan_iff bitsB).1 hb
  rcases h.eq_or_lt with same | lt
  · obtain rfl := f32Key_injective same
    exact .inr ⟨rfl, .inl rfl⟩
  rw [f32Key_eq_of_bits bitsA, f32Key_eq_of_bits bitsB] at lt
  rw [f32Below, f32Value_eq_of_bits bitsA ha, f32Value_eq_of_bits bitsB hb]
  cases n <;> cases m <;> simp only [Bool.false_eq_true, if_false, if_true] at lt ⊢
  case false.false => exact .inl (f32Mag_lt hk (by omega))
  case false.true => omega
  case true.true => exact .inl (EReal.neg_lt_neg_iff.2 (f32Mag_lt hj (by omega)))
  case true.false =>
    by_cases zeros : j = 0 ∧ k = 0
    · obtain ⟨rfl, rfl⟩ := zeros
      exact .inr ⟨by rw [f32Mag_zero, neg_zero], .inr ⟨BitVec.eq_of_toNat_eq bitsA.2, BitVec.eq_of_toNat_eq bitsB.2⟩⟩
    · left
      rcases Nat.eq_zero_or_pos j with rfl | pos
      · rw [f32Mag_zero, neg_zero, ← f32Mag_zero]
        exact f32Mag_lt hk (by omega)
      · have neg : -f32Mag j < 0 := EReal.neg_lt_zero.2 (f32Mag_zero ▸ f32Mag_lt hj pos)
        exact neg.trans_le (f32Mag_nonneg k)

/-! ### The fold over the terms -/

/-- The terms that are no NaN. -/
def f32Numbers (xs : List (BitVec 32)) : List (BitVec 32) := xs.filter fun x => decide (f32 x ≠ .nan)

theorem mem_f32Numbers {x : BitVec 32} {xs : List (BitVec 32)} : x ∈ f32Numbers xs ↔ x ∈ xs ∧ f32 x ≠ .nan := by
  simp [f32Numbers]

/-- The number of least or greatest key, if there is a number. -/
noncomputable def f32Extremum (least : Bool) (xs : List (BitVec 32)) : Option (BitVec 32) :=
  if least then (f32Numbers xs).argmin f32Key else (f32Numbers xs).argmax f32Key

/-- A fold that starts from a first term needs no option. -/
theorem foldl_argAux_some {α : Type} (r : α → α → Prop) [DecidableRel r] (y : α) (ys : List α) :
    ys.foldl (List.argAux r) (some y) = some (ys.foldl (fun a x => if r x a then x else a) y) :=
  List.foldl_hom some fun a x => (apply_ite some (r x a) x a).symm

/-- FMAX and FMIN return the extremum of the key. -/
theorem fExtreme_eq_extremum (least : Bool) (xs : List (BitVec 32)) :
    fExtreme least xs = ((f32Extremum least xs).map fun v => (v, [])).getD (f32NaN, [.fpNan]) := by
  rw [f32Extremum, fExtreme, ← f32Numbers]
  cases f32Numbers xs with
  | nil => cases least <;> rfl
  | cons y ys =>
    cases least
    case false =>
      have max : (y :: ys).argmax f32Key = some (ys.foldl (fun a x => if f32Key a < f32Key x then x else a) y) :=
        foldl_argAux_some _ y ys
      simp [max]
    case true =>
      have min : (y :: ys).argmin f32Key = some (ys.foldl (fun a x => if f32Key x < f32Key a then x else a) y) :=
        foldl_argAux_some _ y ys
      simp [min]

/-- The two outcomes: all terms are NaN, or the result is a number of theirs that comes last, or first, among the numbers. -/
theorem fExtreme_cases (least : Bool) (xs : List (BitVec 32)) :
    ((∀ x ∈ xs, f32 x = .nan) ∧ fExtreme least xs = (f32NaN, [.fpNan]))
    ∨ ∃ v ∈ xs, f32 v ≠ .nan ∧ fExtreme least xs = (v, [])
      ∧ ∀ x ∈ xs, f32 x ≠ .nan → if least then f32Key v ≤ f32Key x else f32Key x ≤ f32Key v := by
  rw [fExtreme_eq_extremum]
  cases found : f32Extremum least xs with
  | none =>
    have empty : f32Numbers xs = [] := by cases least <;> simpa [f32Extremum] using found
    refine .inl ⟨fun x hx => ?_, rfl⟩
    by_contra num
    exact List.not_mem_nil (empty ▸ mem_f32Numbers.2 ⟨hx, num⟩)
  | some v =>
    cases least
    case false =>
      have max : v ∈ (f32Numbers xs).argmax f32Key := found
      obtain ⟨hv, num⟩ := mem_f32Numbers.1 (List.argmax_mem max)
      exact .inr ⟨v, hv, num, rfl, fun x hx hn => List.le_of_mem_argmax (mem_f32Numbers.2 ⟨hx, hn⟩) max⟩
    case true =>
      have min : v ∈ (f32Numbers xs).argmin f32Key := found
      obtain ⟨hv, num⟩ := mem_f32Numbers.1 (List.argmin_mem min)
      exact .inr ⟨v, hv, num, rfl, fun x hx hn => List.le_of_mem_argmin (mem_f32Numbers.2 ⟨hx, hn⟩) min⟩

/-- The order of arrival does not matter: no two words share a key. -/
theorem fExtreme_perm (least : Bool) {xs ys : List (BitVec 32)} (perm : xs.Perm ys) : fExtreme least xs = fExtreme least ys := by
  rcases fExtreme_cases least xs with ⟨nans, hx⟩ | ⟨v, hv, vnum, hx, vbound⟩ <;>
    rcases fExtreme_cases least ys with ⟨nans', hy⟩ | ⟨w, hw, wnum, hy, wbound⟩
  · rw [hx, hy]
  · exact absurd (nans w (perm.mem_iff.2 hw)) wnum
  · exact absurd (nans' v (perm.mem_iff.1 hv)) vnum
  · have vw := vbound w (perm.mem_iff.2 hw) wnum
    have wv := wbound v (perm.mem_iff.1 hv) vnum
    have key : f32Key v = f32Key w := by cases least <;> simp at vw wv <;> omega
    rw [hx, hy, f32Key_injective key]

/-- Settles O19: the order key of R72 orders the numbers by value, and FMAX and FMIN return the one number of greatest or least key. -/
theorem extremesIgnoreOrder : Obligations.ExtremesIgnoreOrder := by
  intro least xs ys perm
  refine ⟨fExtreme_perm least perm, ?_⟩
  rcases fExtreme_cases least xs with ⟨nans, result⟩ | ⟨v, hv, num, result, bound⟩
  · exact ⟨fun _ => result, fun ⟨x, hx, hn⟩ => absurd (nans x hx) hn⟩
  · rw [result]
    refine ⟨fun nans => absurd (nans v hv) num, fun _ => ⟨rfl, hv, num, fun x hx hn => ?_⟩⟩
    have le := bound x hx hn
    split_ifs at le ⊢
    · exact f32Below_of_key_le num hn le
    · exact f32Below_of_key_le hn num le

end Sys2Proof.Machine

/-! PROOFS. Clears of the gauntlet lane's counters (R139): one effect behind the register and both rows. -/

namespace Sys2Proof.Machine

/-- A change that leaves every key leaves an entry where it was. -/
theorem mapGet_map_of_keys {α : Type} {f : Nat × α → Nat × α} (keys : ∀ e, (f e).1 = e.1) (m : AMap α) (k : Nat) :
    mapGet (m.map f) k = (mapGet m k).map (fun v => (f (k, v)).2) := by
  induction m with
  | nil => rfl
  | cons e m ih =>
    obtain ⟨j, v⟩ := e
    have split : f (j, v) = (j, (f (j, v)).2) := Prod.ext (keys _) rfl
    rw [List.map_cons, split, mapGet_cons, mapGet_cons, ih]
    by_cases h : j = k
    · simp [h]
    · simp [h]

theorem exec_clrTrip {d : Nat} (hd : d < 2) (s : State) : exec (.clrTrip d) s = .next (s.clrLayers d true false) :=
  exec_only rfl (decide_eq_true hd) rfl

theorem exec_clrOver {d : Nat} (hd : d < 2) (s : State) : exec (.clrOver d) s = .next (s.clrLayers d false true) :=
  exec_only rfl (decide_eq_true hd) rfl

/-- GAU_CTR_CLR is a register of both dies. -/
theorem regRow_gauCtrClr {d : Nat} (hd : d < 2) : (regRow (aGau d 0x40)).isSome = true := by
  interval_cases d <;> rfl

theorem aGau_inside {d : Nat} (hd : d < 2) :
    aGau d 0x40 < 2 ^ 28 ∧ addrOff (aGau d 0x40) = 0x780040 ∧ addrDie (aGau d 0x40) = d := by
  unfold aGau dieBase addrOff addrDie
  omega

/-- A write of GAU_CTR_CLR clears by its bits 0 and 1. -/
theorem regWrite_gauCtrClr {d : Nat} (hd : d < 2) (s : State) (g : Agent) (v : Word) :
    s.regWrite g (aGau d 0x40) v = s.clrLayers d (v.getLsbD 0) (v.getLsbD 1) := by
  obtain ⟨-, off, die⟩ := aGau_inside hd
  unfold State.regWrite
  simp only [off, die, BitVec.testBit_toNat]
  rfl

theorem exec_gauCtrClr {d : Nat} (hd : d < 2) (s : State) (g : Agent) (v : Word) (may : agentMay g (aGau d 0x40) = true) :
    exec (.registerWrite g (aGau d 0x40) v true) s = .next (s.clrLayers d (v.getLsbD 0) (v.getLsbD 1)) := by
  obtain ⟨r, row⟩ := Option.isSome_iff_exists.1 (regRow_gauCtrClr hd)
  rw [exec_registerWrite (aGau_inside hd).1, if_pos rfl, agentWrite_of_row row may, regWrite_gauCtrClr hd]

/-- Settles O14: the register and both rows clear the layers of the die, each by its own bits. -/
theorem gauntletCounterClears : Obligations.GauntletCounterClears :=
  fun s _ v hd => ⟨fun g may => exec_gauCtrClr hd s g v may, exec_clrTrip hd s, exec_clrOver hd s⟩

/-- What stands in a layer slot after a clear. -/
theorem mapGet_clrLayers (s : State) (d : Nat) (trip overs : Bool) (k : Nat) :
    mapGet (s.clrLayers d trip overs).gau.layers k = (mapGet s.gau.layers k).map (fun l => if k / 64 = d then
      { l with trip := if trip then 0 else l.trip, overs := if overs then 0 else l.overs } else l) := by
  refine (mapGet_map_of_keys (fun e => ?_) s.gau.layers k).trans ?_
  · split <;> rfl
  · congr 1
    funext l
    simp only [apply_ite Prod.snd]

/-- What stands in a slot after a clear stood there before, with its counters cleared on the die. -/
theorem slot_of_clrLayers {s : State} {d : Nat} {trip overs : Bool} {k : Nat} {l : Layer}
    (h : mapGet (s.clrLayers d trip overs).gau.layers k = some l) : ∃ l0, mapGet s.gau.layers k = some l0
      ∧ (l.trip = if k / 64 = d then (if trip then 0 else l0.trip) else l0.trip)
      ∧ (l.overs = if k / 64 = d then (if overs then 0 else l0.overs) else l0.overs) := by
  rw [mapGet_clrLayers, Option.map_eq_some_iff] at h
  obtain ⟨l0, h0, rfl⟩ := h
  refine ⟨l0, h0, ?_⟩
  split <;> exact ⟨rfl, rfl⟩

end Sys2Proof.Machine

/-! PROOFS. Weight tiles position by position (R107), and the sideband parity as a linear code (R146). -/

namespace Sys2Proof.Machine

/-! ### Tiles (R107) -/

section
variable (wfmt : Nat) (esc : Bool) (area : List Byte)

/-- Escapes that stand before position `p` of a tile. -/
def escapesBelow (p : Nat) : Nat := ((List.range p).filter (fun q => tileEscape wfmt esc (tileCode wfmt area q))).length

/-- What position `p` of a tile decodes to: the side list's next value at an escape, else the stored code. -/
def tileAt (p : Nat) : Nat × Bool :=
  if tileEscape wfmt esc (tileCode wfmt area p) then (fieldLE area (0x400 + 2 * escapesBelow wfmt esc area p) 2, true)
  else (tileCode wfmt area p, false)

theorem escapesBelow_succ (p : Nat) : escapesBelow wfmt esc area (p + 1)
    = if tileEscape wfmt esc (tileCode wfmt area p) then escapesBelow wfmt esc area p + 1 else escapesBelow wfmt esc area p := by
  unfold escapesBelow
  rw [List.range_succ, List.filter_append, List.length_append, List.filter_singleton]
  cases tileEscape wfmt esc (tileCode wfmt area p) <;> rfl

/-- The decoder's count of escapes is the number of those before its position. -/
theorem decodeTileFrom_eq_map (n p : Nat) : decodeTileFrom wfmt esc area n p (escapesBelow wfmt esc area p)
    = (List.range' p n).map (tileAt wfmt esc area) := by
  induction n generalizing p with
  | zero => rfl
  | succ n ih =>
    have next := ih (p + 1)
    rw [escapesBelow_succ] at next
    rw [decodeTileFrom, List.range'_succ, List.map_cons, ← next, tileAt]
    split <;> rfl

theorem decodeTile_getElem? {p : Nat} (h : p < 256) : (decodeTile wfmt esc area)[p]? = some (tileAt wfmt esc area p) := by
  have all : decodeTile wfmt esc area = (List.range' 0 256).map (tileAt wfmt esc area) := decodeTileFrom_eq_map wfmt esc area 256 0
  rw [all, List.getElem?_map, List.getElem?_range' h]
  simp

end

/-! ### Sideband parity (R146) -/

theorem parityOf_xor (n v w : Nat) : parityOf n (v ^^^ w) = (parityOf n v ^^ parityOf n w) := by
  induction n with
  | zero => rfl
  | succ n ih =>
    rw [parityOf, parityOf, parityOf, ih, Nat.testBit_xor]
    cases v.testBit n <;> cases w.testBit n <;> simp

/-- Bit `k` of the parity nibble is the parity of the `k`-th group of seven bits. -/
theorem testBit_sidePar (v : Nat) {k : Nat} (h : k < 4) : (sidePar v).testBit k = parityOf 7 (v >>> (7 * k)) := by
  have nibble : ∀ p0 p1 p2 p3 : Bool, ∀ k, k < 4 →
      (0 + bitOf p0 * 2 ^ 0 + bitOf p1 * 2 ^ 1 + bitOf p2 * 2 ^ 2 + bitOf p3 * 2 ^ 3).testBit k = [p0, p1, p2, p3].getD k false := by decide
  refine (nibble _ _ _ _ k h).trans ?_
  interval_cases k <;> rfl

theorem sidePar_lt (v : Nat) : sidePar v < 2 ^ 4 := by
  have bit : ∀ b : Bool, bitOf b ≤ 1 := by decide
  have sum : sidePar v = 0 + bitOf (parityOf 7 (v >>> 0)) * 2 ^ 0 + bitOf (parityOf 7 (v >>> 7)) * 2 ^ 1
    + bitOf (parityOf 7 (v >>> 14)) * 2 ^ 2 + bitOf (parityOf 7 (v >>> 21)) * 2 ^ 3 := rfl
  have := bit (parityOf 7 (v >>> 0))
  have := bit (parityOf 7 (v >>> 7))
  have := bit (parityOf 7 (v >>> 14))
  have := bit (parityOf 7 (v >>> 21))
  omega

/-- The layout of a sealed sideband: its 28 bits as they were, and bit `28 + k` the even parity of bits `7k` to `7k + 6`. -/
theorem getLsbD_sideSeal (b : Nat) {j : Nat} (h : j < 32) :
    (sideSeal b).getLsbD j = if j < 28 then b.testBit j else parityOf 7 ((b % 2 ^ 28) >>> (7 * (j - 28))) := by
  rw [sideSeal, BitVec.getLsbD_ofNat, decide_eq_true h, Bool.true_and, Nat.add_comm, Nat.mul_comm,
    Nat.testBit_two_pow_mul_add _ (Nat.mod_lt b (by decide))]
  split
  · next low => rw [Nat.testBit_mod_two_pow, decide_eq_true low, Bool.true_and]
  · rw [testBit_sidePar _ (by omega)]

/-- Sealing is linear: parities add. -/
theorem sideSeal_xor (a b : Nat) : sideSeal (a ^^^ b) = sideSeal a ^^^ sideSeal b := by
  refine BitVec.eq_of_getLsbD_eq fun j h => ?_
  rw [BitVec.getLsbD_xor, getLsbD_sideSeal _ h, getLsbD_sideSeal _ h, getLsbD_sideSeal _ h]
  split
  · rw [Nat.testBit_xor]
  · rw [Nat.xor_mod_two_pow, Nat.shiftRight_xor_distrib, parityOf_xor]

/-- A sealed word is the seal of itself. -/
theorem sideSeal_toNat_sideSeal (b : Nat) : sideSeal (sideSeal b).toNat = sideSeal b := by
  have low : (sideSeal b).toNat % 2 ^ 28 = b % 2 ^ 28 := by
    have par := sidePar_lt (b % 2 ^ 28)
    rw [sideSeal, BitVec.toNat_ofNat]
    omega
  rw [sideSeal, low, ← sideSeal]

/-- The word with one bit set is no sealed word. -/
theorem sideSeal_single {i : Nat} (h : i < 32) : sideSeal (1#32 <<< i).toNat ≠ 1#32 <<< i := by
  revert i
  decide

/-- Settles O20: the decoder counts escapes as it goes, and the parity is a linear code in which no single bit is a word. -/
theorem tilesAndParity : Obligations.TilesAndParity := by
  refine ⟨fun wfmt esc area p h => decodeTile_getElem? wfmt esc area h, fun b i h => ⟨?_, ?_⟩⟩
  · exact decide_eq_true (sideSeal_toNat_sideSeal b).symm
  · refine decide_eq_false fun whole => sideSeal_single h ?_
    rw [BitVec.toNat_xor, sideSeal_xor, sideSeal_toNat_sideSeal] at whole
    exact (BitVec.xor_right_inj _).1 whole.symm

end Sys2Proof.Machine

/-! PROOFS. Counters, snapshots, pops and check-value units as software drives them (R139, R504, R677, R679, R680, R684, R688, R690). -/

namespace Sys2Proof.Machine

/-! ### Clears and pops (R139, R504, R684) -/

theorem answers_clrTrip {d : Nat} (hd : d < 2) (s : State) : Answers (.clrTrip d) s (fun t =>
    ∀ k l, mapGet t.gau.layers k = some l → ∃ l0, mapGet s.gau.layers k = some l0
      ∧ (l.trip = if k / 64 = d then 0 else l0.trip) ∧ l.overs = l0.overs) := by
  refine ⟨_, exec_clrTrip hd s, fun k l h => ?_⟩
  obtain ⟨l0, slot, trip, overs⟩ := slot_of_clrLayers h
  exact ⟨l0, slot, by simpa using trip, by simpa using overs⟩

theorem answers_clrOver {d : Nat} (hd : d < 2) (s : State) : Answers (.clrOver d) s (fun t =>
    ∀ k l, mapGet t.gau.layers k = some l → ∃ l0, mapGet s.gau.layers k = some l0
      ∧ (l.overs = if k / 64 = d then 0 else l0.overs) ∧ l.trip = l0.trip) := by
  refine ⟨_, exec_clrOver hd s, fun k l h => ?_⟩
  obtain ⟨l0, slot, trip, overs⟩ := slot_of_clrLayers h
  exact ⟨l0, slot, by simpa using overs, by simpa using trip⟩

theorem answers_cntSmpPop {d : Nat} (hd : d < 2) (s : State) : Answers (.cntSmpPop d) s (fun t =>
    mapGetD t.cnt.samples d [] = (mapGetD s.cnt.samples d []).drop 1 ∧ t.cnt.val = s.cnt.val) := by
  refine ⟨_, exec_only rfl (decide_eq_true hd) rfl, ?_, rfl⟩
  simp only [State.cntSmpPop, mapGetD_mapPut, if_true]

theorem answers_fltLogPop {d : Nat} (hd : d < 2) (s : State) : Answers (.fltLogPop d) s (fun t =>
    mapGetD t.flt.logs d [] = (mapGetD s.flt.logs d []).drop 1
      ∧ mapGetD t.flt.logs (1 - d) [] = mapGetD s.flt.logs (1 - d) []) := by
  refine ⟨_, exec_only rfl (decide_eq_true hd) rfl, ?_, ?_⟩
  · simp only [State.fltPop, mapGetD_mapPut, if_true]
  · simp only [State.fltPop, mapGetD_mapPut, if_neg (show 1 - d ≠ d by omega)]

/-! ### Snapshots (R679, R680) -/

/-- Store a 64-bit value in the register pair at `a`. -/
def State.snapPair (s : State) (a v : Nat) : State :=
  (s.setReg a (BitVec.ofNat 32 v)).setReg (a + 4) (BitVec.ofNat 32 (v / 2 ^ 32))

theorem reg_snapPair (s : State) (a v b : Nat) : (s.snapPair a v).reg b
    = if b = a + 4 then BitVec.ofNat 32 (v / 2 ^ 32) else if b = a then BitVec.ofNat 32 v else s.reg b := by
  simp only [State.snapPair, reg_setReg]

/-- `t` has the counters of `s`, and its registers outside `n` bytes from `base`. -/
structure SnapFrame (base n : Nat) (s t : State) : Prop where
  cnt : t.cnt = s.cnt
  reg : ∀ a, (a < base ∨ base + n ≤ a) → t.reg a = s.reg a

theorem SnapFrame.refl (base n : Nat) (s : State) : SnapFrame base n s s := ⟨rfl, fun _ _ => rfl⟩

theorem SnapFrame.widen {base n m : Nat} {s t : State} (h : SnapFrame base n s t) (le : n ≤ m) : SnapFrame base m s t :=
  ⟨h.cnt, fun a ha => h.reg a (by omega)⟩

theorem SnapFrame.snapPair (s : State) (a v : Nat) : SnapFrame a 8 s (s.snapPair a v) :=
  ⟨rfl, fun b h => by rw [reg_snapPair, if_neg (by omega), if_neg (by omega)]⟩

/-- Store `n` pairs in turn, each with a value of the state that the pairs before it leave. -/
def State.snapBlock (s : State) (n : Nat) (addr : Nat → Nat) (val : State → Nat → Nat) : State :=
  (List.range n).foldl (fun t k => t.snapPair (addr k) (val t k)) s

theorem snapBlock_succ (s : State) (n : Nat) (addr : Nat → Nat) (val : State → Nat → Nat) :
    s.snapBlock (n + 1) addr val = (s.snapBlock n addr val).snapPair (addr n) (val (s.snapBlock n addr val) n) := by
  rw [State.snapBlock, List.range_succ, List.foldl_append]
  rfl

/-- Where no pair changes what the values are read from, a block holds the values as they were at the start, and nothing else
changes. -/
theorem snapBlock_holds {s : State} {base : Nat} {addr : Nat → Nat} {val : State → Nat → Nat} (place : ∀ k, addr k = base + 8 * k)
    (n : Nat) (steady : ∀ t k, k < n → SnapFrame base (8 * n) s t → val t k = val s k) :
    SnapFrame base (8 * n) s (s.snapBlock n addr val)
    ∧ ∀ k, k < n → (s.snapBlock n addr val).reg (addr k) = BitVec.ofNat 32 (val s k) := by
  induction n with
  | zero => exact ⟨SnapFrame.refl .., fun k h => absurd h (Nat.not_lt_zero k)⟩
  | succ n ih =>
    obtain ⟨frame, held⟩ := ih fun t k hk h => steady t k (Nat.lt_succ_of_lt hk) (h.widen (by omega))
    rw [snapBlock_succ]
    generalize s.snapBlock n addr val = t at frame held ⊢
    have now : val t n = val s n := steady t n (Nat.lt_succ_self n) (frame.widen (by omega))
    refine ⟨⟨frame.cnt, fun a ha => ?_⟩, fun k hk => ?_⟩
    · rw [reg_snapPair, place, if_neg (by omega), if_neg (by omega), frame.reg a (by omega)]
    · rw [reg_snapPair, place n, place k, if_neg (by omega)]
      split
      · next same => rw [now, show n = k by omega]
      · rw [← place, held k (by omega)]

theorem counter_of_cnt {s t : State} (h : t.cnt = s.cnt) (d k : Nat) : t.counter d k = s.counter d k := by
  rw [State.counter, h, State.counter]

/-- SNAP writes the cycle count, then the counters of the die and those of its cores. -/
theorem cntSnap_eq {d : Nat} (hd : d < 2) (s : State) : s.cntSnap d
    = ((s.snapPair (aCnt d 4) (s.cycle d)).snapBlock 64 (fun k => aCnt d (0x2000 + 8 * k)) (fun t k => t.counter d k)).snapBlock 32
        (fun k => aCnt d (0x2200 + 8 * k)) (fun t k => t.counter d (64 + k)) := by
  rw [State.cntSnap, if_neg (by omega)]
  rfl

theorem answers_cntSnap {d : Nat} (hd : d < 2) (s : State) : Answers (.cntSnap d) s (fun t =>
    t.reg (aCnt d 4) = BitVec.ofNat 32 (s.cycle d) ∧ t.cnt = s.cnt
      ∧ (∀ k, k < 64 → t.reg (aCnt d (0x2000 + 8 * k)) = BitVec.ofNat 32 (s.counter d k))
      ∧ (∀ k, k < 32 → t.reg (aCnt d (0x2200 + 8 * k)) = BitVec.ofNat 32 (s.counter d (64 + k)))) := by
  have at2 : ∀ k, aCnt d (0x2000 + 8 * k) = aCnt d 0x2000 + 8 * k := fun k => by unfold aCnt; omega
  have at3 : ∀ k, aCnt d (0x2200 + 8 * k) = aCnt d 0x2000 + 0x200 + 8 * k := fun k => by unfold aCnt; omega
  have low : aCnt d 4 < aCnt d 0x2000 := by unfold aCnt; omega
  refine ⟨_, exec_only rfl (decide_eq_true hd) (cntSnap_eq hd s), ?_⟩
  have cnt1 := (SnapFrame.snapPair s (aCnt d 4) (s.cycle d)).cnt
  have held1 : (s.snapPair (aCnt d 4) (s.cycle d)).reg (aCnt d 4) = BitVec.ofNat 32 (s.cycle d) := by
    rw [reg_snapPair, if_neg (by omega), if_pos rfl]
  generalize s.snapPair (aCnt d 4) (s.cycle d) = s1 at cnt1 held1 ⊢
  obtain ⟨⟨cnt2, out2⟩, held2⟩ := snapBlock_holds (s := s1) (val := fun t k => t.counter d k) at2 64
    (fun t k _ h => counter_of_cnt h.cnt d k)
  generalize s1.snapBlock 64 _ _ = s2 at cnt2 out2 held2 ⊢
  obtain ⟨⟨cnt3, out3⟩, held3⟩ := snapBlock_holds (s := s2) (val := fun t k => t.counter d (64 + k)) at3 32
    (fun t k _ h => counter_of_cnt h.cnt d (64 + k))
  refine ⟨?_, cnt3.trans (cnt2.trans cnt1), fun k hk => ?_, fun k hk => ?_⟩
  · rw [out3 _ (by omega), out2 _ (by omega), held1]
  · rw [out3 _ (by rw [at2]; omega), held2 k hk, counter_of_cnt cnt1]
  · rw [held3 k hk, counter_of_cnt (cnt2.trans cnt1)]

/-- What the user page of partition `p` shows of counter `k`: its value where it counts for that partition alone, else 0 (R680). -/
def State.pageCount (s : State) (d p k : Nat) : Nat :=
  let c := cntCfg d k
  if s.flag c 31 ∧ s.flag c 28 ∧ s.field c 27 24 = p then s.counter d k else 0

/-- What lies below a snapshot's block stays, and so does what the page shows. -/
theorem pageCount_of_frame {s t : State} {base n d k : Nat} (h : SnapFrame base n s t) (below : cntCfg d k < base) (p : Nat) :
    t.pageCount d p k = s.pageCount d p k := by
  have reg : t.reg (cntCfg d k) = s.reg (cntCfg d k) := h.reg _ (.inl below)
  have flag : ∀ i, t.flag (cntCfg d k) i = s.flag (cntCfg d k) i := fun i => by rw [State.flag, reg, State.flag]
  exact if_congr (by rw [flag, flag, State.field, reg, State.field]) (counter_of_cnt h.cnt d k) rfl

theorem cntUpSnap_eq {l d p : Nat} (hd : d < 2) (hp : p < 16) {s : State} (live : s.pageLive l d p = true) : s.cntUpSnap l d p
    = (s.snapPair (aCnt d (0x10008 + 0x1000 * p)) (s.cycle d)).snapBlock 64 (fun k => aCnt d (0x10100 + 0x1000 * p + 8 * k))
        (fun t k => t.pageCount d p k) := by
  rw [State.cntUpSnap, if_neg (by simp [live]; omega)]
  rfl

/-- A partition's page shows the counters that count for it alone, and 0 for every other (R680). -/
theorem answers_cntUpSnap {l d p : Nat} (hl : l < 2) (hd : d < 2) (hp : p < 16) {s : State} (live : s.pageLive l d p = true) :
    Answers (.cntUpSnap l d p) s (fun t => t.reg (aCnt d (0x10008 + 0x1000 * p)) = BitVec.ofNat 32 (s.cycle d)
      ∧ ∀ k, k < 64 → t.reg (aCnt d (0x10100 + 0x1000 * p + 8 * k))
        = if s.flag (cntCfg d k) 31 = true ∧ s.flag (cntCfg d k) 28 = true ∧ s.field (cntCfg d k) 27 24 = p then
            BitVec.ofNat 32 (s.counter d k) else 0) := by
  have place : ∀ k, aCnt d (0x10100 + 0x1000 * p + 8 * k) = aCnt d (0x10100 + 0x1000 * p) + 8 * k := fun k => by unfold aCnt; omega
  have low : aCnt d (0x10008 + 0x1000 * p) + 4 < aCnt d (0x10100 + 0x1000 * p) := by unfold aCnt; omega
  have cfg : ∀ k, k < 64 → cntCfg d k < aCnt d (0x10008 + 0x1000 * p) := fun k hk => by unfold cntCfg aCnt; omega
  refine ⟨_, exec_only rfl (Bool.and_eq_true_iff.2 ⟨and_named hl hd, decide_eq_true hp⟩) (cntUpSnap_eq hd hp live), ?_⟩
  have frame1 := SnapFrame.snapPair s (aCnt d (0x10008 + 0x1000 * p)) (s.cycle d)
  have held1 : (s.snapPair (aCnt d (0x10008 + 0x1000 * p)) (s.cycle d)).reg (aCnt d (0x10008 + 0x1000 * p))
      = BitVec.ofNat 32 (s.cycle d) := by
    rw [reg_snapPair, if_neg (by omega), if_pos rfl]
  generalize s.snapPair (aCnt d (0x10008 + 0x1000 * p)) (s.cycle d) = s1 at frame1 held1 ⊢
  obtain ⟨⟨-, out2⟩, held2⟩ := snapBlock_holds (s := s1) (val := fun t k => t.pageCount d p k) place 64
    (fun t k hk h => pageCount_of_frame h (by have := cfg k hk; omega) p)
  refine ⟨?_, fun k hk => ?_⟩
  · rw [out2 _ (by omega), held1]
  · rw [held2 k hk, pageCount_of_frame frame1 (cfg k hk), State.pageCount]
    split <;> rfl

/-! ### Counting (R677, R683) -/

/-- A die counter that does not wrap holds the sum. -/
theorem addCount_below {s : State} {d k n : Nat} (o : Occ) (fuel : Nat) (below : s.counter d k + n < 2 ^ 48) :
    s.addCount d o (fuel + 1) k n = s.putCounter d k (s.counter d k + n) := if_pos below

/-- A core counter that wraps without sampling and hands nothing on holds the rest, and its overflow bit is set. -/
theorem addCore_wraps {s : State} {d j n : Nat} (pc : Word) (fuel : Nat) (wraps : 2 ^ 48 ≤ s.counter d (64 + j) + n)
    (plain : s.flag (aCounter d (64 + j)) 29 = false)
    (last : j % 8 = 7 ∨ s.flag (aCounter d (64 + j) + 0x10) 31 = false ∨ s.flag (aCounter d (64 + j) + 0x10) 30 = false) :
    s.addCore d pc (fuel + 1) j n
      = (s.putCounter d (64 + j) ((s.counter d (64 + j) + n) % 2 ^ 48)).setFlag (aCnt d 0x18) j true := by
  have other : aCounter d (64 + j) + 0x10 ≠ aCnt d 0x18 := by
    rw [aCounter, if_neg (by omega)]
    unfold aCnt
    omega
  have kept : ∀ i, ((s.putCounter d (64 + j) ((s.counter d (64 + j) + n) % 2 ^ 48)).setFlag (aCnt d 0x18) j true).flag
      (aCounter d (64 + j) + 0x10) i = s.flag (aCounter d (64 + j) + 0x10) i := fun i => by
    rw [flag_setFlag, if_neg fun h => other h.1]
    rfl
  rw [State.addCore]
  simp only [plain, if_neg (Nat.not_lt.2 wraps), Bool.false_eq_true, Bool.not_false, if_false, if_true, kept]
  rw [if_neg]
  rintro ⟨more, on, chained⟩
  rcases last with h | h | h
  · omega
  · exact absurd (h ▸ on) (by decide)
  · exact absurd (h ▸ chained) (by decide)

/-- A counter that is on and that counts for itself takes the occurrences. -/
theorem takes_of_on {far own : Prop} {on chained : Bool} (near : ¬far) (enabled : on = true) (itself : own ∨ chained = false) :
    ¬(far ∨ (!on) = true ∨ ¬own ∧ chained = true) := by
  rintro (h | h | ⟨h, c⟩)
  · exact near h
  · simp [enabled] at h
  · rcases itself with k | k
    · exact h k
    · simp [k] at c

theorem exec_counterWrap {d k : Nat} (core : Bool) (hd : d < 2) (hk : k < if core then 32 else 64) (n u : Nat) (pc : Word) (s : State) :
    exec (.counterWrap d k core n u pc) s = .next (s.counterWrap d k core n u pc) :=
  exec_only rfl (and_named hd hk) rfl

theorem answers_counterWrap_die {s : State} {d k n u : Nat} {pc : Word} (hd : d < 2) (hk : k < 64) (awake : s.flag (aCnt d 0) 1 = false)
    (on : s.flag (cntCfg d k) 31 = true) (first : k = 0 ∨ s.flag (cntCfg d k) 30 = false)
    (below : s.counter d k + min n 65535 < 2 ^ 48) :
    Answers (.counterWrap d k false n u pc) s (fun t => t.counter d k = s.counter d k + min n 65535 ∧ t.regs = s.regs) := by
  have effect : s.counterWrap d k false n u pc = s.putCounter d k (s.counter d k + min n 65535) := by
    rw [State.counterWrap, if_neg (by simp [awake]; omega), if_neg (by decide),
      if_neg (takes_of_on (by omega) on first), addCount_below _ _ below]
  refine ⟨_, (exec_counterWrap false hd hk n u pc s).trans (congrArg _ effect), ?_, rfl⟩
  rw [counter_putCounter, if_pos rfl, Nat.mod_eq_of_lt below]

theorem answers_counterWrap_core {s : State} {d k n u : Nat} {pc : Word} (hd : d < 2) (hk : k < 32) (awake : s.flag (aCnt d 0) 1 = false)
    (on : s.flag (aCounter d (64 + k)) 31 = true) (first : k % 8 = 0 ∨ s.flag (aCounter d (64 + k)) 30 = false)
    (plain : s.flag (aCounter d (64 + k)) 29 = false) (wraps : 2 ^ 48 ≤ s.counter d (64 + k) + n)
    (last : k % 8 = 7 ∨ s.flag (aCounter d (64 + k) + 0x10) 31 = false ∨ s.flag (aCounter d (64 + k) + 0x10) 30 = false) :
    Answers (.counterWrap d k true n u pc) s (fun t => t.counter d (64 + k) = (s.counter d (64 + k) + n) % 2 ^ 48
      ∧ t.flag (aCnt d 0x18) k = true) := by
  have effect : s.counterWrap d k true n u pc
      = (s.putCounter d (64 + k) ((s.counter d (64 + k) + n) % 2 ^ 48)).setFlag (aCnt d 0x18) k true := by
    rw [State.counterWrap, if_neg (by simp [awake]; omega), if_pos rfl, if_neg (takes_of_on (by omega) on first),
      addCore_wraps pc 7 wraps plain last]
  refine ⟨_, (exec_counterWrap true hd hk n u pc s).trans (congrArg _ effect), ?_, ?_⟩
  · rw [counter_of_cnt (setFlag_cnt ..), counter_putCounter, if_pos rfl, Nat.mod_mod]
  · rw [flag_setFlag, if_pos ⟨rfl, hk, rfl⟩]

/-! ### Check-value units (R688, R690) -/

/-- What START loads into the register of a unit: INIT, with FOLD xored in or fed first (R688, R690). -/
def State.chkInit (s : State) (d u : Nat) : Nat :=
  let c := aUnitChk d u 0
  let w := s.field c 30 24
  let fold := s.field c 21 20
  let f := s.pair (aUnitChk d u 0x1C)
  let init := (if fold = 1 then s.pair (aUnitChk d u 0xC) ^^^ f else s.pair (aUnitChk d u 0xC)) % 2 ^ w
  if fold = 2 then crcBytes w (s.pair (aUnitChk d u 4) % 2 ^ w) (s.flag c 23) init (leBytes 8 f) else init

theorem chkInit_plain {s : State} {d u : Nat} (plain : s.field (aUnitChk d u 0) 21 20 = 0) :
    s.chkInit d u = s.pair (aUnitChk d u 0xC) % 2 ^ s.field (aUnitChk d u 0) 30 24 := by
  simp [State.chkInit, plain]

/-- Store a value of the check-value units at key `k`. -/
def State.putChk (s : State) (k r : Nat) : State :=
  { s with cnt := { s.cnt with chk := mapSet s.cnt.chk k (BitVec.ofNat 64 r) } }

theorem mapGet_putChk (s : State) (k r j : Nat) :
    mapGet (s.putChk k r).cnt.chk j = if j = k then some (BitVec.ofNat 64 r) else mapGet s.cnt.chk j := mapGet_mapSet ..

section
variable {s : State} {d u : Nat} (hd : d < 2) (hu : u < 4)
include hd hu

theorem exec_chkStart : exec (.chkStart d u) s = .next (s.chkStart d u) := exec_only rfl (and_named hd hu) rfl

theorem exec_chkDataWrite (v : Word) : exec (.chkDataWrite d u v) s = .next (s.chkData d u v) := exec_only rfl (and_named hd hu) rfl

theorem exec_chkFinish : exec (.chkFinish d u) s = .next (s.chkFinish d u) := exec_only rfl (and_named hd hu) rfl

/-- START at a width of 8 to 64 loads the register and makes the unit busy with no byte counted; the last result stands. -/
theorem answers_chkStart (least : 8 ≤ s.field (aUnitChk d u 0) 30 24) (most : s.field (aUnitChk d u 0) 30 24 ≤ 64) :
    Answers (.chkStart d u) s (fun t => t.flag (aUnitChk d u 0x34) 31 = true ∧ t.field (aUnitChk d u 0x34) 23 0 = 0
      ∧ t.chkRes d u = s.chkRes d u
      ∧ (s.field (aUnitChk d u 0) 21 20 = 0 → mapGet t.cnt.chk (4 * d + u)
          = some (BitVec.ofNat 64 (s.pair (aUnitChk d u 0xC) % 2 ^ s.field (aUnitChk d u 0) 30 24)))) := by
  have effect : s.chkStart d u = ((s.putChk (4 * d + u) (s.chkInit d u)).setFlag (aUnitChk d u 0x34) 31 true).setField
      (aUnitChk d u 0x34) 23 0 0 := by
    rw [State.chkStart, if_neg (by omega)]
    exact if_neg (by omega)
  have apart : 16 + 4 * d + u ≠ 4 * d + u := by omega
  refine ⟨_, (exec_chkStart hd hu).trans (congrArg _ effect), ?_, ?_, ?_, fun plain => ?_⟩
  · rw [flag_setField, if_neg (by omega), flag_setFlag, if_pos ⟨rfl, by decide, rfl⟩]
  · rw [field_setField_same _ _ _ _ _ (by decide), Nat.zero_mod]
  · rw [State.chkRes, setField_cnt, setFlag_cnt, mapGetD, mapGet_putChk, if_neg apart, ← mapGetD, ← State.chkRes]
  · rw [setField_cnt, setFlag_cnt, mapGet_putChk, if_pos rfl, chkInit_plain plain]

theorem answers_chkStart_outside (outside : s.field (aUnitChk d u 0) 30 24 < 8 ∨ 64 < s.field (aUnitChk d u 0) 30 24) :
    Answers (.chkStart d u) s (fun t => t.flag (aUnitChk d u 0x34) 30 = true ∧ t.cnt = s.cnt) := by
  have effect : s.chkStart d u = s.setFlag (aUnitChk d u 0x34) 30 true := by
    rw [State.chkStart, if_neg (by omega)]
    exact if_pos outside
  refine ⟨_, (exec_chkStart hd hu).trans (congrArg _ effect), ?_, setFlag_cnt ..⟩
  rw [flag_setFlag, if_pos ⟨rfl, by decide, rfl⟩]

/-- Bytes given to a busy unit go into its register and are counted. -/
theorem answers_chkData_busy (v : Word) (busy : s.flag (aUnitChk d u 0x34) 31 = true) :
    Answers (.chkDataWrite d u v) s (fun t =>
      t.field (aUnitChk d u 0x34) 23 0
        = min (2 ^ 24 - 1) (s.field (aUnitChk d u 0x34) 23 0 + s.field (aUnitChk d u 0) 19 18 + 1)
      ∧ mapGet t.cnt.chk (4 * d + u) = some (BitVec.ofNat 64
          (crcBytes (s.field (aUnitChk d u 0) 30 24) (s.pair (aUnitChk d u 4) % 2 ^ s.field (aUnitChk d u 0) 30 24)
            (s.flag (aUnitChk d u 0) 23) (mapGetD s.cnt.chk (4 * d + u) 0).toNat
            (leBytes (s.field (aUnitChk d u 0) 19 18 + 1) v.toNat)))) := by
  refine ⟨_, exec_chkDataWrite hd hu v, ?_⟩
  rw [State.chkData, if_neg (by omega), if_neg (by simp [busy])]
  refine ⟨?_, ?_⟩
  · rw [State.field, reg_addField, ← State.field, field_setField_same _ _ _ _ _ (by decide), field_mk, Nat.add_assoc]
    exact Nat.mod_eq_of_lt (Nat.lt_of_le_of_lt (Nat.min_le_left ..) (by decide))
  · simp only [addField_cnt, mapGet_mapSet, if_true]

theorem answers_chkData_idle (v : Word) (idle : s.flag (aUnitChk d u 0x34) 31 = false) :
    Answers (.chkDataWrite d u v) s (fun t => t.flag (aUnitChk d u 0x34) 29 = true ∧ t.cnt = s.cnt) := by
  have effect : s.chkData d u v = s.setFlag (aUnitChk d u 0x34) 29 true := by
    rw [State.chkData, if_neg (by omega), if_pos (by simp [idle])]
  refine ⟨_, (exec_chkDataWrite hd hu v).trans (congrArg _ effect), ?_, setFlag_cnt ..⟩
  rw [flag_setFlag, if_pos ⟨rfl, by decide, rfl⟩]

/-- FINISH puts the register's final value in CHK_RES, and the unit is idle. -/
theorem answers_chkFinish (busy : s.flag (aUnitChk d u 0x34) 31 = true) :
    Answers (.chkFinish d u) s (fun t => t.flag (aUnitChk d u 0x34) 31 = false
      ∧ t.chkRes d u = crcFinal (s.field (aUnitChk d u 0) 30 24) (s.flag (aUnitChk d u 0) 22) (s.pair (aUnitChk d u 0x14))
          (mapGetD s.cnt.chk (4 * d + u) 0).toNat % 2 ^ 64) := by
  refine ⟨_, exec_chkFinish hd hu, ?_⟩
  rw [State.chkFinish, if_neg (by simp [busy]; omega)]
  refine ⟨?_, ?_⟩
  · rw [flag_setFlag, if_pos ⟨rfl, by decide, rfl⟩]
  · simp only [State.chkRes, setFlag_cnt, mapGetD, mapGet_mapSet, if_true, Option.getD_some, BitVec.toNat_ofNat]

end

/-- Settles O52: rows of the counters and logs, then START, data and FINISH of a check-value unit. -/
theorem countersComplete : Obligations.CountersComplete := by
  refine ⟨fun s d hd => ⟨answers_clrTrip hd s, answers_clrOver hd s, answers_cntSnap hd s,
      fun l p hl hp live => answers_cntUpSnap hl hd hp live, answers_cntSmpPop hd s, answers_fltLogPop hd s,
      fun k n u pc awake => ⟨fun hk on first below => answers_counterWrap_die hd hk awake on first below,
        fun hk on first plain wraps last => answers_counterWrap_core hd hk awake on first plain wraps last⟩⟩,
    fun s d u v hd hu => ⟨answers_chkStart hd hu, answers_chkStart_outside hd hu, answers_chkData_busy hd hu v,
      answers_chkData_idle hd hu v, answers_chkFinish hd hu⟩⟩

end Sys2Proof.Machine

/-! PROOFS. Wide runs of a gauntlet engine, its merge point, and the watch for a schedule that hangs (R121, R122, R127, R234, R494). -/

namespace Sys2Proof.Machine

/-! ### Layers and their work -/

/-- What stands in a layer slot after a change of slot `j`. -/
theorem mapGet_mapLayer (s : State) (j : Nat) (f : Layer → Layer) (k : Nat) :
    mapGet (s.mapLayer j f).gau.layers k = (mapGet s.gau.layers k).map (fun l => if k = j then f l else l) := by
  refine (mapGet_map_of_keys (fun e => ?_) s.gau.layers k).trans ?_
  · split <;> rfl
  · congr 1
    funext l
    simp only [decide_eq_true_eq, apply_ite Prod.snd]

theorem mem_mapLayer {s : State} {k : Nat} {l : Layer} (f : Layer → Layer) (h : (k, l) ∈ s.gau.layers) :
    (k, f l) ∈ (s.mapLayer k f).gau.layers :=
  List.mem_map.2 ⟨(k, l), h, if_pos (decide_eq_true rfl)⟩

/-- Work that stands in a layer is changed there. -/
theorem mem_mapWork {w : LayerWork} {l : Layer} (f : LayerWork → LayerWork) (h : w ∈ l.work) : f w ∈ (mapWork w.inst f l).work := by
  rw [mapWork, if_pos (List.any_eq_true.2 ⟨w, h, decide_eq_true rfl⟩)]
  exact List.mem_map.2 ⟨w, h, if_pos rfl⟩

@[simp] theorem reg_mapLayer (s : State) (k : Nat) (f : Layer → Layer) (a : Nat) : (s.mapLayer k f).reg a = s.reg a := rfl

/-- Layer slot `k` holds work of event `i` of which `p` is true. -/
def State.holdsWork (s : State) (k i : Nat) (p : LayerWork → Prop) : Prop :=
  ∃ l, mapGet s.gau.layers k = some l ∧ ∃ w ∈ l.work, w.inst = i ∧ p w

theorem holdsWork_of_gau {s t : State} {k i : Nat} {p : LayerWork → Prop} (h : s.holdsWork k i p) (same : t.gau = s.gau) :
    t.holdsWork k i p := by
  rwa [State.holdsWork, same]

/-- A change of the work of an event, in its layer slot. -/
theorem holdsWork_mapLayer {s : State} {k i : Nat} {p q : LayerWork → Prop} {f : LayerWork → LayerWork} (h : s.holdsWork k i p)
    (turns : ∀ w, p w → (f w).inst = w.inst ∧ q (f w)) : (s.mapLayer k (mapWork i f)).holdsWork k i q := by
  obtain ⟨l, slot, w, hw, rfl, pw⟩ := h
  obtain ⟨inst, qw⟩ := turns w pw
  refine ⟨mapWork w.inst f l, ?_, f w, mem_mapWork f hw, inst, qw⟩
  rw [mapGet_mapLayer, slot, Option.map_some, if_pos rfl]

theorem running_of_work {l : Layer} {w : LayerWork} (h : w ∈ l.work) (begun : w.runEnds.isSome = true) (on : w.wide = none) :
    l.running = true :=
  List.any_eq_true.2 ⟨w, h, by simp [begun, on]⟩

/-! ### A run starts (R127) -/

/-- A fault that only taints changes no register but the overflow count of its log. -/
theorem reg_fault_taint (s : State) {d : Nat} {f : FaultRec} (h : f.action = .taint) {a : Nat} (other : a ≠ aFlt d 0x214) :
    (s.fault d f).reg a = s.reg a := by
  unfold State.fault
  extract_lets q unit logged
  rw [if_neg (by simp [h])]
  unfold logged
  split
  · exact reg_addReg_ne _ _ _ _ other
  · rfl

theorem aEng_ne_aFlt (d e : Nat) : aEng d e ≠ aFlt d 0x214 := by
  unfold aEng aGau aFlt
  omega

theorem reg_sideFetch (s : State) (k : Nat) (l : Layer) (w : LayerWork) (e : Nat) :
    (s.sideFetch k l w).reg (aEng (k / 64) e) = s.reg (aEng (k / 64) e) := by
  unfold State.sideFetch
  split
  · rfl
  · extract_lets bad faulted
    change faulted.reg _ = _
    unfold faulted
    split
    · exact reg_fault_taint s rfl (aEng_ne_aFlt (k / 64) e)
    · rfl

/-- Fetching inputs leaves the work of the event in its layer, and its wide result absent. -/
theorem holdsWork_sideFetch {s : State} {k : Nat} {l : Layer} {w : LayerWork} (h : s.holdsWork k w.inst (fun v => v.wide = none)) :
    (s.sideFetch k l w).holdsWork k w.inst (fun v => v.wide = none) := by
  unfold State.sideFetch
  split
  · exact h
  · extract_lets bad faulted
    have gau : faulted.gau = s.gau := by
      unfold faulted
      split
      · exact SwitchesAs.gau (SwitchesAs.fault s _ rfl)
      · rfl
    exact holdsWork_mapLayer (holdsWork_of_gau h gau) fun v wide => ⟨rfl, wide⟩

/-- Bank that the run of an event uses. -/
def State.runBank (s : State) (i : Nat) : Nat := match s.inst i with | some x => s.bankOf x | none => 0

theorem runBank_lt (s : State) (i : Nat) : s.runBank i < 2 := by
  unfold State.runBank
  split
  · exact Nat.mod_lt _ (by decide)
  · decide

/-- GAU_ENG_STATUS of an engine that runs a layer slot. -/
def engineStatus (bank slot : Nat) : Word := BitVec.ofNat 32 (2 ^ 31 + bank * 2 ^ 30 + slot * 2 ^ 16)

/-- Its busy bit stands above the bank and the slot. -/
theorem testBit_engineStatus {bank slot : Nat} (hb : bank < 2) (hs : slot < 64) : (engineStatus bank slot).toNat.testBit 31 = true := by
  rw [engineStatus, BitVec.toNat_ofNat, Nat.mod_eq_of_lt (by omega), Nat.testBit_eq_decide_div_mod_eq]
  exact decide_eq_true (by omega)

/-- The work whose run ends in cycle `t`. -/
def LayerWork.begin (t : Nat) (w : LayerWork) : LayerWork := { w with runEnds := some t }

theorem gauntletRun_eq {s : State} {k : Nat} {l : Layer} {w : LayerWork} (slot : mapGet s.gau.layers k = some l)
    (due : s.tripDue l = some w) (free : s.engineBusy k l = false) : s.gauntletRun k
      = (let t := s.setReg (aEng (k / 64) l.engine) (engineStatus (s.runBank w.inst) (k % 64))
        (t.sideFetch k l w).mapLayer k (mapWork w.inst (LayerWork.begin (t.now + l.wMin)))) := by
  rw [State.gauntletRun, slot]
  dsimp only
  rw [due]
  dsimp only
  rw [if_neg (by simp [free])]
  rfl

theorem exec_gauntletRun {d k : Nat} (hd : d < 2) (hk : k < 64) (s : State) :
    exec (.gauntletRun d k) s = .next (s.gauntletRun (64 * d + k)) := exec_only rfl (and_named hd hk) rfl

/-- The oldest trip that has reached its window start runs on a free engine. -/
theorem answers_gauntletRun {s : State} {d k : Nat} {l : Layer} {w : LayerWork} (hd : d < 2) (hk : k < 64)
    (slot : mapGet s.gau.layers (64 * d + k) = some l) (due : s.tripDue l = some w) (found : w ∈ l.work) (on : w.wide = none)
    (free : s.engineBusy (64 * d + k) l = false) :
    Answers (.gauntletRun d k) s (fun t => (t.reg (aEng d l.engine)).toNat.testBit 31 = true
      ∧ ∃ l', mapGet t.gau.layers (64 * d + k) = some l' ∧ l'.running = true) := by
  have die : (64 * d + k) / 64 = d := by omega
  refine ⟨_, (exec_gauntletRun hd hk s).trans (congrArg _ (gauntletRun_eq slot due free)), ?_, ?_⟩
  · have reg := reg_sideFetch (s.setReg (aEng d l.engine) (engineStatus (s.runBank w.inst) ((64 * d + k) % 64))) (64 * d + k) l w l.engine
    rw [die] at reg ⊢
    rw [reg_mapLayer, reg, reg_setReg, if_pos rfl]
    exact testBit_engineStatus (runBank_lt ..) (Nat.mod_lt _ (by decide))
  · have held : s.holdsWork (64 * d + k) w.inst (fun v => v.wide = none) := ⟨l, slot, w, found, rfl, on⟩
    obtain ⟨l', slot', v, hv, -, begun, none⟩ := holdsWork_mapLayer (q := fun v => v.runEnds.isSome = true ∧ v.wide = none)
      (f := LayerWork.begin _) (holdsWork_sideFetch (l := l) (holdsWork_of_gau held (setReg_gau ..))) fun v wide => ⟨rfl, rfl, wide⟩
    exact ⟨l', slot', running_of_work hv begun none⟩

/-! ### A run ends (R123, R127) -/

/-- The end of a run puts the wide result to the work of its event, in every layer of the slot. -/
theorem wideResult_work (s : State) {k : Nat} {l : Layer} {w : LayerWork} (layer : (k, l) ∈ s.gau.layers) (work : w ∈ l.work) :
    ∃ q ∈ (s.wideResult k l w).gau.layers, q.1 = k ∧ ∃ v ∈ q.2.work, v.inst = w.inst ∧ v.wide.isSome = true := by
  unfold State.wideResult
  extract_lets b r lo hi rows faulted clamped counted
  have gau : counted.gau = s.gau :=
    calc counted.gau = clamped.gau := foldl_keeps State.gau _ (fun t c => by rw [CntRegs.count t]) _ _
      _ = faulted.gau := addReg_gau ..
      _ = s.gau := foldl_keeps State.gau _ (fun t e => (SwitchesAs.roFault t ..).gau) _ _
  exact ⟨_, mem_mapLayer _ (gau ▸ layer), rfl, _, mem_mapWork _ work, rfl, rfl⟩

/-- The run of the work has ended by cycle `now`, and its wide result does not stand yet. -/
def LayerWork.runOver (now : Nat) (w : LayerWork) : Bool :=
  w.wide.isNone && (match w.runEnds with | some t => decide (t ≤ now) | none => false)

theorem exec_gauntletRunEnd {d e : Nat} (hd : d < 2) (he : e < 4) (s : State) :
    exec (.gauntletRunEnd d e) s = .next (s.gauntletRunEnd d e) := exec_only rfl (and_named hd he) rfl

theorem gauntletRunEnd_eq {s : State} {d e k : Nat} {l : Layer} {w : LayerWork}
    (layer : s.gau.layers.find? (fun p => decide (p.1 / 64 = d ∧ p.2.engine = e) && p.2.running) = some (k, l))
    (due : l.work.find? (LayerWork.runOver s.now) = some w) :
    s.gauntletRunEnd d e = (s.wideResult k l w).setFlag (aEng d e) 31 false := by
  rw [State.gauntletRunEnd, layer]
  dsimp only
  split
  · next absent => exact absurd (absent.symm.trans due) (by simp)
  · next v found => rw [Option.some.inj (found.symm.trans due)]

/-- The engine is free again, and the work has its wide result. -/
theorem answers_gauntletRunEnd {s : State} {d e k : Nat} {l : Layer} {w : LayerWork} (hd : d < 2) (he : e < 4)
    (layer : s.gau.layers.find? (fun p => decide (p.1 / 64 = d ∧ p.2.engine = e) && p.2.running) = some (k, l))
    (due : l.work.find? (LayerWork.runOver s.now) = some w) :
    Answers (.gauntletRunEnd d e) s (fun t => t.flag (aEng d e) 31 = false
      ∧ ∃ q ∈ t.gau.layers, q.1 = k ∧ ∃ v ∈ q.2.work, v.inst = w.inst ∧ v.wide.isSome) := by
  refine ⟨_, (exec_gauntletRunEnd hd he s).trans (congrArg _ (gauntletRunEnd_eq layer due)), ?_, ?_⟩
  · rw [flag_setFlag, if_pos ⟨rfl, by decide, rfl⟩]
  · rw [setFlag_gau]
    exact wideResult_work s (List.mem_of_find?_eq_some layer) (List.mem_of_find?_eq_some due)

/-! ### The merge point (R121, R124) -/

/-- The work's window of `width` cycles is over by cycle `now`, and its tokens have not gone on yet. -/
def LayerWork.windowPast (width now : Nat) (w : LayerWork) : Bool :=
  w.passed.isNone && (match w.window with | some c => decide (c + width ≤ now) | none => false)

@[simp] theorem queue_setQueue (x : UnitState) (q : Nat) (l : List Held) : (x.setQueue q l).queue q = l := by
  match q with
  | 0 | 1 | 2 | _ + 3 => rfl

theorem length_queueInserts (ts q : List Held) : (ts.foldl (fun q h => queueInsert h q) q).length = q.length + ts.length := by
  induction ts generalizing q with
  | nil => rfl
  | cons h ts ih =>
    rw [List.foldl_cons, ih, queueInsert, (insertBy_perm ..).length_eq, List.length_cons, List.length_cons]
    omega

theorem exec_mergeRelease {d k : Nat} (hd : d < 2) (hk : k < 64) (s : State) :
    exec (.mergeRelease d k) s = .next (s.mergeRelease (64 * d + k)) := exec_only rfl (and_named hd hk) rfl

/-- A merge point whose window has passed gives the tokens it holds, one for one, to its queue. -/
theorem mergeRelease_queue {s : State} {k : Nat} {l : Layer} {w : LayerWork} (slot : mapGet s.gau.layers k = some l)
    (live : partLive (s.part l.part) = true)
    (due : l.work.find? (LayerWork.windowPast l.w s.now) = some w)
    (ready : w.accepted = true → w.wide.isSome = true) :
    (((s.mergeRelease k).unit l.merge).queue l.mqueue).length = ((s.unit l.merge).queue l.mqueue).length + w.held.length := by
  rw [State.mergeRelease, slot]
  dsimp only
  split
  · next absent => exact absurd (absent.symm.trans due) (by simp)
  next v found =>
  obtain rfl : v = w := Option.some.inj (found.symm.trans due)
  have go : ¬(v.accepted = true ∧ v.wide.isNone = true) := fun ⟨accepted, absent⟩ => by
    simp [Option.isNone_iff_eq_none.1 absent, accepted] at ready
  rw [if_neg (by simp [live]), if_neg go]
  rw [unit_putUnit, if_pos rfl, queue_setQueue, length_queueInserts, List.length_map, List.length_zipIdx]
  rfl

theorem answers_mergeRelease {s : State} {d k : Nat} {l : Layer} {w : LayerWork} (hd : d < 2) (hk : k < 64)
    (slot : mapGet s.gau.layers (64 * d + k) = some l) (live : partLive (s.part l.part) = true)
    (due : l.work.find? (LayerWork.windowPast l.w s.now) = some w)
    (ready : w.accepted = true → w.wide.isSome = true) :
    Answers (.mergeRelease d k) s (fun t =>
      ((t.unit l.merge).queue l.mqueue).length = ((s.unit l.merge).queue l.mqueue).length + w.held.length) :=
  ⟨_, exec_mergeRelease hd hk s, mergeRelease_queue slot live due ready⟩

/-! ### What a stop leaves of the partitions (R494) -/

theorem count_parts (s : State) (d ev n : Nat) (o : Occ) : (s.count d ev n o).parts = s.parts := by rw [CntRegs.count s d ev n o]

theorem fault_parts (s : State) (d : Nat) (f : FaultRec) : (s.fault d f).parts = s.parts := by rw [(FltFrame.fault s d f).1]

theorem closeStream_parts (s : State) (d st : Nat) : (s.closeStream d st).parts = s.parts :=
  (count_parts ..).trans (addReg_parts ..)

theorem closePart_parts (s : State) (p : Nat) : (s.closePart p).parts = s.parts := by
  unfold State.closePart
  split
  · rfl
  · refine foldl_keeps State.parts _ (fun t st => foldl_keeps State.parts _ (fun t m => ?_) _ t) _ s
    refine foldl_keeps State.parts _ (fun t d => ?_) _ t
    split
    · exact closeStream_parts ..
    · rfl

theorem seal_parts (s : State) (gi : Nat) (r : Record) : (s.seal gi r).parts = s.parts := by
  unfold State.seal
  extract_lets g
  split
  split
  · rfl
  · exact (count_parts ..).trans (addReg_parts ..)

theorem disarm_parts (s : State) (gi : Nat) : (s.disarm gi).parts = s.parts := by
  unfold State.disarm
  extract_lets g sealed x marks
  split
  · rfl
  · refine (foldl_keeps State.parts _ (fun t m => ?_) _ _).trans (foldl_keeps State.parts _ (fun t r => seal_parts t gi r) _ s)
    split
    · rfl
    · exact closeStream_parts ..

theorem disarmPart_parts (s : State) (p : Nat) : (s.disarmPart p).parts = s.parts :=
  foldl_keeps State.parts (fun (t : State) (e : Nat × Group) => t.disarm e.1) (fun t e => disarm_parts t e.1) _ s

theorem deepHeader_parts (s : State) (p : Nat) (x : Deep) (e : DeepInst) (tag : List Byte) (faulted : Bool) :
    (s.deepHeader p x e tag faulted).parts = s.parts := by
  unfold State.deepHeader
  split <;> rfl

theorem deepStop_parts (s : State) (p : Nat) : (s.deepStop p).parts = s.parts := by
  unfold State.deepStop
  split
  · rfl
  split
  · rfl
  · refine foldl_keeps State.parts _ (fun t e => ?_) _ s
    split
    · exact deepHeader_parts ..
    · rfl

theorem finishOp_parts (s : State) (o : Op) (st d r : Nat) : (s.finishOp o st d r).parts = s.parts := by rw [finishOp_frame s o st d r]

theorem abortOps_parts (s : State) (p st d : Nat) : (s.abortOps p st d).parts = s.parts :=
  foldl_keeps State.parts _ (fun t o => finishOp_parts t o st d 0) _ s

theorem auditFill_parts (s : State) (p i : Nat) (bytes : List Byte) : (s.auditFill p i bytes).parts = s.parts := by
  unfold State.auditFill
  split <;> rfl

theorem ensureBatch_parts (s : State) (p : Nat) : (s.ensureBatch p).parts = s.parts := by
  unfold State.ensureBatch
  (repeat' split) <;> rfl

theorem auditPush_parts (s : State) (p : Nat) (e : AuditEntry) : (s.auditPush p e).parts = s.parts := by
  unfold State.auditPush
  extract_lets t u
  have closed : t.parts = s.parts := by
    unfold t
    (repeat' split) <;> rfl
  have opened : u.parts = s.parts := (ensureBatch_parts t p).trans closed
  split <;> exact opened

theorem auditClosing_parts (s : State) (p : Nat) (final : Bool) : (s.auditClosing p final).parts = s.parts := by
  unfold State.auditClosing
  split <;> rfl

theorem part_of_parts {s t : State} (h : t.parts = s.parts) (p : Nat) : t.part p = s.part p := by
  rw [State.part, h, State.part]

theorem kind1Drop_parts (s : State) (p : Nat) : (s.kind1Drop p).parts = s.parts := rfl

theorem auditCtrl_parts (s : State) (p kind stream seq arg : Nat) (digest aux extra : List Byte) :
    (s.auditCtrl p kind stream seq arg digest aux extra).parts = s.parts := auditPush_parts ..

/-- A partition that the fault manager has stopped: it waits for nothing, and the rest of it stands. -/
def Partition.stop (x : Partition) : Partition := { x with state := .stopped, opensAt := none, change := none, filling := false }

theorem part_stopPartition (s : State) (p k : Nat) : (s.stopPartition p k).part p = (s.part p).stop := by
  unfold State.stopPartition
  extract_lets closed disarmed dropped was stopped flagged filled
  have before : dropped.parts = s.parts :=
    calc dropped.parts = ((disarmed.deepStop p).kind1Drop p).parts := abortOps_parts ..
      _ = (disarmed.deepStop p).parts := kind1Drop_parts ..
      _ = disarmed.parts := deepStop_parts ..
      _ = closed.parts := disarmPart_parts ..
      _ = s.parts := closePart_parts ..
  have after : filled.parts = stopped.parts :=
    (foldl_keeps State.parts _ (fun t x => auditFill_parts ..) _ _).trans (foldl_keeps State.parts _ (fun t r => setFlag_parts ..) _ _)
  split
  refine (part_of_parts ((auditClosing_parts ..).trans ((auditCtrl_parts ..).trans after)) p).trans ?_
  unfold stopped
  rw [part_putPart, if_pos rfl]
  exact congrArg Partition.stop (part_of_parts before p)

/-! ### A schedule that hangs (R234) -/

theorem exec_scheduleHang {d p : Nat} (hd : d < 2) (hp : p < 16) (s : State) :
    exec (.scheduleHang d p) s = .next (s.scheduleHang d p) := exec_only rfl (and_named hd hp) rfl

/-- A partition whose oldest event has passed its cycle by more than the die's limit is stopped as one that hung. -/
theorem part_scheduleHang {s : State} {d p : Nat} {im : Loaded} {x : Inst} {c : Nat} (image : (s.part p).image = some im)
    (due : s.hangDue p im = some (x, c)) (limit : (s.reg (aSeq d 0x14)).toNat ≠ 0) (here : partOnDie (s.part p) d = true)
    (live : partLive (s.part p) = true) (late : c + (s.reg (aSeq d 0x14)).toNat < s.cycle d) (crown : s.flag (aFlt d 0) 30 = false) :
    ((s.scheduleHang d p).part p).state = .stopped ∧ ((s.scheduleHang d p).part p).hung = true := by
  have go : ¬((s.reg (aSeq d 0x14)).toNat = 0 ∨ partOnDie (s.part p) d = false ∨ partLive (s.part p) = false
      ∨ s.cycle d ≤ c + (s.reg (aSeq d 0x14)).toNat ∨ s.flag (aFlt d 0) 30 = true) := by
    simp only [here, live, crown, limit, Nat.not_le.2 late]
    decide
  unfold State.scheduleHang
  extract_lets lim pt
  rw [image, Option.bind_some, due]
  dsimp only
  rw [if_neg go]
  rw [part_stopPartition, part_putPart, if_pos rfl]
  exact ⟨rfl, rfl⟩

theorem answers_scheduleHang {s : State} {d p : Nat} {im : Loaded} {x : Inst} {c : Nat} (hd : d < 2) (hp : p < 16)
    (image : (s.part p).image = some im) (due : s.hangDue p im = some (x, c)) (limit : (s.reg (aSeq d 0x14)).toNat ≠ 0)
    (here : partOnDie (s.part p) d = true) (live : partLive (s.part p) = true)
    (late : c + (s.reg (aSeq d 0x14)).toNat < s.cycle d) (crown : s.flag (aFlt d 0) 30 = false) :
    Answers (.scheduleHang d p) s (fun t => (t.part p).state = .stopped ∧ (t.part p).hung = true) :=
  ⟨_, exec_scheduleHang hd hp s, part_scheduleHang image due limit here live late crown⟩

/-- Settles O34: a run starts, a run ends, the merge point releases, and a hang stops its partition. -/
theorem gauntletComplete : Obligations.GauntletComplete := by
  refine fun s d hd => ⟨fun k l w hk slot live => ⟨fun due on free => ?_,
      fun due ready => answers_mergeRelease hd hk slot live due ready⟩,
    fun e k l w he layer due => answers_gauntletRunEnd hd he layer due,
    fun p im x c hp image due limit here live late crown => answers_scheduleHang hd hp image due limit here live late crown⟩
  exact answers_gauntletRun hd hk slot ((if_pos live).trans due) (List.mem_of_find?_eq_some due) on free

end Sys2Proof.Machine

/-! PROOFS. What counters, logs, tags, layers and new tokens leave alone: the clock and the lattice. -/

namespace Sys2Proof.Machine

/-! ### What a branch and a pair keep -/

theorem ite_keeps {γ : Type} {g : State → γ} {c : Prop} [Decidable c] {a t u : State} (h : g t = g a) (k : g u = g a) :
    g (if c then t else u) = g a := by
  split
  · exact h
  · exact k

theorem ite_fst_keeps {β γ : Type} {g : State → γ} {c : Prop} [Decidable c] {a : State} {x y : State × β} (h : g x.1 = g a)
    (k : g y.1 = g a) : g (if c then x else y).1 = g a := by
  split
  · exact h
  · exact k

/-- What the state of a pair keeps, its name keeps. -/
theorem fst_keeps {β γ : Type} {g : State → γ} {a : State × β} {t s : State} {b : β} (e : a = (t, b)) (k : g a.1 = g s) : g t = g s := by
  rwa [e] at k

/-! ### Counters, logs, tags and layers leave the clock and the lattice alone -/

/-- The clock and the lattice. -/
def State.nowLat (s : State) : Nat × Lattice := (s.now, s.lat)

theorem nowLat_of {s t : State} (now : t.now = s.now) (lat : t.lat = s.lat) : t.nowLat = s.nowLat := Prod.ext now lat

theorem now_of_nowLat {s t : State} (h : t.nowLat = s.nowLat) : t.now = s.now := congrArg Prod.fst h

theorem lat_of_nowLat {s t : State} (h : t.nowLat = s.nowLat) : t.lat = s.lat := congrArg Prod.snd h

theorem now_of_fixed {s t : State} (h : t.fixed = s.fixed) : t.now = s.now := congrArg (·.2.2.1) h

@[simp] theorem addReg_nowLat (s : State) (a n : Nat) : (s.addReg a n).nowLat = s.nowLat := nowLat_of (addReg_now ..) (addReg_lat ..)

@[simp] theorem addField_nowLat (s : State) (a hi lo n : Nat) : (s.addField a hi lo n).nowLat = s.nowLat :=
  nowLat_of (addField_now ..) (addField_lat ..)

@[simp] theorem mapLayer_nowLat (s : State) (k : Nat) (f : Layer → Layer) : (s.mapLayer k f).nowLat = s.nowLat := rfl

@[simp] theorem mapInst_nowLat (s : State) (i : Nat) (f : Inst → Inst) : (s.mapInst i f).nowLat = s.nowLat := rfl

@[simp] theorem count_nowLat (s : State) (d ev n : Nat) (o : Occ) : (s.count d ev n o).nowLat = s.nowLat :=
  nowLat_of (now_of_fixed (fixed_count ..)) (count_lat ..)

@[simp] theorem fault_nowLat (s : State) (d : Nat) (f : FaultRec) : (s.fault d f).nowLat = s.nowLat :=
  nowLat_of (now_of_fixed (fixed_fault ..)) (fault_lat ..)

@[simp] theorem bucketAdd_nowLat (s : State) (d k n : Nat) : (s.bucketAdd d k n).nowLat = s.nowLat :=
  nowLat_of (by rw [PortsRegs.bucketAdd s d k n]) (bucketAdd_lat ..)

@[simp] theorem roFault_nowLat (s : State) (d code kind key detail u : Nat) (p : Option Nat) (i : Nat) :
    (s.roFault d code kind key detail u p i).nowLat = s.nowLat :=
  ite_keeps rfl (ite_keeps (addField_nowLat ..) (ite_keeps (fault_nowLat ..) (fault_nowLat ..)))

@[simp] theorem rwFault_nowLat (s : State) (d detail u i : Nat) : (s.rwFault d detail u i).nowLat = s.nowLat := fault_nowLat ..

@[simp] theorem cfgCheck_nowLat (s : State) (u i : Nat) (as : List Nat) : (s.cfgCheck u i as).1.nowLat = s.nowLat :=
  foldl_fst_keeps State.nowLat _ (fun _ _ => ite_fst_keeps (roFault_nowLat ..) rfl) as (s, false)

@[simp] theorem roCheck_nowLat (s : State) (u a : Nat) (bad : Bool) (i : Nat) : (s.roCheck u a bad i).1.nowLat = s.nowLat :=
  ite_fst_keeps (roFault_nowLat ..) rfl

@[simp] theorem consume_nowLat (s : State) (u : Nat) (ts : List Held) : (s.consume u ts).1.nowLat = s.nowLat := by
  refine foldl_fst_keeps State.nowLat _ (fun t h => ?_) ts (s, 0)
  dsimp only
  split
  · rfl
  · exact rwFault_nowLat ..

@[simp] theorem raise_nowLat (s : State) (i : Nat) (f : BitVec 16) : (s.raise i f).nowLat = s.nowLat := rfl

@[simp] theorem raiseConds_nowLat (s : State) (u i : Nat) (cs : List Cond) : (s.raiseConds u i cs).nowLat = s.nowLat :=
  (foldl_keeps State.nowLat _ (fun _ _ => count_nowLat ..) cs _).trans
    ((addReg_nowLat ..).trans (ite_keeps rfl (raise_nowLat ..)))

@[simp] theorem raiseUnit_nowLat (s : State) (u i : Nat) (cs : List Cond) : (s.raiseUnit u i cs).nowLat = s.nowLat := by
  unfold State.raiseUnit
  split
  · refine ite_keeps (raiseConds_nowLat ..) ?_
    exact (foldl_keeps State.nowLat _ (fun _ _ => mapLayer_nowLat ..) _ _).trans
      ((foldl_keeps State.nowLat _ (fun _ _ => count_nowLat ..) cs _).trans (addReg_nowLat ..))
  · exact raiseConds_nowLat ..

@[simp] theorem monitorIn_nowLat (s : State) (u : Nat) (x : Inst) (h : Held) (es : List Int) :
    (s.monitorIn u x h es).nowLat = s.nowLat := by
  refine foldl_keeps State.nowLat _ (fun t k => ?_) _ s
  split <;> rfl

@[simp] theorem doOp_nowLat (s : State) (i d sched : Nat) : (s.doOp i d sched).nowLat = s.nowLat := by
  refine nowLat_of ?_ (doOp_lat ..)
  have done : ∀ t : State, (t.opDone i d).now = t.now := fun t => by
    unfold State.opDone
    (repeat' split) <;> rfl
  have ended : ∀ t : State, (t.instEnd i).now = t.now := fun t => by
    unfold State.instEnd
    (repeat' split) <;> rfl
  rw [State.doOp, ended, State.execOp, done]
  split <;> rfl

@[simp] theorem make_nowLat (s : State) (u i : Nat) (seq : BitVec 12) (blk : BitVec 8) (taint : BitVec 2) (last : Bool)
    (ps : List (Nat × BitVec 256)) : (s.make u i seq blk taint last ps).1.nowLat = s.nowLat := by
  unfold State.make
  refine (foldl_fst_keeps State.nowLat _ (fun t p => ?_) _ _).trans (ite_keeps rfl (count_nowLat ..))
  rfl

@[simp] theorem steerCheck_nowLat (s : State) (u i : Nat) (raw : Option Nat) (v : Nat) : (s.steerCheck u i raw v).nowLat = s.nowLat := by
  unfold State.steerCheck
  split
  · exact ite_keeps (fault_nowLat ..) rfl
  · rfl

@[simp] theorem windowStart_nowLat (s : State) (k : Nat) (l : Layer) (x : Inst) (c : Nat) :
    (s.windowStart k l x c).nowLat = s.nowLat := by
  unfold State.windowStart
  split
  · rfl
  · extract_lets trip ok o counted raised
    have h : counted.nowLat = s.nowLat := ite_keeps (count_nowLat ..) (ite_keeps (count_nowLat ..) rfl)
    exact (mapLayer_nowLat ..).trans ((ite_keeps (raise_nowLat ..) rfl).trans h)

@[simp] theorem monitorFinal_nowLat (s : State) (f : Final) (es : List (BitVec 128)) : (s.monitorFinal f es).nowLat = s.nowLat := by
  unfold State.monitorFinal
  split
  · rfl
  refine foldl_keeps State.nowLat _ (fun t k => ?_) _ s
  split
  · rfl
  dsimp only
  split
  · exact ite_keeps (windowStart_nowLat ..) rfl
  · rfl

@[simp] theorem rescaleParity_nowLat (s : State) (f : Final) (qs : List Nat) : (s.rescaleParity f qs).1.nowLat = s.nowLat :=
  foldl_fst_keeps State.nowLat _ (fun _ _ => ite_fst_keeps (roFault_nowLat ..) rfl) qs (s, false)

end Sys2Proof.Machine

/-! PROOFS. What a firing computes keeps the times of the last firings, whatever the kind of the unit (R59 to R79, R179 to R199). -/

namespace Sys2Proof.Machine

/-! ### What keeps the times of the last firings -/

/-- The clock, and each unit's last firing. -/
def State.fireTimes (s : State) : Nat × (Nat → Option Nat) := (s.now, fun v => (s.unit v).lastFire)

theorem lastFire_of_fireTimes {s t : State} (h : t.fireTimes = s.fireTimes) (v : Nat) : (t.unit v).lastFire = (s.unit v).lastFire :=
  congrFun (congrArg Prod.snd h) v

theorem now_of_fireTimes {s t : State} (h : t.fireTimes = s.fireTimes) : t.now = s.now := congrArg Prod.fst h

theorem fireTimes_of_nowLat {s t : State} (h : t.nowLat = s.nowLat) : t.fireTimes = s.fireTimes := by
  refine Prod.ext (now_of_nowLat h) (funext fun v => ?_)
  exact congrArg UnitState.lastFire (unit_of_lat (lat_of_nowLat h) v)

/-- A unit that is written reads as it was written. -/
theorem unit_putUnit_same (s : State) (u : Nat) (x : UnitState) : (s.putUnit u x).unit u = x := (unit_putUnit ..).trans (if_pos rfl)

/-- A unit written back with its last firing as it was. -/
theorem putUnit_fireTimes {s : State} {u : Nat} {x : UnitState} (h : x.lastFire = (s.unit u).lastFire) :
    (s.putUnit u x).fireTimes = s.fireTimes := by
  refine Prod.ext rfl (funext fun v => ?_)
  change ((s.putUnit u x).unit v).lastFire = (s.unit v).lastFire
  rw [unit_putUnit]
  split
  · next same => rw [h, same]
  · rfl

@[simp] theorem sramWrite_keeps (s : State) (k a : Nat) (b : List Byte) : (s.sramWrite k a b).fireTimes = s.fireTimes := rfl

@[simp] theorem putCluster_fireTimes (s : State) (k : Nat) (x : ClusterState) : (s.putCluster k x).fireTimes = s.fireTimes := rfl

@[simp] theorem setQueue_lastFire (x : UnitState) (q : Nat) (l : List Held) : (x.setQueue q l).lastFire = x.lastFire := by
  unfold UnitState.setQueue
  split <;> rfl

@[simp] theorem pop_fireTimes (s : State) (u q n : Nat) : (s.pop u q n).1.fireTimes = s.fireTimes :=
  putUnit_fireTimes (setQueue_lastFire ..)

/-! ### The operation of each kind of unit -/

theorem fireMac_fireTimes (s : State) (u i : Nat) (ts : List (Nat × List Held)) (taint : BitVec 2) :
    (s.fireMac u i ts taint).1.fireTimes = s.fireTimes := by
  unfold State.fireMac
  extract_lets x ca cb op tk acc0 h pay
  split
  next seen bad logged _ _ refill y z given _ put _ _ acc cs _ =>
  have monitored : seen.fireTimes = s.fireTimes := by
    unfold seen
    split
    · exact fireTimes_of_nowLat (monitorIn_nowLat ..)
    · rfl
  have faulted : logged.fireTimes = s.fireTimes :=
    ite_keeps ((fireTimes_of_nowLat (fault_nowLat ..)).trans monitored) monitored
  have refilled : given.fireTimes = logged.fireTimes := ite_keeps (fireTimes_of_nowLat (bucketAdd_nowLat ..)) rfl
  have kept : z.lastFire = (given.unit u).lastFire := by
    rw [lastFire_of_fireTimes refilled]
    unfold z
    split <;> rfl
  have emptied : put.fireTimes = s.fireTimes :=
    (putUnit_fireTimes (x := { z with acc := [], accTok := 0, accTaint := 0 }) kept).trans (refilled.trans faulted)
  clear_value seen logged given z put
  split
  · exact (putUnit_fireTimes (by exact kept)).trans (refilled.trans faulted)
  split
  · split
    exact emptied
  · exact emptied

theorem steerTake_fireTimes (s : State) (u i : Nat) (x : UnitState) (op v cb q : Nat) (last : Bool) (emit : List Nat → Bool → FireOut) :
    (s.steerTake u i x op v cb q last emit).1.fireTimes = s.fireTimes := by
  unfold State.steerTake
  extract_lets grain two step loop ports overs counted y stepped looped
  have k : counted.fireTimes = s.fireTimes :=
    ite_keeps (fireTimes_of_nowLat ((count_nowLat ..).trans (raise_nowLat ..))) rfl
  refine (putUnit_fireTimes ?_).trans k
  have h : stepped.lastFire = y.lastFire := by
    unfold stepped
    (repeat' split) <;> rfl
  unfold looped
  split <;> exact h

theorem fireSteer_fireTimes (s : State) (u i : Nat) (ts : List (Nat × List Held)) (taint : BitVec 2) :
    (s.fireSteer u i ts taint).1.fireTimes = s.fireTimes := by
  have checked := fun raw v => fireTimes_of_nowLat (steerCheck_nowLat s u i raw v)
  unfold State.fireSteer
  extract_lets x op cb tk emit v raw t
  clear_value v
  split
  · split <;> rfl
  split
  · exact checked ..
  split
  · exact checked ..
  · exact (steerTake_fireTimes ..).trans (checked ..)

theorem fireTree_fireTimes (s : State) (u i : Nat) (h : Held) (taint : BitVec 2) :
    (s.fireTree u i h taint).1.fireTimes = s.fireTimes := by
  unfold State.fireTree
  extract_lets x cb fp n bytes nf keep sz t tnt
  have stored : t.fireTimes = s.fireTimes := rfl
  clear_value t
  split <;> exact (putUnit_fireTimes (by rfl)).trans stored

theorem fireTable_fireTimes (s : State) (u i : Nat) (h : Held) (taint : BitVec 2) :
    (s.fireTable u i h taint).1.fireTimes = s.fireTimes := by
  unfold State.fireTable
  extract_lets x ca cb f n o
  split
  next tb bad _ =>
  extract_lets r
  exact fireTimes_of_nowLat (roCheck_nowLat ..)

theorem fireReduce_fireTimes (s : State) (u : Nat) (ts : List (Nat × List Held)) (taint : BitVec 2) :
    (s.fireReduce u ts taint).1.fireTimes = s.fireTimes := by
  unfold State.fireReduce
  extract_lets x ca cb cc op
  split
  split
  split
  extract_lets acc arr e0 e1
  split
  · split
    exact putUnit_fireTimes (by rfl)
  · exact putUnit_fireTimes (by rfl)

theorem fireRank_fireTimes (s : State) (u : Nat) (h : Held) (taint : BitVec 2) :
    (s.fireRank u h taint).1.fireTimes = s.fireTimes := by
  unfold State.fireRank
  extract_lets x ca cb f n es acc tnt d
  split
  · exact putUnit_fireTimes (s := s.nextFree.2) (by rfl)
  · exact putUnit_fireTimes (by rfl)

theorem fireHist_fireTimes (s : State) (u i : Nat) (ts : List (Nat × List Held)) (taint : BitVec 2) :
    (s.fireHist u i ts taint).1.fireTimes = s.fireTimes := by
  unfold State.fireHist
  extract_lets x ca cb x0 n k tk
  split
  · rfl
  split
  next t cs bad binned =>
  have stored : t.fireTimes = s.fireTimes :=
    fst_keeps binned (foldl_fst_keeps State.fireTimes _ (fun _ _ => by rfl) _ _)
  extract_lets logged tnt y
  have kept : logged.fireTimes = s.fireTimes := (ite_keeps (fireTimes_of_nowLat (rwFault_nowLat ..)) rfl).trans stored
  clear_value logged
  split
  · refine (putUnit_fireTimes (by rfl)).trans (Eq.trans (ite_keeps ?_ rfl) kept)
    exact foldl_keeps State.fireTimes _ (fun _ _ => sramWrite_keeps ..) _ _
  · exact (putUnit_fireTimes (by rfl)).trans kept

theorem fireKind_fireTimes (s : State) (u i : Nat) (ts : List (Nat × List Held)) (taint : BitVec 2) :
    (s.fireKind u i ts taint).1.fireTimes = s.fireTimes := by
  unfold State.fireKind
  extract_lets h
  clear_value h
  split
  · exact fireMac_fireTimes ..
  · exact fireSteer_fireTimes ..
  · split
    · exact fireTree_fireTimes ..
    · rfl
  · split
    · exact fireTable_fireTimes ..
    · rfl
  · exact fireReduce_fireTimes ..
  · split
    · exact fireRank_fireTimes ..
    · rfl
  · exact fireHist_fireTimes ..
  · rfl

end Sys2Proof.Machine

/-! PROOFS. A unit that fires, and a column of lattice mode that fires (R151, R152, R155, R163, R179). -/

namespace Sys2Proof.Machine

/-! ### The check of a head (R146) -/

theorem sideFault_unit (s : State) (u q : Nat) (h : Held) (v : Nat) : (s.sideFault u q h).1.unit v = s.unit v :=
  unit_of_lat (fault_lat ..) v

theorem setQueue_actx (x : UnitState) (q : Nat) (l : List Held) : (x.setQueue q l).actx = x.actx := by
  unfold UnitState.setQueue
  split <;> rfl

/-- The context words of a unit stand apart from the fault log of its die. -/
theorem aCtxA_ne_aFlt (u k : Nat) : aCtxA u k ≠ aFlt (uRegion u / 8) 0x214 := by
  unfold aCtxA aUnit aLat aFlt
  omega

/-- A head that fails its check is marked, and the unit's active context stays as it is. -/
theorem headCheck_ctxA (s : State) (u q : Nat) :
    (s.headCheck u q).ctxA u ((s.headCheck u q).unit u).actx = s.ctxA u (s.unit u).actx := by
  have words : ∀ h k, (s.sideFault u q h).1.ctxA u k = s.ctxA u k := fun h k =>
    congrArg BitVec.toNat (reg_fault_taint s rfl (aCtxA_ne_aFlt u k))
  unfold State.headCheck
  split
  · next h rest _ =>
    split
    · dsimp only
      rw [unit_putUnit_same, setQueue_actx, sideFault_unit]
      exact words ..
    · rfl
  · rfl

/-! ### A unit that fires (R151, R152, R155) -/

/-- A firing is marked with its cycle once its tokens are taken; what it computes and emits then keeps the mark. -/
theorem fire_lastFire (s : State) (u : Nat) (dn : Due) (p : Plan) : ((s.fire u dn p).unit u).lastFire = some s.now := by
  unfold State.fire
  extract_lets i d k ca
  split
  next t1 ts popped =>
  extract_lets all
  split
  next t2 _ consumed =>
  split
  next t3 _ checked =>
  have clock : t3.now = s.now := by
    have taken : t1.fireTimes = s.fireTimes := fst_keeps popped
      (foldl_fst_keeps State.fireTimes _ (fun _ _ => by exact pop_fireTimes ..) _ _)
    have tasted : t2.nowLat = t1.nowLat := fst_keeps consumed (consume_nowLat ..)
    have worded : t3.nowLat = t2.nowLat := fst_keeps checked (cfgCheck_nowLat ..)
    exact (now_of_nowLat (worded.trans tasted)).trans (now_of_fireTimes taken)
  extract_lets taint _ marked counted
  have mark : (marked.unit u).lastFire = some s.now := by
    rw [← clock]
    exact congrArg UnitState.lastFire (unit_putUnit_same ..)
  have count : counted.fireTimes = marked.fireTimes := fireTimes_of_nowLat (count_nowLat ..)
  clear_value counted marked
  split
  next t4 o operated =>
  have worked : t4.fireTimes = counted.fireTimes := fst_keeps operated (fireKind_fireTimes ..)
  extract_lets raised out0 out1
  have noted : raised.fireTimes = t4.fireTimes := fireTimes_of_nowLat (raiseUnit_nowLat ..)
  split
  next t6 l0 made0 =>
  split
  next t7 l1 made1 =>
  have emitted0 : t6.fireTimes = raised.fireTimes := fst_keeps made0 (fireTimes_of_nowLat (make_nowLat ..))
  have emitted1 : t7.fireTimes = t6.fireTimes := fst_keeps made1 (fireTimes_of_nowLat (make_nowLat ..))
  extract_lets x y z w
  have kept : z.lastFire = (t7.unit u).lastFire := by
    have piped : y.lastFire = x.lastFire := by
      unfold y
      split <;> rfl
    refine Eq.trans ?_ piped
    unfold z
    split <;> rfl
  have delayed : w.fireTimes = t7.fireTimes := fireTimes_of_nowLat (ite_keeps rfl (mapInst_nowLat ..))
  clear_value z w
  have written : (w.putUnit u z).fireTimes = w.fireTimes := putUnit_fireTimes (kept.trans (lastFire_of_fireTimes delayed u).symm)
  have all : ((w.putUnit u z).doOp i d dn.sched).fireTimes = marked.fireTimes :=
    (fireTimes_of_nowLat (doOp_nowLat ..)).trans
      (written.trans (delayed.trans (emitted1.trans (emitted0.trans (noted.trans (worked.trans count))))))
  exact (lastFire_of_fireTimes all u).trans mark

section
variable {s : State} {u : Nat}

/-- Nothing holds a due firing whose inputs and room stand. -/
theorem fireReady_fires {dn : Due} {p : Plan} (running : s.uGated u = false) (due : s.nextDue u = some dn)
    (steady : (s.unit u).switching = false) (elapsed : s.intervalOver u (s.unit u) = true) (late : dn.sched ≤ s.cycle (uRegion u / 8))
    (planned : s.plan u = some p) (inputs : inputsReady (s.unit u) s.now p = true) (room0 : portReady (s.unit u) 0 p.outs0 = true)
    (room1 : portReady (s.unit u) 1 p.outs1 = true) (free : s.uKind u ≠ 2 ∨ featHeld (s.unit u) s.now = false) :
    s.fireReady u = .fires dn p := by
  have buffer : (decide (s.uKind u = 2) && featHeld (s.unit u) s.now) = false := by
    rcases free with other | empty
    · simp [other]
    · simp [empty]
  simp only [State.fireReady, running, due, elapsed, steady, planned, inputs, room0, room1, buffer, Nat.not_lt.2 late]
  simp

theorem tryFire_lastFire {dn : Due} {p : Plan} (fires : s.fireReady u = .fires dn p)
    (agree : seqConflict ((p.reads.foldl (fun s r => s.headCheck u r.1) s).unit u) (caSeqchk (s.ctxA u (s.unit u).actx)) p = none) :
    ((s.tryFire u).unit u).lastFire = some s.now := by
  have checked : (p.reads.foldl (fun s r => s.headCheck u r.1) s).now = s.now :=
    now_of_fixed (fixed_foldl _ _ _ fun _ _ => fixed_headCheck ..)
  unfold State.tryFire
  rw [fires]
  dsimp only
  have context := foldl_keeps (fun t => t.ctxA u (t.unit u).actx) (fun s (r : Nat × Nat) => s.headCheck u r.1)
    (fun t r => headCheck_ctxA t u r.1) p.reads s
  rw [context, agree]
  exact (fire_lastFire ..).trans (congrArg some checked)

/-! ### A column that fires (R163, R179) -/

theorem latticeFire_lastFire (final : cbFinal (s.ctxB u 0) = true) (column : s.column u ≠ [])
    (held : ∀ v ∈ s.column u, s.columnTokens v ≤
      ((s.unit v).q0.filter (fun h => decide (h.since + unitRow u ≤ s.now + unitRow v))).length)
    (elapsed : ∀ c, (s.unit u).lastFire = some c → c + s.columnTokens u * s.uII u 0 ≤ s.now) :
    ((s.latticeFire u).unit u).lastFire = some s.now := by
  unfold State.latticeFire
  extract_lets vs ready due checked start op acc0
  have isReady : ready = true := List.all_eq_true.2 fun v hv => decide_eq_true (held v hv)
  have isDue : due = true := by
    unfold due
    split
    · next c last => exact decide_eq_true (elapsed c last)
    · rfl
  rw [if_neg (by simp [final, isReady, isDue, vs, column])]
  have begun : checked.now = s.now := now_of_fixed (fixed_foldl _ _ _ fun _ _ => fixed_headCheck ..)
  clear_value checked
  split
  next t acc cs taint hl ran =>
  have clock : t.now = s.now := by
    refine (fst_keeps (g := State.now) ran (foldl_fst_keeps State.now _ (fun a v => ?_) _ _)).trans begun
    refine Eq.trans (b := (a.1.pop v 0 (a.1.columnTokens v)).1.now) (now_of_nowLat ?_) rfl
    refine (foldl_keeps State.nowLat _ (fun b h => ?_) _ _).trans (Eq.trans (count_nowLat ..) (consume_nowLat ..))
    split
    · exact monitorIn_nowLat ..
    · rfl
  extract_lets i c _ marked
  split
  have mark : (marked.unit u).lastFire = some s.now := by
    rw [← clock]
    exact congrArg UnitState.lastFire (unit_putUnit_same ..)
  exact (lastFire_of_fireTimes (fireTimes_of_nowLat (raiseUnit_nowLat ..)) u).trans mark

end

/-! ### The rows -/

theorem exec_firing {u : Nat} (hu : u < 2 ^ 15) (s : State) : exec (.firing u) s = .next (s.firing u) :=
  exec_only rfl (decide_eq_true hu) rfl

/-- Settles O30: a unit fires by `tryFire`, or by its column in lattice mode, and what follows the mark of the firing keeps it. -/
theorem firingComplete : Obligations.FiringComplete := by
  intro s u hu live
  refine ⟨fun dn p mode running due steady elapsed late planned inputs room0 room1 free agree => ?_,
    fun mode kind final column held elapsed => ?_⟩
  · have fires := fireReady_fires running due steady elapsed late planned inputs room0 room1 free
    refine ⟨_, exec_firing hu s, ?_⟩
    have alone : ¬(s.regionMode (uRegion u) = 2 ∧ s.uKind u = 0) := fun ⟨m, k⟩ => mode.elim (· m) (· k)
    rw [State.firing, if_neg (by simp [live]), if_neg alone]
    exact tryFire_lastFire fires agree
  · refine ⟨_, exec_firing hu s, ?_⟩
    rw [State.firing, if_neg (by simp [live]), if_pos ⟨mode, kind⟩]
    exact latticeFire_lastFire final column held elapsed

end Sys2Proof.Machine

/-! PROOFS. The other events of a unit, and the rescale stage of a cluster (R110 to R114, R154, R167, R168, R171, R191). -/

namespace Sys2Proof.Machine

/-! ### The rows of a unit -/

theorem exec_foldSwitch {u : Nat} (hu : u < 2 ^ 15) (s : State) : exec (.foldSwitch u) s = .next (s.foldSwitch u) :=
  exec_only rfl (decide_eq_true hu) rfl

theorem exec_standbyFillDone {u : Nat} (hu : u < 2 ^ 15) (s : State) : exec (.standbyFillDone u) s = .next (s.standbyFillDone u) :=
  exec_only rfl (decide_eq_true hu) rfl

theorem exec_pipelineComplete {u : Nat} (hu : u < 2 ^ 15) (s : State) : exec (.pipelineComplete u) s = .next (s.pipelineComplete u) :=
  exec_only rfl (decide_eq_true hu) rfl

theorem exec_burstTokenPlace {u p : Nat} (hu : u < 2 ^ 15) (hp : p < 2) (s : State) :
    exec (.burstTokenPlace u p) s = .next (s.burstPlace u p) :=
  exec_only rfl (and_named hu hp) rfl

theorem exec_treeEvaluation {u : Nat} (hu : u < 2 ^ 15) (s : State) : exec (.treeEvaluation u) s = .next (s.treeEvaluation u) :=
  exec_only rfl (decide_eq_true hu) rfl

/-! ### What the events of a unit write (R154, R167, R168, R171, R191) -/

/-- A tree evaluation writes its unit, in the cycle in which it starts. -/
theorem treeEvaluation_writes {s : State} {u : Nat} {P : State → Prop} {e : TreeEvent} {rest : List TreeEvent}
    (first : (s.unit u).waiting = e :: rest) (ready : e.ready ≤ s.now) (live : s.regionLive (uRegion u) = true)
    (free : s.treeBusy (s.unit u) = false)
    (written : ∀ t x, x.waiting = rest → x.evalStart = some s.now → P (State.putUnit t u x)) : P (s.treeEvaluation u) := by
  unfold State.treeEvaluation
  extract_lets x
  split
  · next none => exact absurd (none.symm.trans first) (by simp)
  next e' rest' found =>
  obtain ⟨rfl, rfl⟩ := List.cons.inj (found.symm.trans first)
  have go : ¬(s.now < e'.ready ∨ s.regionLive (uRegion u) = false ∨ s.treeBusy x = true) := by
    simp [x, live, free, Nat.not_lt.2 ready]
  rw [if_neg go]
  split
  split
  next t1 bad read =>
  extract_lets t2 tnt os
  have logged : t2.nowLat = s.nowLat :=
    (ite_keeps (rwFault_nowLat ..) rfl).trans (fst_keeps read (roCheck_nowLat ..))
  clear_value t2
  split
  next t3 hs made =>
  have clock : t3.now = s.now := now_of_nowLat ((fst_keeps made (make_nowLat ..)).trans logged)
  exact written t3 _ rfl (congrArg some clock)

section
variable {s : State} {u : Nat} (hu : u < 2 ^ 15)
include hu

/-- A unit that owes its switch cycle takes its successor context and the set that it has filled. -/
theorem answers_foldSwitch (owed : (s.unit u).switching = true) (live : s.regionLive (uRegion u) = true)
    (elapsed : s.intervalOver u (s.unit u) = true) (full : s.standbyFull u (s.unit u) = true) :
    Answers (.foldSwitch u) s (fun t => (t.unit u).actx = s.nextCtx u (s.unit u).actx ∧ (t.unit u).fdone = 0
      ∧ (t.unit u).switching = false ∧ (t.unit u).setA = if s.uNctx u = 0 then (s.unit u).setA else (s.unit u).setB) := by
  refine ⟨_, exec_foldSwitch hu s, ?_⟩
  unfold State.foldSwitch
  extract_lets x k ii one switched
  have go : (!x.switching || !s.regionLive (uRegion u) || !s.intervalOver u x || !s.standbyFull u x) = false := by
    simp [x, owed, live, elapsed, full]
  rw [go, if_neg Bool.false_ne_true]
  beta_reduce
  rw [unit_of_lat (count_lat ..), unit_putUnit_same]
  refine ⟨rfl, rfl, rfl, ?_⟩
  by_cases single : s.uNctx u = 0 <;> simp [one, single, x]

/-- A fill that is done completes the standby set, unless a streamed write into its area is still to come. -/
theorem answers_standbyFillDone {c : Nat} (fill : (s.unit u).fillDone = some c) (done : c ≤ s.now)
    (lacking : (s.unit u).standbyOk = false) (streamed : s.streamPending u (s.nextCtx u (s.unit u).actx) = false) :
    Answers (.standbyFillDone u) s (fun t => (t.unit u).standbyOk = true ∧ (t.unit u).actx = (s.unit u).actx) := by
  refine ⟨_, exec_standbyFillDone hu s, ?_⟩
  have go : ((s.unit u).standbyOk || decide (s.now < c) || s.streamPending u (s.nextCtx u (s.unit u).actx)) = false := by
    simp [lacking, streamed, done]
  unfold State.standbyFillDone
  dsimp only
  rw [fill]
  dsimp only
  rw [go, if_neg Bool.false_ne_true, unit_putUnit_same]
  exact ⟨rfl, rfl⟩

/-- A firing whose pipeline has run places its tokens where the output buffers have room. -/
theorem answers_pipelineComplete {f : Flight} {rest : List Flight} (first : (s.unit u).pipe = f :: rest) (done : f.done ≤ s.now)
    (live : s.regionLive (uRegion u) = true) (straight : s.uLoop u = false) (room0 : portReady (s.unit u) 0 f.out0.length = true)
    (room1 : portReady (s.unit u) 1 f.out1.length = true) :
    Answers (.pipelineComplete u) s (fun t => (t.unit u).pipe = rest
      ∧ (t.unit u).out0 = (s.unit u).out0 ++ (f.out0.take 4).map (fun h => { h with since := s.now })
      ∧ (t.unit u).out1 = (s.unit u).out1 ++ (f.out1.take 4).map (fun h => { h with since := s.now })) := by
  refine ⟨_, exec_pipelineComplete hu s, ?_⟩
  have go : ¬(s.now < f.done ∨ s.regionLive (uRegion u) = false ∨ portReady (s.unit u) 0 f.out0.length = false
      ∨ portReady (s.unit u) 1 f.out1.length = false) := by
    simp [live, room0, room1, done]
  unfold State.pipelineComplete
  dsimp only
  rw [first]
  simp only [straight, Bool.false_and, Bool.false_eq_true, if_false]
  rw [if_neg go, unit_putUnit_same]
  exact ⟨rfl, by rw [List.map_take], by rw [List.map_take]⟩

/-- A further token of a burst takes an entry that freed in an earlier cycle. -/
theorem answers_burstTokenPlace {p : Nat} (hp : p < 2) {h : Held} {rest : List Held} (live : s.regionLive (uRegion u) = true)
    (first : (s.unit u).burst p = h :: rest) (unused : s.usedNow (useKey 2 (2 * u + p)) = false)
    (room : ((s.unit u).out p).length + bitOf (s.usedNow (useKey 1 (2 * u + p))) < 4) :
    Answers (.burstTokenPlace u p) s (fun t => t.unit u
      = ((s.unit u).setOut p ((s.unit u).out p ++ [{ h with since := s.now }])).setBurst p rest) := by
  refine ⟨_, exec_burstTokenPlace hu hp s, ?_⟩
  unfold State.burstPlace
  dsimp only
  rw [first]
  dsimp only
  rw [if_pos ⟨room, live, unused⟩, unit_putUnit_same]

/-- The oldest filled feature buffer is evaluated once the previous evaluation has run. -/
theorem answers_treeEvaluation {e : TreeEvent} {rest : List TreeEvent} (first : (s.unit u).waiting = e :: rest)
    (ready : e.ready ≤ s.now) (live : s.regionLive (uRegion u) = true) (free : s.treeBusy (s.unit u) = false) :
    Answers (.treeEvaluation u) s (fun t => (t.unit u).waiting = rest ∧ (t.unit u).evalStart = some s.now) := by
  refine ⟨_, exec_treeEvaluation hu s, treeEvaluation_writes first ready live free
    (P := fun t => (t.unit u).waiting = rest ∧ (t.unit u).evalStart = some s.now) fun t x waiting start => ?_⟩
  rw [unit_putUnit_same]
  exact ⟨waiting, start⟩

end

/-! ### The rescale stage (R110 to R114) -/

theorem exec_rescaleStage {r c : Nat} (hr : r < 16) (hc : c < 64) (s : State) :
    exec (.rescaleStage r c) s = .next (s.rescaleStage (64 * r + c)) := exec_only rfl (and_named hr hc) rfl

theorem exec_scaleWaitTimeout {r c : Nat} (hr : r < 16) (hc : c < 64) (s : State) :
    exec (.scaleWaitTimeout r c) s = .next (s.scaleTimeout (64 * r + c)) := exec_only rfl (and_named hr hc) rfl

theorem cluster_of_clusters {s t : State} (h : t.lat.clusters = s.lat.clusters) (k : Nat) : t.cluster k = s.cluster k := by
  rw [State.cluster, h, State.cluster]

/-- A token that is rescaled leaves every stage as it is. -/
theorem rescaleToken_clusters (s : State) (k : Nat) (f : Final) (h : Option Held) (n0 : Nat) (skew : Bool) :
    (s.rescaleToken k f h n0 skew).lat.clusters = s.lat.clusters := by
  unfold State.rescaleToken
  extract_lets ke es
  split
  next t1 bad parity =>
  split
  next ds dn _ =>
  extract_lets drawn rs raised tnt o0
  have h1 : raised.lat.clusters = s.lat.clusters := by
    have checked : t1.nowLat = s.nowLat := fst_keeps parity (rescaleParity_nowLat ..)
    have noted : drawn.lat.clusters = t1.lat.clusters := rfl
    exact (congrArg Lattice.clusters (lat_of_nowLat (raiseUnit_nowLat ..))).trans
      (noted.trans (congrArg Lattice.clusters (lat_of_nowLat checked)))
  clear_value raised
  split
  next t3 l0 made0 =>
  split
  next t4 l1 made1 =>
  extract_lets monitored x
  have h2 : monitored.lat.clusters = s.lat.clusters := by
    have made : t4.nowLat = raised.nowLat := (fst_keeps made1 (make_nowLat ..)).trans (fst_keeps made0 (make_nowLat ..))
    exact (congrArg Lattice.clusters (lat_of_nowLat ((monitorFinal_nowLat ..).trans made))).trans h1
  split <;> exact h2

theorem stageEmit_cluster (s : State) (k : Nat) (f : Final) (h : Option Held) (skew : Bool) :
    (s.stageEmit k f h skew).cluster k = ((s.cluster k).takeHead f).2 := by
  unfold State.stageEmit
  split
  next n c taken =>
  rw [cluster_of_clusters (rescaleToken_clusters ..), cluster_putCluster, if_pos rfl, taken]

/-- The head token skews: its event is noted, and the stage keeps its order (R114). -/
theorem scaleSkew_cluster (s : State) (k : Nat) (f : Final) (cause : Nat) (head : Option Held) :
    ((s.scaleSkew k f cause head).cluster k).stage = (s.cluster k).stage
    ∧ ((s.scaleSkew k f cause head).cluster k).skews = (s.cluster k).skews ++ [⟨f.inst, sideSeq f.side, (s.cluster k).latched, false⟩] := by
  unfold State.scaleSkew
  extract_lets r d info ev recorded counted logged c w
  have kept : c = s.cluster k := cluster_of_clusters (congrArg Lattice.clusters
    ((fault_lat ..).trans ((count_lat ..).trans ((firstRecord_lat ..).trans (addReg_lat ..))))) k
  rw [cluster_putCluster, if_pos rfl]
  exact ⟨(congrArg ClusterState.stage kept :), by simp only [w, kept]⟩

/-- A token that fails its check is logged, which leaves partitions, events and lattice as they are (R146). -/
theorem sideFault_keeps (s : State) (u q : Nat) (h : Held) :
    (s.sideFault u q h).1.parts = s.parts ∧ (s.sideFault u q h).1.seq = s.seq ∧ (s.sideFault u q h).1.lat = s.lat :=
  ⟨fault_parts .., (congrArg State.seq (FltFrame.fault s _ _).1 :), fault_lat ..⟩

/-- The head of the scale queue is checked again: partitions, events, entries and the stage stay. -/
theorem scaleHeadCheck_keeps (s : State) (k : Nat) : (s.scaleHeadCheck k).parts = s.parts ∧ (s.scaleHeadCheck k).seq = s.seq
    ∧ (s.scaleHeadCheck k).lat.rescale = s.lat.rescale ∧ ((s.scaleHeadCheck k).cluster k).stage = (s.cluster k).stage := by
  unfold State.scaleHeadCheck
  split
  · next h rest _ =>
    split
    · obtain ⟨parts, seq, lat⟩ := sideFault_keeps s (32 * k + 20) 0 h
      refine ⟨parts, seq, (congrArg Lattice.rescale lat :), ?_⟩
      dsimp only
      rw [cluster_putCluster, if_pos rfl]
      exact (congrArg ClusterState.stage (cluster_of_clusters (congrArg Lattice.clusters lat) k) :)
    · exact ⟨rfl, rfl, rfl, rfl⟩
  · exact ⟨rfl, rfl, rfl, rfl⟩

theorem finalEntries_congr {s t : State} (parts : t.parts = s.parts) (seq : t.seq = s.seq) (rescale : t.lat.rescale = s.lat.rescale)
    (k : Nat) (f : Final) : t.finalEntries k f = s.finalEntries k f := by
  have bank : ∀ x, t.bankOf x = s.bankOf x := fun x => by
    simp only [State.bankOf, State.newSide, State.part, parts]
  simp only [State.finalEntries, State.rescaleKey, State.inst, seq, rescale, bank]

/-- An empty stage has nothing to offer. -/
theorem stageRun_empty {s : State} {k : Nat} (empty : (s.cluster k).stage = []) (n : Nat) : s.stageRun k n = s := by
  cases n with
  | zero => rfl
  | succ n => simp [State.stageRun, State.stageHead, empty]

/-- A due final that needs no scale token leaves the stage, alone in its order, whether or not its event has skewed. -/
theorem stageHead_emits {s : State} {k : Nat} {f : Final} (alone : (s.cluster k).stage = [f]) (ready : f.ready ≤ s.now)
    (plain : ((s.finalEntries k f).any (fun e => isDyn e.2)) = false) :
    ∃ t, s.stageHead k = (t, true) ∧ (t.cluster k).stage = [] ∧ (t.cluster k).curBlk = some (sideBlk f.side) := by
  obtain ⟨parts, seq, rescale, stage⟩ := scaleHeadCheck_keeps s k
  have emits : ∃ h skew, (s.scaleHeadCheck k).stageStep k (((s.scaleHeadCheck k).cluster k).meet f) f = .emit h false skew := by
    unfold State.stageStep
    split
    · exact ⟨_, _, rfl⟩
    · rw [finalEntries_congr parts seq rescale, plain]
      exact ⟨_, _, rfl⟩
  obtain ⟨h, skew, step⟩ := emits
  refine ⟨((s.scaleHeadCheck k).putCluster k (((s.scaleHeadCheck k).cluster k).meet f)).stageEmit k f h skew, ?_, ?_⟩
  · unfold State.stageHead
    rw [alone]
    dsimp only
    rw [if_neg (Nat.not_lt.2 ready), step]
  · rw [stageEmit_cluster, cluster_putCluster, if_pos rfl]
    exact ⟨congrArg (List.drop 1) (stage.trans alone), rfl⟩

/-- One cycle of a stage that holds one due final, which needs no scale token. -/
theorem answers_rescaleStage {s : State} {r c : Nat} {f : Final} (hr : r < 16) (hc : c < 64) (live : s.regionLive r = true)
    (unused : s.usedNow (useKey 8 (64 * r + c)) = false) (alone : (s.cluster (64 * r + c)).stage = [f]) (ready : f.ready ≤ s.now)
    (plain : ((s.finalEntries (64 * r + c) f).any (fun e => isDyn e.2)) = false) :
    Answers (.rescaleStage r c) s (fun t => (t.cluster (64 * r + c)).stage = []
      ∧ (t.cluster (64 * r + c)).curBlk = some (sideBlk f.side)) := by
  have region : (64 * r + c) / 64 = r := by omega
  obtain ⟨t, leaves, empty, block⟩ := stageHead_emits alone ready plain
  have run : s.stageRun (64 * r + c) 16 = t := by
    rw [State.stageRun, leaves]
    exact stageRun_empty empty 15
  refine ⟨_, exec_rescaleStage hr hc s, ?_⟩
  rw [State.rescaleStage, if_neg (by simp [region, live, unused]), run]
  dsimp only
  rw [if_neg (by simp [empty, alone])]
  exact ⟨empty, block⟩

/-- A final that has waited 64 cycles for its scale token leaves without it, and its event has skewed. -/
theorem answers_scaleWaitTimeout {s : State} {r c w : Nat} {f : Final} {rest : List Final} (hr : r < 16) (hc : c < 64)
    (live : s.regionLive r = true) (head : (s.cluster (64 * r + c)).stage = f :: rest)
    (waits : (s.cluster (64 * r + c)).waitSince = some w) (absent : s.scaleHead (s.cluster (64 * r + c)) = none) (late : w + 64 ≤ s.now) :
    Answers (.scaleWaitTimeout r c) s (fun t => (t.cluster (64 * r + c)).stage = rest
      ∧ (t.cluster (64 * r + c)).waitSince = none
      ∧ ∃ x ∈ (t.cluster (64 * r + c)).skews, x.inst = f.inst ∧ x.seq = sideSeq f.side) := by
  have region : (64 * r + c) / 64 = r := by omega
  obtain ⟨stage, skews⟩ := scaleSkew_cluster s (64 * r + c) f 0 none
  have run : s.scaleTimeout (64 * r + c) = s.stageSkew (64 * r + c) f 0 none := by
    simp [State.scaleTimeout, head, waits, absent, late, region, live]
  refine ⟨_, exec_scaleWaitTimeout hr hc s, ?_⟩
  rw [run, State.stageSkew]
  beta_reduce
  rw [stageEmit_cluster]
  refine ⟨congrArg (List.drop 1) (stage.trans head), rfl, ⟨f.inst, sideSeq f.side, (s.cluster (64 * r + c)).latched, false⟩, ?_, rfl, rfl⟩
  change _ ∈ ((s.scaleSkew (64 * r + c) f 0 none).cluster (64 * r + c)).skews
  rw [skews]
  exact List.mem_append_right _ (List.mem_singleton.2 rfl)

/-- Settles O31: each event of a unit writes what its rule says once the conditions of the row hold, and the two of the rescale
stage turn on the head of its order. -/
theorem unitEventsComplete : Obligations.UnitEventsComplete := by
  refine ⟨fun s u hu => ⟨answers_foldSwitch hu, fun c => answers_standbyFillDone hu, fun f rest =>
      answers_pipelineComplete hu, fun h rest live => ⟨fun first unused room => ?_, fun first unused room => ?_⟩,
      fun e rest => answers_treeEvaluation hu⟩,
    fun s r c f rest hr hc live => ⟨answers_rescaleStage hr hc live, fun w =>
      answers_scaleWaitTimeout hr hc live⟩⟩
  · obtain ⟨t, run, unit⟩ := answers_burstTokenPlace hu (p := 0) (by decide) live first unused room
    exact ⟨t, run, congrArg UnitState.out0 unit, congrArg UnitState.burst0 unit⟩
  · obtain ⟨t, run, unit⟩ := answers_burstTokenPlace hu (p := 1) (by decide) live first unused room
    exact ⟨t, run, congrArg UnitState.out1 unit, congrArg UnitState.burst1 unit⟩

end Sys2Proof.Machine

/-! PROOFS. A step on an empty queue: what one lattice cycle advances and what it leaves alone (R211, R551, R556). -/

namespace Sys2Proof.Machine

/-! ### The parts of a cycle -/

/-- The state after the cycle's edge of the 156.25 MHz reference, which comes at every eighth cycle (R556). -/
def State.g1Edge (s : State) : State := if (s.now + 1) % 8 = 0 then s.g1Tick else s

/-- The lattice's own work of a cycle (R146, R152, R160, R406). -/
def State.cycleWork (s : State) : State :=
  ((((s.headsCheck.stalls.rowsArrive.admitCycle.gated 0).gated 1).cycleCounts 0).cycleCounts 1).cycleOver

/-- The advance of the time bases and counts, and what falls due by it (R211, R399, R551). -/
def State.cycleEnd (s : State) : State := s.tbKeep.tbTick.advance.takeSteps

theorem step_of_empty {s : State} (h : s.pending = []) : step s = .next s.g1Edge.cycleWork.cycleEnd := by
  rw [step, h]
  rfl

/-! ### The edge of the reference and the lattice's work -/

theorem g1Edge_g1 (s : State) : s.g1Edge.tim.g1 =
    if (s.now + 1) % 8 = 0 then (s.tim.g1 + (s.reg (aTim 0x30000)).toNat) % 2 ^ 88 else s.tim.g1 := by
  unfold State.g1Edge
  split <;> rfl

/-- The edge changes the G1 counter alone. -/
theorem g1Edge_frame (s : State) : s.g1Edge = { s with tim := { s.tim with g1 := s.g1Edge.tim.g1 } } := by
  unfold State.g1Edge
  split <;> rfl

/-- The edge and the lattice's work keep all but the lattice's own state and the G1 counter. -/
theorem fixed_edgeWork (s : State) :
    s.g1Edge.cycleWork.fixed = State.fixed { s with tim := { s.tim with g1 := s.g1Edge.tim.g1 } } :=
  (fixed_work s.g1Edge).trans (congrArg State.fixed (g1Edge_frame s))

/-! ### The advance of the counts -/

/-- `t` differs from `a` in the counts of its time bases at most. -/
def BasesMove (a t : State) : Prop := t = { a with tim := { a.tim with bases := t.tim.bases } }

theorem BasesMove.foldl {β : Type} (f : State → β → State) (h : ∀ s x, BasesMove s (f s x)) (l : List β) (s : State) :
    BasesMove s (l.foldl f s) := by
  induction l generalizing s with
  | nil => exact rfl
  | cons x l ih =>
    have first := h s x
    have rest := ih (f s x)
    unfold BasesMove at *
    rw [List.foldl_cons, rest, first]

/-- A cycle moves the time bases and nothing else of them (R551). -/
theorem BasesMove.tbTick (s : State) : BasesMove s s.tbTick := by
  refine BasesMove.foldl _ (fun _ _ => ?_) _ s
  rfl

/-- Elastic steps that take effect stand in registers and in the passes under way, nowhere else (R399). -/
theorem takeSteps_frame (s : State) : s.takeSteps = { s with regs := s.takeSteps.regs, deep := s.takeSteps.deep } := by
  unfold State.takeSteps
  extract_lets own n t
  have registers : t = { s with regs := t.regs } := by
    unfold t
    split <;> rfl
  rw [registers]

/-- The end of a cycle advances the clock and both schedule counts, and leaves the G1 counter to the reference. -/
theorem cycleEnd_frame (s : State) : ∃ regs deep hist bases, s.cycleEnd = { s with
    now := s.now + 1
    regs := regs
    deep := deep
    tim := { s.tim with hist := hist, bases := bases }
    seq := { s.seq with count0 := (s.seq.count0 + 1) % 2 ^ 64, count1 := (s.seq.count1 + 1) % 2 ^ 64 } } := by
  refine ⟨s.cycleEnd.regs, s.cycleEnd.deep, s.tbKeep.tim.hist, s.tbKeep.tbTick.tim.bases, ?_⟩
  have advanced := congrArg State.advance (BasesMove.tbTick s.tbKeep)
  exact (takeSteps_frame _).trans (congrArg (fun t : State => { t with regs := s.cycleEnd.regs, deep := s.cycleEnd.deep }) advanced)

/-- Settles O2: a cycle is the edge of the reference, the lattice's own work and the advance of the counts, and each of the three
writes its own part of the state. -/
theorem emptyQueueIsOneCycle : Obligations.EmptyQueueIsOneCycle := by
  intro s empty
  refine ⟨_, step_of_empty empty, ?_⟩
  have kept := fixed_edgeWork s
  have spent : s.g1Edge.cycleWork.cyc = [] ∧ s.g1Edge.cycleWork.lat.used = [] := ⟨rfl, rfl⟩
  generalize s.g1Edge.cycleWork = w at kept spent ⊢
  obtain ⟨regs, deep, hist, bases, advanced⟩ := cycleEnd_frame w
  simp only [State.fixed, Prod.mk.injEq] at kept
  obtain ⟨pending, hw, now, -, -, -, free, ops, parts, chains, mit, tim, -, cap, lan, wyl, sys, barrier, stack, count0, count1,
    insts⟩ := kept
  rw [advanced]
  refine ⟨congrArg (· + 1) now, ?_, ?_, insts, spent.1, spent.2, ?_, pending.trans empty, parts, ops, stack, chains, mit, cap, lan, wyl,
    sys, barrier, hw, free⟩
  · rw [← count0]
  · rw [← count1]
  · exact (congrArg TimeUnit.g1 tim :).trans (g1Edge_g1 s)

end Sys2Proof.Machine

/-! PROOFS. Memory slots: a read brings 32 bytes of a stack onto the fabric, a write stores 32 bytes from it (R222, R226). -/

namespace Sys2Proof.Machine

/-! ### What a slot leaves alone -/

/-- The tokens delivered to the ports of the fabric and the bytes of the stacks: what a write slot changes. -/
def State.inboxStack (s : State) : AMap (List Passage) × Mem := (s.lat.inbox, s.flt.stack)

theorem inboxStack_of {s t : State} (lat : t.lat = s.lat) (stack : t.flt.stack = s.flt.stack) : t.inboxStack = s.inboxStack :=
  Prod.ext (congrArg Lattice.inbox lat) stack

theorem count_inboxStack (s : State) (d ev n : Nat) (o : Occ) : (s.count d ev n o).inboxStack = s.inboxStack :=
  inboxStack_of (count_lat ..) (by rw [CntRegs.count s d ev n o])

/-- An operation that is done takes no token from a port and stores no byte. -/
theorem doOp_inboxStack (s : State) (i d sched : Nat) : (s.doOp i d sched).inboxStack = s.inboxStack := by
  refine inboxStack_of (doOp_lat ..) ?_
  have done : ∀ t : State, (t.opDone i d).flt = t.flt := fun t => by
    unfold State.opDone
    (repeat' split) <;> rfl
  have ended : ∀ t : State, (t.instEnd i).flt = t.flt := fun t => by
    unfold State.instEnd
    (repeat' split) <;> rfl
  rw [State.doOp, ended, State.execOp, done]
  split <;> rfl

theorem memErrFirst_lat (s : State) (d ctrl info byte o : Nat) : (s.memErrFirst d ctrl info byte o).lat = s.lat :=
  (firstRecord_lat ..).trans (addReg_lat ..)

/-- The check of a unit that is read leaves the lattice alone (R483). -/
theorem memCheck_lat (s : State) (d ctrl lane frame byte : Nat) (p : Option Nat) (i : Nat) :
    (s.memCheck d ctrl lane frame byte p i).1.lat = s.lat := by
  unfold State.memCheck
  extract_lets key
  split
  · rfl
  · exact (addReg_lat ..).trans (bucketAdd_lat ..)
  · exact (fault_lat ..).trans (memErrFirst_lat ..)

theorem memToken_lat (s : State) (d ctrl lane r frame byte : Nat) (x : Inst) :
    (s.memToken d ctrl lane r frame byte x).1.lat = s.lat := memCheck_lat s d ctrl lane frame byte (some x.part) x.id

/-! ### The slots (R226) -/

/-- The lattice with a token more at fabric port `ep`, read by the slot of key `slot` for the event of number `i`. -/
def Lattice.serveRead (l : Lattice) (ep slot i : Nat) (p : Passage) : Lattice :=
  { l with fabIn := mapPut l.fabIn ep (mapGetD l.fabIn ep [] ++ [p]) [], memServed := mapSet l.memServed slot i }

@[simp] theorem fabIn_serveRead (l : Lattice) (ep slot i : Nat) (p : Passage) :
    mapGetD (l.serveRead ep slot i p).fabIn ep [] = mapGetD l.fabIn ep [] ++ [p] := (mapGetD_mapPut ..).trans (if_pos rfl)

@[simp] theorem memServed_serveRead (l : Lattice) (ep slot i : Nat) (p : Passage) :
    mapGet (l.serveRead ep slot i p).memServed slot = some i := (mapGet_mapSet ..).trans (if_pos rfl)

section
variable {s : State} {d ctrl lane r j byte t0 : Nat} {m : MemSlot} {x : Inst} {im : Loaded}
  (image : (s.part x.part).image = some im) (place : s.memAddr x im m.addr = some byte)
include image place

/-- A read slot puts its token behind those at its port, and notes the event that it served. -/
theorem memReadSlot_lat (late : 128 ≤ s.cycle d) (unused : s.usedNow (useKey 10 (512 * d + memEp ctrl lane)) = false)
    (due : s.memDue d ctrl lane false (s.cycle d - 128) = some (r, j, m, x, t0)) : ∃ p : Passage,
    (s.memReadSlot d ctrl lane).lat =
      (s.use (useKey 10 (512 * d + memEp ctrl lane))).lat.serveRead (512 * d + memEp ctrl lane) (65536 * r + j) x.id p := by
  unfold State.memReadSlot
  extract_lets c ep
  rw [if_neg (by simp [c, ep, unused, late]), due]
  dsimp only
  rw [image]
  dsimp only
  rw [place]
  have token := memToken_lat (s.use (useKey 10 ep)) d ctrl lane r m.cycle byte x
  have marked : ∀ t : State, (if t0 + 128 < c then (t.addReg (aSeq d 0x2C) 1).markLate x.id else t).lat = t.lat := fun t =>
    ite_lat ((markLate_lat ..).trans (addReg_lat ..)) rfl
  exact ⟨_, (doOp_lat ..).trans ((count_lat ..).trans
    (congrArg (fun l => Lattice.serveRead l ep (65536 * r + j) x.id ⟨_, c, c, 0⟩) ((marked _).trans token)))⟩

/-- A write slot takes the token at the head of its port and stores its payload. -/
theorem memWriteSlot_inboxStack {p : Passage} {rest : List Passage}
    (due : (s.memDues d ctrl lane true (s.cycle d)).find?
      (fun e => decide (e.2.2.1.cycle = s.cycle d % 4096) && s.memWaits d ctrl lane e.2.2.2.1) = some (r, j, m, x, t0))
    (front : im.kind ≠ 1) (head : mapGetD s.lat.inbox (512 * d + memEp ctrl lane) [] = p :: rest) :
    (s.memWriteSlot d ctrl lane).inboxStack = (mapPut s.lat.inbox (512 * d + memEp ctrl lane) rest [],
      (s.stackWrite (2 * d + ctrl) byte (leBytes 32 p.held.tok.payload.toNat)).flt.stack) := by
  unfold State.memWriteSlot
  extract_lets c ep
  rw [due]
  dsimp only
  rw [head, image]
  dsimp only
  rw [place]
  refine (doOp_inboxStack ..).trans ((congrArg State.inboxStack (if_neg fun h => front h.1)).trans ((count_inboxStack ..).trans ?_))
  -- a token whose parity fails marks its unit damaged: that mark stands beside the bytes (R485)
  exact ite_keeps (g := State.inboxStack) rfl rfl

end

theorem memLane_named {d ctrl lane : Nat} (hd : d < 2) (hctrl : ctrl < 2) (hlane : lane < 32) :
    (decide (d < 2) && decide (ctrl < 2) && decide (lane < 32)) = true := by
  simp [hd, hctrl, hlane]

section
variable {s : State} {d ctrl lane r j byte t0 : Nat} {m : MemSlot} {x : Inst} {im : Loaded} (hd : d < 2) (hctrl : ctrl < 2)
  (hlane : lane < 32) (image : (s.part x.part).image = some im) (place : s.memAddr x im m.addr = some byte)
include hd hctrl hlane image place

/-- A read slot puts its token behind those at its port, and is noted as served for its event. -/
theorem answers_memoryReadRelease (late : 128 ≤ s.cycle d) (unused : s.usedNow (useKey 10 (512 * d + memEp ctrl lane)) = false)
    (due : s.memDue d ctrl lane false (s.cycle d - 128) = some (r, j, m, x, t0)) :
    Answers (.memoryReadRelease d ctrl lane) s (fun t =>
      (mapGetD t.lat.fabIn (512 * d + memEp ctrl lane) []).length = (mapGetD s.lat.fabIn (512 * d + memEp ctrl lane) []).length + 1
      ∧ mapGet t.lat.memServed (65536 * r + j) = some x.id) := by
  refine ⟨_, exec_only rfl (memLane_named hd hctrl hlane) rfl, ?_⟩
  obtain ⟨p, moved⟩ := memReadSlot_lat image place late unused due
  rw [moved, fabIn_serveRead, memServed_serveRead, List.length_append]
  exact ⟨rfl, rfl⟩

/-- A write slot stores the token at the head of its port at its address, and nowhere else. -/
theorem answers_memoryWriteSlot {p : Passage} {rest : List Passage}
    (due : (s.memDues d ctrl lane true (s.cycle d)).find?
      (fun e => decide (e.2.2.1.cycle = s.cycle d % 4096) && s.memWaits d ctrl lane e.2.2.2.1) = some (r, j, m, x, t0))
    (front : im.kind ≠ 1) (head : mapGetD s.lat.inbox (512 * d + memEp ctrl lane) [] = p :: rest) :
    Answers (.memoryWriteSlot d ctrl lane) s (fun t => mapGetD t.lat.inbox (512 * d + memEp ctrl lane) [] = rest
      ∧ t.stackRead (2 * d + ctrl) byte 32 = leBytes 32 p.held.tok.payload.toNat
      ∧ ∀ a, (a < stackBytes * (2 * d + ctrl) + byte ∨ stackBytes * (2 * d + ctrl) + byte + 32 ≤ a) →
        memByte t.flt.stack a = memByte s.flt.stack a) := by
  refine ⟨_, exec_only rfl (memLane_named hd hctrl hlane) rfl, ?_⟩
  obtain ⟨inbox, stack⟩ := Prod.mk.inj (memWriteSlot_inboxStack image place due front head)
  have length := length_leBytes 32 p.held.tok.payload.toNat
  refine ⟨by rw [inbox, mapGetD_mapPut, if_pos rfl], ?_, fun a outside => ?_⟩
  · have stored := stackRead_stackWrite s (2 * d + ctrl) byte (leBytes 32 p.held.tok.payload.toNat)
    rwa [length, State.stackRead, ← stack] at stored
  · rw [stack, stackWrite_byte, length, if_neg (by omega)]

end

/-- Settles O33: a read slot and a write slot each find their event and its place, and move one token. -/
theorem memorySlotsComplete : Obligations.MemorySlotsComplete :=
  fun _ _ _ _ _ _ _ _ _ _ hd hctrl hlane image place => ⟨fun _ => answers_memoryReadRelease hd hctrl hlane image place,
    fun _ _ _ due front head => answers_memoryWriteSlot hd hctrl hlane image place due front head⟩

end Sys2Proof.Machine

/-! PROOFS. Events of a partition's life: admission opens, a pause has drained, a mode change is armed and takes effect, a zero fill ends
(R298, R310, R311, R315, R321). -/

namespace Sys2Proof.Machine

/-! ### Zeroed ranges of a memory (R298) -/

theorem mapGet_eq_none_of_keys {α : Type} {m : AMap α} {k : Nat} (h : ∀ e ∈ m, e.1 ≠ k) : mapGet m k = none := by
  induction m with
  | nil => rfl
  | cons e m ih =>
    obtain ⟨here, later⟩ := List.forall_mem_cons.1 h
    exact (mapGet_cons e.1 e.2 m k).trans ((if_neg here).trans (ih later))

/-- A memory with no entry for an address reads zero there. -/
theorem memByte_eq_zero {m : Mem} {a : Nat} (h : ∀ e ∈ m, e.1 ≠ a) : memByte m a = 0 := by
  rw [memByte, mapGetD, mapGet_eq_none_of_keys h]
  rfl

/-- After ranges of `len` bytes at the starts `at_ k` were zeroed, no byte of one of them is left. -/
theorem mem_foldl_memZero {at_ : Nat → Nat} {len : Nat} {e : Nat × Byte} (ks : List Nat) (m : Mem)
    (h : e ∈ ks.foldl (fun m k => memZero m (at_ k) len) m) : e ∈ m ∧ ∀ k ∈ ks, e.1 < at_ k ∨ at_ k + len ≤ e.1 := by
  induction ks generalizing m with
  | nil => exact ⟨h, by simp⟩
  | cons k ks ih =>
    obtain ⟨kept, outside⟩ := ih _ h
    obtain ⟨old, out⟩ := List.mem_filter.1 kept
    exact ⟨old, List.forall_mem_cons.2 ⟨of_decide_eq_true out, outside⟩⟩

/-! ### The operation that an event ends -/

/-- The operation of partition `p` with one of the opcodes `ops`, if one waits, ends with its final status. -/
def State.endOps (s : State) (p : Nat) (ops : List Nat) (st d r : Nat) : State :=
  match s.partOp p ops with
  | some o => s.finishOp o st d r
  | none => s

theorem endOps_parts (s : State) (p : Nat) (ops : List Nat) (st d r : Nat) : (s.endOps p ops st d r).parts = s.parts := by
  unfold State.endOps
  split
  · exact finishOp_parts ..
  · rfl

/-- What a change whose shadow could be filled leaves in its partition. -/
theorem part_armed {x : State × Bool} {p : Nat} (f : ModeChange) (u : State) (filled : x.2 = true) :
    let t := if !x.2 then u else
      (x.1.putPart p { x.1.part p with change := some { f with armed := true }, filling := false }).endOps p [0x25] stOK 0 0
    (t.part p).change = some { f with armed := true } ∧ (t.part p).filling = false := by
  intro t
  unfold t
  rw [if_neg (by simp [filled]), part_of_parts (endOps_parts ..) p, part_putPart, if_pos rfl]
  exact ⟨rfl, rfl⟩

section
variable {s : State} {p : Nat}

/-! ### Admission (R321) -/

theorem exec_admissionOpen (hp : p < 16) (s : State) : exec (.admissionOpen p) s = .next (s.admissionOpen p) :=
  exec_only rfl (decide_eq_true hp) rfl

/-- At its entry slot a loaded or paused partition runs, and waits for no opening. -/
theorem part_admissionOpen {c : Nat} {im : Loaded} (opens : (s.part p).opensAt = some c) (image : (s.part p).image = some im)
    (due : im.openAt c ≤ s.cycle 0) (waits : (s.part p).state = .loaded ∨ (s.part p).state = .paused) :
    ((s.admissionOpen p).part p).state = .running ∧ ((s.admissionOpen p).part p).opensAt = none := by
  have go : ¬(s.cycle 0 < im.openAt c ∨ ((s.part p).state ≠ .loaded ∧ (s.part p).state ≠ .paused)) := fun h =>
    h.elim (Nat.not_lt.2 due) fun ⟨l, q⟩ => waits.elim l q
  unfold State.admissionOpen
  extract_lets pt opened told
  rw [opens, image]
  dsimp only
  rw [if_neg go]
  have runs : ∀ t : State, t.parts = opened.parts → (t.part p).state = .running ∧ (t.part p).opensAt = none := fun t same => by
    rw [part_of_parts same p, part_putPart, if_pos rfl]
    exact ⟨rfl, rfl⟩
  have noted : told.parts = opened.parts := ite_keeps (auditCtrl_parts ..) rfl
  exact runs _ ((endOps_parts told p [0x20, 0x24] stOK 0 (im.openAt c)).trans noted)

/-! ### A pause that has drained (R315) -/

theorem exec_pauseDrained (hp : p < 16) (s : State) : exec (.pauseDrained p) s = .next (s.pauseDrained p) :=
  exec_only rfl (decide_eq_true hp) rfl

theorem part_pauseDrained (drained : s.drained p = true) : ((s.pauseDrained p).part p).state = .paused := by
  unfold State.pauseDrained
  rw [if_neg (by simp [drained])]
  extract_lets pt paused noted closed
  have stands : ∀ t : State, t.parts = paused.parts → (t.part p).state = .paused := fun t same => by
    rw [part_of_parts same p, part_putPart, if_pos rfl]
  have logged : noted.parts = paused.parts := by
    unfold noted
    split
    · exact foldl_keeps State.parts _ (fun _ _ => auditCtrl_parts ..) _ _
    · rfl
  exact stands _ ((endOps_parts closed p [0x21] stOK 0 0).trans ((auditClosing_parts ..).trans logged))

/-! ### Mode changes (R310 to R312) -/

theorem exec_modeChangeArm (hp : p < 16) (s : State) : exec (.modeChangeArm p) s = .next (s.modeArm p) :=
  exec_only rfl (decide_eq_true hp) rfl

theorem exec_modeChangeDone (hp : p < 16) (s : State) : exec (.modeChangeDone p) s = .next (s.modeDone p) :=
  exec_only rfl (decide_eq_true hp) rfl

/-- Once its shadow is filled, a change whose boundary the reference stream has not passed is armed. -/
theorem part_modeArm {f : ModeChange} {im : Loaded} (change : (s.part p).change = some f) (image : (s.part p).image = some im)
    (filling : (s.part p).filling = true) (ahead : s.nextSeq (s.streamDie f.stream) f.stream ≤ f.n)
    (readable : f.kind = 0 → (s.imageBytes p f.settings).2.isSome = true) :
    ((s.modeArm p).part p).change = some { f with armed := true } ∧ ((s.modeArm p).part p).filling = false := by
  unfold State.modeArm
  extract_lets pt ended sec
  rw [change, image]
  dsimp only
  rw [if_neg (by simp [pt, filling]), if_neg (Nat.not_lt.2 ahead)]
  refine part_armed (x := ite _ _ _) f _ ?_
  split
  · next k =>
    obtain ⟨b, read⟩ := Option.isSome_iff_exists.1 (readable k)
    rw [read]
  · split <;> rfl

/-- A change that is armed and whose boundary lies behind is complete; a scale set begins a new generation, and no other kind does. -/
theorem part_modeDone {f : ModeChange} (change : (s.part p).change = some f) (armed : f.armed = true)
    (passed : s.modePassed p f = true) : ((s.modeDone p).part p).change = none
      ∧ (f.kind = 0 → ((s.modeDone p).part p).gen = (s.part p).gen + 1)
      ∧ (f.kind ≠ 0 → ((s.modeDone p).part p).gen = (s.part p).gen) := by
  unfold State.modeDone
  extract_lets pt
  rw [change]
  dsimp only
  rw [if_neg (by simp [armed, passed])]
  split
  · next k =>
    rw [part_of_parts (foldl_keeps State.parts _ (fun _ _ => setField_parts ..) _ _) p, part_putPart, if_pos rfl]
    exact ⟨rfl, fun _ => rfl, fun other => absurd k other⟩
  · next k =>
    rw [part_putPart, if_pos rfl]
    exact ⟨rfl, fun kind => absurd (k.symm.trans kind) (by decide), fun _ => rfl⟩
  · next k _ =>
    rw [part_putPart, if_pos rfl]
    exact ⟨rfl, fun kind => absurd kind k, fun _ => rfl⟩

end

/-! ### A zero fill that ends (R298) -/

theorem exec_zeroFillDone {b : Nat} (hb : b < 768) (s : State) : exec (.zeroFillDone b) s = .next (s.zeroFillDone b) :=
  exec_only rfl (decide_eq_true hb) rfl

/-- The range of a zero fill that has ended reads zero in all four stacks, and it waits no longer. -/
theorem zeroFillDone_fills {s : State} {b n : Nat} (fill : s.flt.zeroFills.find? (fun z => decide (z.1 = b)) = some (b, n)) :
    (b, n) ∉ (s.zeroFillDone b).flt.zeroFills
    ∧ ∀ k a, k < 4 → stackBytes * k + b * 2 ^ 26 ≤ a → a < stackBytes * k + b * 2 ^ 26 + n * 2 ^ 26 →
      memByte (s.zeroFillDone b).flt.stack a = 0 := by
  unfold State.zeroFillDone
  rw [fill]
  refine ⟨by simp, fun k a hk above below => memByte_eq_zero fun e he at_ => ?_⟩
  obtain ⟨_, outside⟩ := mem_foldl_memZero _ _ he
  have := outside k (List.mem_range.2 hk)
  omega

/-- Settles O35: each event writes what its rule says of the partition, or zeroes its range. -/
theorem partitionEventsComplete : Obligations.PartitionEventsComplete := fun s _ hp =>
  ⟨fun _ _ opens image due waits => ⟨_, exec_admissionOpen hp s, part_admissionOpen opens image due waits⟩,
    fun drained => ⟨_, exec_pauseDrained hp s, part_pauseDrained drained⟩,
    fun _ _ change image filling ahead readable =>
      ⟨_, exec_modeChangeArm hp s, part_modeArm change image filling ahead readable⟩,
    fun _ change armed passed => ⟨_, exec_modeChangeDone hp s, part_modeDone change armed passed⟩,
    fun _ _ hb fill => ⟨_, exec_zeroFillDone hb s, zeroFillDone_fills fill⟩⟩

end Sys2Proof.Machine

/-! PROOFS. BIND and UNBIND: which regions every partition holds afterwards, and what becomes of the partition that they name (R293, R297
to R301). -/

namespace Sys2Proof.Machine

/-! ### Unloading changes one partition (R301, R302, R307) -/

theorem part_putPart_ne (s : State) {p q : Nat} (x : Partition) (h : q ≠ p) : (s.putPart p x).part q = s.part q :=
  (part_putPart ..).trans (if_neg h)

theorem discardPart_parts (s : State) (p : Nat) : (s.discardPart p).parts = s.parts := by
  unfold State.discardPart
  refine (foldl_keeps State.parts _ (fun t r => addReg_parts t (aLat r 8) 1) _ _).trans ?_
  split
  · refine foldl_keeps State.parts _ (fun t r => ?_) _ _
    refine foldl_keeps State.parts _ (fun t st => ?_) _ t
    exact foldl_keeps State.parts _ (fun t d => rfl) [0, 1] t
  · rfl

theorem dropInsts_parts (s : State) (p : Nat) : (s.dropInsts p).parts = s.parts :=
  foldl_keeps State.parts (fun (t : State) (x : Inst) => t.capRetire x) (fun _ _ => rfl) _ s

theorem clearInq_parts (s : State) (im : Loaded) : (s.clearInq im).parts = s.parts := by
  unfold State.clearInq
  refine foldl_keeps State.parts _ (fun t r => ?_) _ s
  rfl

theorem deepHome_parts (s : State) (p : Nat) : (s.deepHome p).parts = s.parts := rfl

theorem regionsWritten_parts (s : State) (rs : List Nat) : (s.regionsWritten rs).parts = s.parts := rfl

theorem clearContent_parts (s : State) (r : Nat) : (s.clearContent r).parts = s.parts := rfl

theorem dropLayers_parts (s : State) (p : Nat) : (s.dropLayers p).parts = s.parts :=
  foldl_keeps State.parts (fun (t : State) (e : Nat × Layer) => if e.2.running then t.setFlag (aEng (e.1 / 64) e.2.engine) 31 false else t)
    (fun _ _ => ite_keeps (setFlag_parts ..) rfl) _ s

/-- Unloading a partition's image changes no other partition. -/
theorem part_unloadPart_ne (s : State) {p q : Nat} (h : q ≠ p) : (s.unloadPart p).part q = s.part q := by
  unfold State.unloadPart
  extract_lets dropped cleared
  have emptied : dropped.parts = s.parts :=
    (dropInsts_parts ..).trans ((discardPart_parts ..).trans ((abortOps_parts ..).trans (disarmPart_parts ..)))
  have same : cleared.parts = s.parts := by
    unfold cleared
    split
    · exact (clearInq_parts ..).trans emptied
    · exact emptied
  rw [State.imageGone, part_putPart_ne _ _ h]
  exact part_of_parts ((deepHome_parts ..).trans ((dropLayers_parts ..).trans same)) q

theorem part_unload_ne (s : State) {p q : Nat} (h : q ≠ p) : (s.unload p).part q = s.part q := by
  unfold State.unload
  extract_lets rs home emptied
  have same : emptied.parts = home.parts := by
    refine foldl_keeps State.parts _ (fun t r => ?_) rs home
    rw [setField_parts, setField_parts, clearContent_parts]
  exact (part_of_parts ((regionsWritten_parts emptied rs).trans same) q).trans (part_unloadPart_ne s h)

/-! ### Regions that leave (R293, R298, R301) -/

theorem part_cease (s : State) (p q : Nat) : (s.cease p).part q = if q = p then part0 else s.part q := by
  unfold State.cease
  rw [part_putPart]
  split
  · rfl
  · exact part_of_parts ((auditClosing_parts ..).trans (disarmPart_parts ..)) q

/-- Regions that leave a partition change no other one. -/
theorem part_leave_ne (s : State) {p q : Nat} (rs : List Nat) (h : q ≠ p) : (s.leave p rs).part q = s.part q := by
  unfold State.leave
  extract_lets digest unloaded still u pt v
  have same : v.part q = s.part q := by
    unfold v u
    rw [part_putPart_ne _ _ h]
    split
    · exact (part_putPart_ne _ _ h).trans ((part_unload_ne _ h).trans (part_of_parts (auditCtrl_parts ..) q))
    · rfl
  split
  · rw [part_cease, if_neg h, same]
  · exact same

/-- A partition that loses its last region ceases to exist. -/
theorem part_leave_last (s : State) {p : Nat} {rs : List Nat} (last : (s.part p).regions &&& ~~~regionMask rs = 0) :
    (s.leave p rs).part p = part0 := by
  obtain ⟨_, _, regions⟩ := leave_frame s p rs
  have none : ((s.leave p rs).part p).regions = 0 := (regions p).trans ((if_pos rfl).trans last)
  revert none
  unfold State.leave
  extract_lets digest unloaded still u pt v
  split
  · intro _
    rw [part_cease, if_pos rfl]
  · next some => exact fun none => absurd none some

/-! ### BIND, part by part (R297 to R301) -/

/-- The partition that a BIND names exists: one that had no region is made, bound, and owned by the port. -/
def State.founded (s : State) (port : Port) (p base size : Nat) : State :=
  if (s.part p).state = .none then
    let g := s.genesis p port
    (({ s with chains := mapSet s.chains p ⟨g, sha384 g, [], [], 0⟩ } : State).setReg (aPwr 0 (0x100 + 4 * p)) 0xFFFFFFFF).putPart p
      { part0 with owner := some port, state := .bound, allocBase := base, allocSize := size }
  else s

/-- Partitions other than `p` that hold one of the regions `rs`, each once. -/
def State.sources (s : State) (p : Nat) (rs : List Nat) : List Nat :=
  ((rs.filterMap s.regionPart).filter (fun q => decide (q ≠ p))).eraseDups

/-- Every partition but `p` leaves those of the regions `rs` that it holds. -/
def State.yielded (s : State) (p : Nat) (rs : List Nat) : State := (s.sources p rs).foldl (fun s q => s.vacate rs q) s

theorem bindCmd_passed {s : State} {port : Port} {p : Nat} {mask : BitVec 16} {base size : Nat}
    (passed : s.bindCheck port p (maskList 16 mask.toNat) base size = none) :
    let w := (s.founded port p base size).yielded p (maskList 16 mask.toNat)
    s.bindCmd port p mask base size = (w.putPart p { w.part p with regions := (w.part p).regions ||| mask }, stOK, 0, 0) := by
  intro w
  unfold State.bindCmd
  extract_lets rs
  rw [passed]
  rfl

theorem part_founded (s : State) (port : Port) (p base size : Nat) : (s.founded port p base size).part p =
    if (s.part p).state = .none then { part0 with owner := some port, state := .bound, allocBase := base, allocSize := size }
    else s.part p := by
  unfold State.founded
  split
  · exact (part_putPart ..).trans (if_pos rfl)
  · rfl

theorem part_founded_ne (s : State) (port : Port) {p q : Nat} (base size : Nat) (h : q ≠ p) :
    (s.founded port p base size).part q = s.part q := by
  unfold State.founded
  split
  · exact part_putPart_ne _ _ h
  · rfl

theorem Shrinks.founded (s : State) (port : Port) (p base size : Nat) : Shrinks s (s.founded port p base size) := by
  refine ⟨ite_keeps (g := State.pending) rfl rfl, ite_keeps (g := State.hw) rfl rfl, fun q r h => ?_⟩
  by_cases e : q = p
  · subst e
    rw [State.holds, part_founded] at h
    split at h
    · simp [part0] at h
    · exact h
  · rwa [State.holds, part_founded_ne s port base size e] at h

theorem mem_sources {s : State} {p q : Nat} {rs : List Nat} :
    q ∈ s.sources p rs ↔ (∃ r ∈ rs, s.regionPart r = some q) ∧ q ≠ p := by
  simp [State.sources]

theorem part_yielded_self (s : State) (p : Nat) (rs : List Nat) : (s.yielded p rs).part p = s.part p := by
  have skip : ∀ (l : List Nat) (t : State), (∀ q ∈ l, q ≠ p) → (l.foldl (fun t q => t.vacate rs q) t).part p = t.part p := by
    intro l
    induction l with
    | nil => exact fun _ _ => rfl
    | cons q l ih =>
      intro t h
      obtain ⟨here, later⟩ := List.forall_mem_cons.1 h
      exact (ih _ later).trans (part_leave_ne t _ (Ne.symm here))
  exact skip _ s fun q hq => (mem_sources.1 hq).2

/-- After the others have yielded regions `rs`, partition `q` holds of its regions those outside `rs` (R301). -/
theorem holds_yielded {s : State} (i : Inv s) {p q : Nat} (rs : List Nat) (r : Nat) (hq : q < 16) (h : q ≠ p) :
    (s.yielded p rs).holds q r = (s.holds q r && !decide (r ∈ rs)) := by
  obtain ⟨⟨_, _, sub⟩, gone⟩ := vacate_all i rs (s.sources p rs)
  by_cases hr : r ∈ rs
  · rw [decide_eq_true hr, Bool.not_true, Bool.and_false]
    refine Bool.eq_false_iff.2 fun held => ?_
    have source : q ∈ s.sources p rs := mem_sources.2 ⟨⟨r, hr, regionPart_of_holds i hq (sub q r held)⟩, h⟩
    exact absurd held (Bool.eq_false_iff.1 (gone q source hq r hr))
  · rw [decide_eq_false hr, Bool.not_false, Bool.and_true]
    refine foldl_keeps (fun t => t.holds q r) _ (fun t x => ?_) _ s
    rw [State.vacate, holds_leave]
    simp [hr]

section
variable {s : State} {h : CmdHdr} {p : Nat} {rs : BitVec 16} (i : Inv s)
include i

/-- After an accepted BIND the named partition holds the named regions beside those it held, and every other one those of its own that
the command does not name (R297, R298, R301). -/
theorem ends_bind {base size : Nat} (admitted : s.admits (.bind h p rs base size) = true)
    (passed : (s.dropHead h.port).bindCheck h.port p (maskList 16 rs.toNat) base size = none) :
    Ends (.bind h p rs base size) s 0 (fun u =>
      (u.part p).regions = (if (s.part p).state = .none then rs else (s.part p).regions ||| rs)
      ∧ ((s.part p).state = .none → (u.part p).state = .bound ∧ (u.part p).owner = some h.port
          ∧ (u.part p).allocBase = base ∧ (u.part p).allocSize = size)
      ∧ ∀ q, q < 16 → q ≠ p → (u.part q).regions = (s.part q).regions &&& ~~~rs) := by
  have taken : ∀ q, (s.dropHead h.port).part q = s.part q := (PortsRegs.dropHead s h.port).part
  have begun : Inv (s.dropHead h.port) := inv_of_same i ((same_dropHead ..).2 (Same.refl s))
  refine ⟨h, 0x10, some p, _, rfl, congrArg _ (instant_admitted rfl admitted (bindCmd_passed passed)), ?_, ?_, fun q hq other => ?_⟩
  · rw [part_putPart, if_pos rfl, part_yielded_self, part_founded, taken]
    split
    · exact BitVec.zero_or
    · rfl
  · intro none
    rw [part_putPart, if_pos rfl, part_yielded_self, part_founded, taken, if_pos none]
    exact ⟨rfl, rfl, rfl, rfl⟩
  · rw [part_putPart_ne _ _ other]
    refine BitVec.eq_of_getLsbD_eq fun r hr => ?_
    have yielded := holds_yielded (inv_of_shrinks begun (Shrinks.founded _ h.port p base size)) (maskList 16 rs.toNat) r hq other
    rw [State.holds, State.holds, part_founded_ne _ _ _ _ other, taken] at yielded
    rw [yielded]
    simp [mem_maskList, hr, BitVec.testBit_toNat, BitVec.getLsbD_eq_getElem]

end

/-- The mask of the regions that a mask lists is that mask again. -/
theorem regionMask_maskList (rs : BitVec 16) : regionMask (maskList 16 rs.toNat) = rs := by
  refine BitVec.eq_of_getLsbD_eq fun r hr => ?_
  rw [getLsbD_regionMask]
  simp [mem_maskList, hr, BitVec.testBit_toNat, BitVec.getLsbD_eq_getElem]

theorem unbindCmd_passed {s : State} {p : Nat} {rs : BitVec 16} (still : pstateStill (s.part p).state = true) (nonempty : rs ≠ 0)
    (held : ∀ r, r < 16 → rs.getLsbD r = true → s.isFused r = false ∧ s.regionPart r = some p) :
    s.unbindCmd p rs = (s.leave p (maskList 16 rs.toNat), stOK, 0, 0) := by
  have named : ∀ r ∈ maskList 16 rs.toNat, s.isFused r = false ∧ s.regionPart r = some p := fun r hr => by
    obtain ⟨bound, set⟩ := mem_maskList.1 hr
    exact held r bound ((BitVec.testBit_toNat ..).symm.trans set)
  have whole : (maskList 16 rs.toNat).any s.isFused = false :=
    List.any_eq_false.2 fun r hr => Bool.eq_false_iff.1 (named r hr).1
  have own : (maskList 16 rs.toNat).any (fun r => decide (s.regionPart r ≠ some p)) = false :=
    List.any_eq_false.2 fun r hr => by simp [(named r hr).2]
  have some : (maskList 16 rs.toNat).isEmpty = false := by
    refine Bool.eq_false_iff.2 fun empty => nonempty ?_
    rw [← regionMask_maskList rs, List.isEmpty_iff.1 empty]
    rfl
  unfold State.unbindCmd
  extract_lets l
  rw [still, if_neg (by decide), if_neg (by simp only [l, whole, own, some]; decide)]

/-- After an accepted UNBIND the partition holds its other regions, and ceases to exist where it has none; no other one changes (R301). -/
theorem ends_unbind {s : State} {h : CmdHdr} {p : Nat} {rs : BitVec 16} (admitted : s.admits (.unbind h p rs) = true)
    (still : pstateStill (s.part p).state = true) (nonempty : rs ≠ 0)
    (held : ∀ r, r < 16 → rs.getLsbD r = true → s.isFused r = false ∧ s.regionPart r = some p) :
    Ends (.unbind h p rs) s 0 (fun u => (u.part p).regions = (s.part p).regions &&& ~~~rs
      ∧ ((s.part p).regions = rs → (u.part p).state = .none ∧ (u.part p).owner = none)
      ∧ ∀ q, q < 16 → q ≠ p → (u.part q).regions = (s.part q).regions) := by
  have taken : ∀ q, (s.dropHead h.port).part q = s.part q := (PortsRegs.dropHead s h.port).part
  have left : (s.dropHead h.port).unbindCmd p rs = ((s.dropHead h.port).leave p (maskList 16 rs.toNat), stOK, 0, 0) :=
    unbindCmd_passed (by rwa [taken]) nonempty held
  obtain ⟨_, _, regions⟩ := leave_frame (s.dropHead h.port) p (maskList 16 rs.toNat)
  refine ⟨h, 0x11, some p, _, rfl, congrArg _ (instant_admitted rfl admitted left), ?_, fun all => ?_, fun q _ other => ?_⟩
  · rw [regions, if_pos rfl, regionMask_maskList, taken]
  · have last : ((s.dropHead h.port).part p).regions &&& ~~~regionMask (maskList 16 rs.toNat) = 0 := by
      rw [regionMask_maskList, taken, all]
      exact BitVec.and_not_self ..
    rw [part_leave_last _ last]
    exact ⟨rfl, rfl⟩
  · rw [part_leave_ne _ _ other, taken]

/-- Settles O38: what an accepted BIND and an accepted UNBIND leave in every partition. -/
theorem bindingComplete : Obligations.BindingComplete :=
  fun _ _ _ _ _ _ i => ⟨ends_bind i, ends_unbind⟩

end Sys2Proof.Machine

/-! PROOFS. What completions, faults, counts and reads of the stacks leave as it was: partitions, operations, and the registers from die
offset 0x1000000 on (lanes, links, system and lattice). -/

namespace Sys2Proof.Machine

/-- `t` has the partitions and operations of `a`, and its registers from die offset 0x1000000 on. -/
def LowRegs (a t : State) : Prop := t.parts = a.parts ∧ t.ops = a.ops ∧ ∀ b, 0x1000000 ≤ addrOff b → t.reg b = a.reg b

theorem LowRegs.refl (s : State) : LowRegs s s := ⟨rfl, rfl, fun _ _ => rfl⟩

theorem LowRegs.trans {a b c : State} (h : LowRegs a b) (k : LowRegs b c) : LowRegs a c :=
  ⟨k.1.trans h.1, k.2.1.trans h.2.1, fun r hr => (k.2.2 r hr).trans (h.2.2 r hr)⟩

theorem LowRegs.of_regs {a t : State} (parts : t.parts = a.parts) (ops : t.ops = a.ops) (regs : t.regs = a.regs) : LowRegs a t :=
  ⟨parts, ops, fun b _ => by rw [State.reg, regs, State.reg]⟩

theorem LowRegs.ite {c : Prop} [Decidable c] {a t u : State} (h : LowRegs a t) (k : LowRegs a u) : LowRegs a (if c then t else u) := by
  split
  · exact h
  · exact k

theorem LowRegs.foldl {α : Type} {f : State → α → State} {l : List α} (h : ∀ x ∈ l, ∀ s, LowRegs s (f s x)) (s : State) :
    LowRegs s (l.foldl f s) := by
  induction l generalizing s with
  | nil => exact LowRegs.refl s
  | cons x l ih =>
    obtain ⟨here, later⟩ := List.forall_mem_cons.1 h
    exact (here s).trans (ih later (f s x))

theorem LowRegs.foldl_fst {α β : Type} {f : State × β → α → State × β} (h : ∀ r x, LowRegs r.1 (f r x).1) (l : List α)
    (r : State × β) : LowRegs r.1 (l.foldl f r).1 := by
  induction l generalizing r with
  | nil => exact LowRegs.refl r.1
  | cons x l ih => exact (h r x).trans (ih (f r x))

section
variable (s : State) {a : Nat} (low : addrOff a < 0x1000000)
include low

theorem ne_of_low {b : Nat} (h : 0x1000000 ≤ addrOff b) : b ≠ a := fun e => Nat.not_lt.2 h (e ▸ low)

theorem LowRegs.setReg (v : Word) : LowRegs s (s.setReg a v) :=
  ⟨rfl, rfl, fun b h => (reg_setReg s a v b).trans (if_neg (ne_of_low low h))⟩

theorem LowRegs.setField (hi lo v : Nat) : LowRegs s (s.setField a hi lo v) := LowRegs.setReg s low _

theorem LowRegs.setFlag (i : Nat) (v : Bool) : LowRegs s (s.setFlag a i v) :=
  ⟨rfl, rfl, fun b h => reg_setFlag_ne s a i v b (ne_of_low low h)⟩

theorem LowRegs.addField (hi lo n : Nat) : LowRegs s (s.addField a hi lo n) :=
  ⟨rfl, rfl, fun b h => reg_addField_ne s a hi lo n b (ne_of_low low h)⟩

theorem LowRegs.addReg (n : Nat) : LowRegs s (s.addReg a n) := LowRegs.addField s low ..

end

/-! ### Completions and interrupts write registers of the CTL block -/

theorem LowRegs.putPort (s : State) (p : Port) (x : PortState) : LowRegs s (s.putPort p x) := LowRegs.of_regs rfl rfl rfl

theorem aCtl_low {o : Nat} (h : o < 0x1000000) : addrOff (aCtl o) < 0x1000000 := by
  unfold addrOff aCtl
  omega

theorem portCode_le (p : Port) : portCode p ≤ 5 := by cases p <;> decide

theorem portLink_le (p : Port) : portLink p ≤ 1 := by cases p <;> decide

theorem LowRegs.msi (s : State) (p : Port) (v : Nat) : LowRegs s (s.msi p v) := LowRegs.ite (LowRegs.putPort ..) (LowRegs.refl s)

theorem LowRegs.irqCause (s : State) (bit : Nat) : LowRegs s (s.irqCause bit) := by
  refine LowRegs.foldl (fun p _ t => ?_) s
  extract_lets i st
  have low : addrOff st < 0x1000000 := aCtl_low (by have := portCode_le p; omega)
  exact LowRegs.ite ((LowRegs.setFlag t low ..).trans (LowRegs.msi ..)) (LowRegs.refl t)

theorem LowRegs.cqWrite (s : State) (p : Port) (c : Completion) : LowRegs s (s.cqWrite p c) := by
  unfold State.cqWrite
  extract_lets q base t x nx y u
  have moved : LowRegs s u :=
    (LowRegs.putPort s p y).trans (LowRegs.setField _ (aCtl_low (by have := portLink_le p; omega)) ..)
  exact LowRegs.ite (moved.trans (LowRegs.msi ..)) moved

theorem LowRegs.post (s : State) (p : Port) (c : Completion) : LowRegs s (s.post p c) := by
  unfold State.post
  extract_lets x t i
  refine LowRegs.ite (LowRegs.ite (LowRegs.putPort ..) (LowRegs.cqWrite ..)) ?_
  have low : addrOff (aCtl (0x108 + 0x20 * i)) < 0x1000000 := aCtl_low (by have := portCode_le p; omega)
  exact LowRegs.ite ((LowRegs.putPort ..).trans (LowRegs.setFlag t low ..)) (LowRegs.putPort ..)

theorem LowRegs.complete (s : State) (h : CmdHdr) (op st d r : Nat) : LowRegs s (s.complete h op st d r) := LowRegs.post ..

theorem LowRegs.interim (s : State) (h : CmdHdr) (op st : Nat) : LowRegs s (s.interim h op st) :=
  LowRegs.ite (LowRegs.complete ..) (LowRegs.refl s)

/-! ### Faults, buckets and counters write registers of FLT, CNT and MEM -/

theorem aFlt_low (d : Nat) {o : Nat} (h : o < 0x100000) : addrOff (aFlt d o) < 0x1000000 := by
  unfold addrOff aFlt dieBase
  omega

theorem aCnt_low (d : Nat) {o : Nat} (h : o < 0x100000) : addrOff (aCnt d o) < 0x1000000 := by
  unfold addrOff aCnt dieBase
  omega

theorem aMem_low (d : Nat) {o : Nat} (h : o < 0x100000) : addrOff (aMem d o) < 0x1000000 := by
  unfold addrOff aMem dieBase
  omega

theorem LowRegs.fault (s : State) (d : Nat) (f : FaultRec) : LowRegs s (s.fault d f) := by
  unfold State.fault
  extract_lets q x t
  have logged : LowRegs s t := LowRegs.ite (LowRegs.addReg s (aFlt_low d (by decide)) 1) (LowRegs.of_regs rfl rfl rfl)
  exact LowRegs.ite (logged.trans (LowRegs.irqCause ..)) logged

theorem LowRegs.bucketAdd (s : State) (d n : Nat) {k : Nat} (hk : k < 64) : LowRegs s (s.bucketAdd d k n) := by
  unfold State.bucketAdd
  extract_lets t u
  have counted : LowRegs s u :=
    (LowRegs.addReg s (aFlt_low d (by omega)) n).trans (LowRegs.addField t (aFlt_low d (by omega)) ..)
  exact LowRegs.ite ((counted.trans (LowRegs.setFlag u (aFlt_low d (by decide)) ..)).trans (LowRegs.irqCause ..)) counted

theorem LowRegs.pushSample (s : State) (d : Nat) (e : FaultEntry) : LowRegs s (s.pushSample d e) :=
  LowRegs.ite (LowRegs.addReg s (aCnt_low d (by decide)) 1) (LowRegs.of_regs rfl rfl rfl)

theorem LowRegs.addCount (s : State) (d : Nat) (o : Occ) (fuel : Nat) {k : Nat} (n : Nat) (hk : k < 64) :
    LowRegs s (s.addCount d o fuel k n) := by
  induction fuel generalizing s k n with
  | zero => exact LowRegs.refl s
  | succ fuel ih =>
    unfold State.addCount
    extract_lets key c cfg cnt smp q p v written marked sampled nx
    have mark : LowRegs s marked :=
      (LowRegs.of_regs rfl rfl rfl : LowRegs s written).trans (LowRegs.setFlag written (aCnt_low d (by omega)) ..)
    have sample : LowRegs s sampled := LowRegs.ite (mark.trans (LowRegs.pushSample ..)) mark
    refine LowRegs.ite (LowRegs.of_regs rfl rfl rfl) ?_
    split
    · next next => exact sample.trans (ih sampled 1 next.1)
    · exact sample

theorem LowRegs.count (s : State) (d ev n : Nat) (o : Occ) : LowRegs s (s.count d ev n o) :=
  LowRegs.ite (LowRegs.refl s) (LowRegs.foldl (fun _ hk _ =>
    LowRegs.ite (LowRegs.addCount _ _ _ _ _ (List.mem_range.1 hk)) (LowRegs.refl _)) s)

theorem LowRegs.bestEffort (s : State) (k b n : Nat) : LowRegs s (s.bestEffort k b n) :=
  LowRegs.ite (LowRegs.refl s) ((LowRegs.foldl (fun _ _ t => LowRegs.count t ..) s).trans (LowRegs.count ..))

theorem LowRegs.firstRecord (s : State) {a : Nat} (v o : Nat) {along : List (Nat × Nat)} (low : addrOff a < 0x1000000)
    (lows : ∀ e ∈ along, e.1 < 2 ^ 28 → addrOff e.1 < 0x1000000) : LowRegs s (s.firstRecord a v o along) := by
  unfold State.firstRecord
  extract_lets e w t
  have begun : LowRegs s t := LowRegs.of_regs rfl rfl rfl
  have beside : ∀ e ∈ along, ∀ u : State, LowRegs u (u.setAlong e) := fun e he u => by
    unfold State.setAlong
    split
    · next reg => exact LowRegs.setReg u (lows e he reg) _
    · exact LowRegs.of_regs rfl rfl rfl
  exact LowRegs.ite (LowRegs.refl s)
    (LowRegs.ite begun (begun.trans ((LowRegs.setReg t low w).trans (LowRegs.foldl beside _))))

/-! ### Reads of the stacks (R482, R486, R487) -/

theorem LowRegs.memErrFirst (s : State) (d info byte o : Nat) {ctrl : Nat} (hc : ctrl < 2) : LowRegs s (s.memErrFirst d ctrl info byte o) :=
  (LowRegs.addReg s (aMem_low d (by omega)) 1).trans (LowRegs.firstRecord _ _ _ (aMem_low d (by omega)) (by
    have reg : addrOff (aMem d (0x100 * ctrl + 0x10)) < 0x1000000 := aMem_low d (by omega)
    simp only [List.forall_mem_cons, reg, implies_true, true_and]
    exact ⟨fun h => absurd h (by omega), by simp⟩))

/-- A read that meets a bad unit counts it, logs it and marks it. -/
theorem LowRegs.memCheck (s : State) (d lane frame byte : Nat) (p : Option Nat) (i : Nat) {ctrl : Nat} (hc : ctrl < 2) :
    LowRegs s (s.memCheck d ctrl lane frame byte p i).1 := by
  unfold State.memCheck
  extract_lets key ev
  split
  · exact LowRegs.refl s
  · exact (LowRegs.bucketAdd s d 1 (by decide)).trans (LowRegs.addReg _ (aMem_low d (by omega)) 1)
  · next e _ _ =>
    extract_lets t u
    exact ((LowRegs.memErrFirst s d _ byte _ hc).trans (LowRegs.fault t d _)).trans (LowRegs.of_regs rfl rfl rfl)

theorem LowRegs.nextFree (s : State) : LowRegs s s.nextFree.2 := LowRegs.of_regs rfl rfl rfl

theorem LowRegs.unitRead (s : State) (fm : Bool) (stack byte : Nat) (p : Option Nat) : LowRegs s (s.unitRead fm stack byte p).1 :=
  (LowRegs.nextFree s).trans (LowRegs.memCheck _ _ _ _ _ _ _ (Nat.mod_lt _ (by decide)))

theorem LowRegs.someBestEffort (s : State) (k b n : Nat) : LowRegs s (s.someBestEffort k b n) :=
  LowRegs.ite (LowRegs.refl s) ((LowRegs.nextFree s).trans (LowRegs.bestEffort ..))

theorem LowRegs.copyRead (s : State) (p d o n : Nat) : LowRegs s (s.copyRead p d o n).1 := by
  unfold State.copyRead
  extract_lets a t whole
  refine (LowRegs.someBestEffort s (2 * d) a n).trans (LowRegs.foldl_fst (fun r u => ?_) _ (t, some whole))
  have first := LowRegs.unitRead r.1 false (2 * d) (32 * u) (some p)
  dsimp only
  split
  · exact first
  · have second := first.trans (LowRegs.unitRead _ false (2 * d + 1) (32 * u) (some p))
    split
    · exact second
    · exact second

theorem LowRegs.imageBytes (s : State) (p dst : Nat) : LowRegs s (s.imageBytes p dst).1 := by
  unfold State.imageBytes
  split
  · exact LowRegs.refl s
  · exact LowRegs.copyRead ..

end Sys2Proof.Machine

/-! PROOFS. Commands that become operations: their acceptance, and what the image and mode commands write with it (R304, R305, R309, R312,
R313, R319, R320, R622, R626, R631). -/

namespace Sys2Proof.Machine

/-! ### Acceptance (R622, R631) -/

/-- The operation that command `c` is from its acceptance on. -/
def State.newOp (s : State) (c : Instr) (h : CmdHdr) (op : Nat) (part : Option Nat) (st : Nat) (agent : Option Nat) (dies : List Nat)
    (buf : List Byte) : Op :=
  { port := h.port, place := s.freePlace h.port, cmd := c, hdr := h, opcode := BitVec.ofNat 8 op, part := part,
    status := BitVec.ofNat 8 st, steps := 0, agent := agent, dies := dies, done := 0, buf := buf, orphan := false }

section
variable {c : Instr} {s : State} {h : CmdHdr} {op : Nat} {part : Option Nat} (info : cmdInfo c = some (h, op, part))
include info

/-- Acceptance adds the operation, and may tell the port of it. -/
theorem addOp_frame (s : State) (st : Nat) (agent : Option Nat) (ds : List Nat) (buf : List Byte) (told : Bool) :
    PortsRegs { s with ops := s.ops ++ [s.newOp c h op part st agent ds buf] } (s.addOp c st agent ds buf told) := by
  unfold State.addOp
  rw [info]
  dsimp only
  split
  · exact PortsRegs.refl _
  · exact PortsRegs.interim ..

theorem addOp_ops (s : State) (st : Nat) (agent : Option Nat) (ds : List Nat) (buf : List Byte) (told : Bool) :
    (s.addOp c st agent ds buf told).ops = s.ops ++ [s.newOp c h op part st agent ds buf] := by
  rw [addOp_frame info s st agent ds buf told]

/-- What a command that is accepted with an operation begins. -/
theorem begins_of_addOp {t u : State} {st : Nat} {agent : Option Nat} {ds : List Nat} {buf : List Byte} {told : Bool}
    {P : State → Op → Prop} (run : exec c s = .next t) (ops : t.ops = (u.addOp c st agent ds buf told).ops) (bound : st < 256)
    (holds : P t (u.newOp c h op part st agent ds buf)) : Begins c s st P := by
  refine ⟨t, _, run, ?_, rfl, ?_, rfl, holds⟩
  · rw [ops, addOp_ops info]
    simp
  · exact (BitVec.toNat_ofNat ..).trans (Nat.mod_eq_of_lt bound)

/-- An admitted command of class W or S that its own check `e` passes takes its effect `f`, which makes it an operation (R615 to R618). -/
theorem begins_admitted {e : State → Option (Nat × Nat)} {f : Bool → State → State} {t u : State} {st : Nat} {agent : Option Nat}
    {ds : List Nat} {buf : List Byte} {told : Bool} {P : State → Op → Prop} (admitted : s.admits c = true)
    (run : exec c s = .next (s.take c (fun t told => t.vet c (fun _ _ => t.begin c (e t) (f told)))))
    (passed : e (s.dropHead h.port) = none) (effect : f (s.port h.port).queued (s.dropHead h.port) = t)
    (ops : t.ops = (u.addOp c st agent ds buf told).ops) (bound : st < 256)
    (holds : P t (u.newOp c h op part st agent ds buf)) : Begins c s st P := by
  obtain ⟨go, met, _⟩ := (admits_iff info).1 admitted
  refine begins_of_addOp info (run.trans (congrArg _ ?_)) ops bound holds
  rw [take_go info _ go, vet_passed info _ met]
  unfold State.begin
  rw [info, passed]
  exact effect

end

theorem addOp_parts (s : State) (c : Instr) (st : Nat) (agent : Option Nat) (ds : List Nat) (buf : List Byte) (told : Bool) :
    (s.addOp c st agent ds buf told).parts = s.parts := by
  cases info : cmdInfo c with
  | none => simp only [State.addOp, info]
  | some i => rw [addOp_frame info s st agent ds buf told]

/-- The least used of agents 1 to 3 is not agent 0, which serves LOAD and RESTORE_STATE (R631). -/
theorem pickAgent_ne_zero (s : State) (ds : List Nat) : s.pickAgent ds ≠ 0 := by
  unfold State.pickAgent
  extract_lets load
  simp only [List.foldl_cons, List.foldl_nil]
  split <;> split <;> simp

/-! ### Mode changes (R309, R312, R313, R626) -/

/-- Partition `y` is partition `x` with a change pending: of kind `k`, at event `n` of stream `st`, its shadow being filled. -/
def Pends (k st n : Nat) (x y : Partition) : Prop :=
  ∃ c, y.change = some c ∧ c.kind = k ∧ c.stream = st ∧ c.n = n ∧ c.armed = false ∧ y.filling = true ∧ y.gen = x.gen

theorem part_modeBegin (s : State) (p : Nat) (c : ModeChange) :
    (s.modeBegin p c).part p = { s.part p with change := some c, filling := true } := (part_putPart ..).trans (if_pos rfl)

theorem setModeScale_pends {s : State} {p st n x : Nat} (passed : (s.setModeScale p st n x).2 = none) :
    Pends 0 st n (s.part p) ((s.setModeScale p st n x).1.part p) := by
  revert passed
  unfold State.setModeScale
  split
  · exact fun h => nomatch h
  · split
    · next im y _ _ =>
      have first := (LowRegs.imageBytes s p im.dst).1
      have second := (LowRegs.imageBytes (s.imageBytes p im.dst).1 p x).1.trans first
      dsimp only
      split
      · split
        · exact fun h => nomatch h
        · intro _
          rw [part_modeBegin, part_putPart, if_pos rfl, part_of_parts second p]
          exact ⟨_, rfl, rfl, rfl, rfl, rfl, rfl, rfl⟩
      · exact fun h => nomatch h
    · exact fun h => nomatch h

theorem setModeTrigger_pends {s : State} {p st n x : Nat} (passed : (s.setModeTrigger p st n x).2 = none) :
    Pends 1 st n (s.part p) ((s.setModeTrigger p st n x).1.part p) := by
  revert passed
  unfold State.setModeTrigger
  split
  · exact fun h => nomatch h
  · extract_lets b
    split
    · exact fun h => nomatch h
    · intro _
      rw [part_modeBegin]
      exact ⟨_, rfl, rfl, rfl, rfl, rfl, rfl, rfl⟩

/-- A change of seeds leaves those in force as they are. -/
theorem setModeSeeds_pends {s : State} {p st n m : Nat} {seeds : List Nat} (passed : (s.setModeSeeds p st n m seeds).2 = none) :
    Pends 2 st n (s.part p) ((s.setModeSeeds p st n m seeds).1.part p)
      ∧ ((s.setModeSeeds p st n m seeds).1.part p).seeds = (s.part p).seeds := by
  revert passed
  unfold State.setModeSeeds
  split
  · exact fun h => nomatch h
  · extract_lets ps held field
    split
    · exact fun h => nomatch h
    · intro _
      rw [part_modeBegin]
      exact ⟨⟨_, rfl, rfl, rfl, rfl, rfl, rfl, rfl⟩, rfl⟩

/-- A SET_MODE_AT that passes its checks becomes an operation, on the state that its change is pending in. -/
theorem begins_modeSet {c : Instr} {s : State} {h : CmdHdr} {p : Nat} (f : State → State × Option (Nat × Nat))
    (info : cmdInfo c = some (h, 0x25, some p)) (admitted : s.admits c = true)
    (run : exec c s = .next (s.take c (fun t _ => t.vet c (fun _ _ => t.modeSet c h p (f t)))))
    (passed : (f (s.dropHead h.port)).2 = none) {P : State → Prop} (local_ : ∀ t, t.parts = (f (s.dropHead h.port)).1.parts → P t) :
    Begins c s stStepping (fun t _ => P t) := by
  obtain ⟨go, met, _⟩ := (admits_iff info).1 admitted
  rw [take_go info _ go, vet_passed info _ met] at run
  unfold State.modeSet at run
  split at run
  · next found => exact absurd (passed.symm.trans (congrArg Prod.snd found)) nofun
  · next t found =>
    refine begins_of_addOp info run rfl (by decide) (local_ _ ?_)
    rw [State.addLong, addOp_parts, found]

/-- A settings block that is no longer named changes nothing but the marks of the staged images. -/
theorem part_dropAuth (s : State) (p x : Nat) : ((s.dropAuth p x).part p).change = (s.part p).change
    ∧ ((s.dropAuth p x).part p).gen = (s.part p).gen ∧ ((s.dropAuth p x).part p).state = (s.part p).state := by
  unfold State.dropAuth
  extract_lets pt
  generalize (decide (x ∈ pt.sets) || _ : Bool) = named
  cases named
  · rw [if_neg (by decide), part_putPart, if_pos rfl]
    exact ⟨rfl, rfl, rfl⟩
  · exact ⟨rfl, rfl, rfl⟩

/-- A change that is dropped leaves its partition's state and generation. -/
theorem part_modeDrop (s : State) (p : Nat) (c : ModeChange) : ((s.modeDrop p c).part p).change = none
    ∧ ((s.modeDrop p c).part p).gen = (s.part p).gen ∧ ((s.modeDrop p c).part p).state = (s.part p).state := by
  unfold State.modeDrop
  extract_lets t pt u
  have base : pt = s.part p := part_of_parts (ite_keeps (kind1Drop_parts ..) rfl) p
  have dropped : u.part p = { s.part p with change := none, filling := false } := by
    unfold u
    rw [part_putPart, if_pos rfl, base]
  split
  · obtain ⟨change, gen, state⟩ := part_dropAuth u p c.settings
    rw [change, gen, state, dropped]
    exact ⟨rfl, rfl, rfl⟩
  · rw [dropped]
    exact ⟨rfl, rfl, rfl⟩

/-- A CANCEL before the change has its boundary takes the change away. -/
theorem modeCancel_passed {s : State} {p : Nat} {c : ModeChange}
    (live : (s.part p).state = .loaded ∨ (s.part p).state = .running ∨ (s.part p).state = .paused)
    (change : (s.part p).change = some c) (early : c.boundary = none) :
    ∃ u, s.modeCancel p = (u, stOK, 0, 0) ∧ u.parts = (s.modeDrop p c).parts := by
  unfold State.modeCancel
  extract_lets pt
  have ended : ∀ q : Bool, (match (s.modeDrop p c).partOp p [0x25] with
      | some o => if q then (s.modeDrop p c).finishOp o stState (det618 4) 0 else s.modeDrop p c
      | none => s.modeDrop p c).parts = (s.modeDrop p c).parts := fun q => by
    split
    · exact ite_keeps (finishOp_parts ..) rfl
    · rfl
  rcases live with live | live | live <;>
  · rw [live, change]
    dsimp only
    rw [if_neg (by simp [early])]
    exact ⟨_, rfl, (auditCtrl_parts ..).trans (ended pt.filling)⟩

theorem ends_modeCancel {s : State} {h : CmdHdr} {p : Nat} {c : ModeChange} (admitted : s.admits (.setModeAtCancel h p) = true)
    (live : (s.part p).state = .loaded ∨ (s.part p).state = .running ∨ (s.part p).state = .paused)
    (change : (s.part p).change = some c) (early : c.boundary = none) :
    Ends (.setModeAtCancel h p) s 0 (fun u => (u.part p).change = none ∧ (u.part p).gen = (s.part p).gen
      ∧ (u.part p).state = (s.part p).state) := by
  have taken : (s.dropHead h.port).part p = s.part p := (PortsRegs.dropHead s h.port).part p
  obtain ⟨u, effect, parts⟩ := modeCancel_passed (s := s.dropHead h.port) (by rwa [taken]) (taken ▸ change) early
  have dropped := part_modeDrop (s.dropHead h.port) p c
  rw [← part_of_parts parts p, taken] at dropped
  exact ⟨h, 0x25, some p, u, rfl, congrArg _ (instant_admitted rfl admitted effect), dropped⟩

/-! ### Images and areas (R304, R305, R319, R320) -/

/-- STAGE_IMAGE changes no partition's state, and its first chunk opens a staged image. -/
theorem part_stageBegin (s : State) (p dst len off n : Nat) : ((s.stageBegin p dst len off n).part p).state = (s.part p).state
    ∧ (off = 0 → ⟨dst, len, n, 0, false, []⟩ ∈ ((s.stageBegin p dst len off n).part p).staged) := by
  unfold State.stageBegin
  split
  · next next =>
    unfold State.mapStaged
    rw [part_putPart, if_pos rfl]
    exact ⟨rfl, fun first => absurd first next⟩
  · extract_lets gone t pt
    have same : pt = s.part p := part_of_parts (foldl_keeps State.parts _ (fun t o => finishOp_parts t o ..) gone s) p
    rw [part_putPart, if_pos rfl]
    exact ⟨(congrArg Partition.state same :), fun _ => by simp⟩

theorem begins_stageImage {s : State} {h : CmdHdr} {p k dst len off : Nat} (admitted : s.admits (.stageImage h p k dst len off) = true)
    (passed : (s.dropHead h.port).stageCheck h p k dst len off = none) :
    Begins (.stageImage h p k dst len off) s stStepping (fun t o => o.dies = [0, 1] ∧ o.done = 0
      ∧ (off = 0 → ⟨dst, len, h.hostLen, 0, false, []⟩ ∈ (t.part p).staged) ∧ (t.part p).state = (s.part p).state) := by
  obtain ⟨state, opened⟩ := part_stageBegin (s.dropHead h.port) p dst len off h.hostLen
  refine begins_admitted rfl admitted rfl passed rfl rfl (by decide) ⟨rfl, rfl, fun first => ?_, ?_⟩
  · rw [State.addLong, part_addOp]
    exact opened first
  · rw [State.addLong, part_addOp, state, (PortsRegs.dropHead s h.port).part]

/-- A command on agent 0 that puts its partition in LOADING changes no other partition. -/
theorem part_loading (s : State) (c : Instr) (ds : List Nat) (buf : List Byte) (p q : Nat) :
    (((s.addLong c true ds buf).putPart p { s.part p with state := .loading }).part q)
      = if q = p then { s.part p with state := .loading } else s.part q := by
  rw [part_putPart, State.addLong, part_addOp]

theorem begins_load {s : State} {h : CmdHdr} {p img : Nat} {relaxed flush : Bool} {ep : Option (BitVec 2)}
    (admitted : s.admits (.load h p relaxed flush ep img) = true) (passed : (s.dropHead h.port).loadAccept p img flush = none) :
    Begins (.load h p relaxed flush ep img) s stStepping (fun t o => o.agent = some 0
      ∧ t.part p = { s.part p with state := .loading } ∧ ∀ q, q ≠ p → t.part q = s.part q) := by
  have taken := (PortsRegs.dropHead s h.port).part
  refine begins_admitted rfl admitted rfl passed rfl rfl (by decide) ⟨rfl, ?_, fun q other => ?_⟩
  · rw [part_loading, if_pos rfl, taken]
  · rw [part_loading, if_neg other, taken]

theorem begins_saveState {s : State} {h : CmdHdr} {p base : Nat} (admitted : s.admits (.saveState h p base) = true)
    (passed : s.saveCheck p base = none) :
    Begins (.saveState h p base) s stStepping (fun t o => o.agent ≠ some 0 ∧ t.parts = s.parts) :=
  begins_admitted rfl admitted rfl passed rfl rfl (by decide)
    ⟨fun e => pickAgent_ne_zero _ _ (Option.some.inj e), addOp_parts ..⟩

theorem begins_restoreState {s : State} {h : CmdHdr} {p base : Nat} (admitted : s.admits (.restoreState h p base) = true)
    (passed : s.restoreCheck p base = none) :
    Begins (.restoreState h p base) s stStepping (fun t o => o.agent = some 0 ∧ (t.part p).state = .loading
      ∧ (t.part p).image = (s.part p).image) := by
  refine begins_admitted rfl admitted rfl passed rfl rfl (by decide) ⟨rfl, ?_, ?_⟩
  · rw [part_loading, if_pos rfl]
  · rw [part_loading, if_pos rfl, (PortsRegs.dropHead s h.port).part]

/-- Settles O40: each SET_MODE_AT leaves its change pending, CANCEL takes it away, and the image and state commands become operations. -/
theorem imageAndModeCommandsComplete : Obligations.ImageAndModeCommandsComplete := by
  refine ⟨fun s h p st n x m seeds => ?_, fun s h p => ⟨fun _ _ _ _ => begins_stageImage, fun _ _ _ _ => begins_load,
    fun _ => begins_saveState, fun _ => begins_restoreState⟩⟩
  have pends : ∀ {k : Nat} {t u : State}, t.parts = u.parts → Pends k st n ((s.dropHead h.port).part p) (u.part p) →
      Pends k st n (s.part p) (t.part p) := fun parts found => by
    rwa [part_of_parts parts p, ← (PortsRegs.dropHead s h.port).part p]
  refine ⟨fun admitted passed => ?_, fun admitted passed => ?_, fun admitted passed => ?_, fun _ => ends_modeCancel⟩
  · exact begins_modeSet _ rfl admitted rfl passed fun t parts => pends parts (setModeScale_pends passed)
  · exact begins_modeSet _ rfl admitted rfl passed fun t parts => pends parts (setModeTrigger_pends passed)
  · obtain ⟨found, seeds⟩ := setModeSeeds_pends passed
    refine begins_modeSet _ rfl admitted rfl passed fun t parts => ⟨pends parts found, ?_⟩
    rw [part_of_parts parts p, seeds, (PortsRegs.dropHead s h.port).part]

end Sys2Proof.Machine

/-! PROOFS. Commands that wait for a time or a drain, and the service commands: their acceptance (R315, R321, R344, R491, R536, R622, R629,
R662). -/

namespace Sys2Proof.Machine

/-! ### START_AT, PAUSE, RESUME and BARRIER -/

theorem stackWrite_parts (s : State) (k b : Nat) (bs : List Byte) : (s.stackWrite k b bs).parts = s.parts := rfl

theorem stackWrite_seq (s : State) (k b : Nat) (bs : List Byte) : (s.stackWrite k b bs).seq = s.seq := rfl

theorem startCheck_loaded {s : State} {p t : Nat} {align : Bool} {q : DeepParams} (passed : s.startCheck p align t q = none) :
    (s.part p).state = .loaded := by
  revert passed
  unfold State.startCheck
  extract_lets pt
  split
  · next state _ => exact fun _ => state
  · exact nofun

/-- START_AT gives its partition an opening, and sets the counts of every island where it aligns them (R211, R321). -/
theorem startBegin_writes (s : State) (p : Nat) (align : Bool) (t : Nat) (q : DeepParams) :
    (s.startBegin p align t q).part p = { s.part p with opensAt := some t }
      ∧ (s.startBegin p align t q).seq = if align then { s.seq with count0 := t, count1 := t } else s.seq := by
  unfold State.startBegin
  extract_lets a pt u keep
  have counts : a.parts = s.parts ∧ a.seq = if align then { s.seq with count0 := t, count1 := t } else s.seq := by
    cases align <;> exact ⟨rfl, rfl⟩
  have opens : ∀ v : State, v.parts = u.parts → v.seq = u.seq → v.part p = { s.part p with opensAt := some t }
      ∧ v.seq = if align then { s.seq with count0 := t, count1 := t } else s.seq := fun v parts seq => by
    rw [part_of_parts parts p, part_putPart, if_pos rfl, show pt = _ from part_of_parts counts.1 p]
    exact ⟨rfl, seq.trans counts.2⟩
  split
  · exact opens _ rfl rfl
  · split
    · exact opens _ rfl rfl
    · split
      · exact opens _ rfl rfl
      · exact opens _ (stackWrite_parts ..) (stackWrite_seq ..)

theorem addOp_seq (s : State) (c : Instr) (st : Nat) (agent : Option Nat) (ds : List Nat) (buf : List Byte) (told : Bool) :
    (s.addOp c st agent ds buf told).seq = s.seq := by
  cases info : cmdInfo c with
  | none => simp only [State.addOp, info]
  | some i => rw [addOp_frame info s st agent ds buf told]

theorem begins_startAt {s : State} {h : CmdHdr} {p t : Nat} {align : Bool} {q : DeepParams}
    (admitted : s.admits (.startAt h p align t q) = true) (passed : s.startCheck p align t q = none) :
    Begins (.startAt h p align t q) s stQueued (fun u o => (u.part p).opensAt = some t ∧ (u.part p).state = .loaded
      ∧ (align = true → u.seq.count0 = t ∧ u.seq.count1 = t) ∧ (align = false → u.seq = s.seq) ∧ o.agent = none) := by
  obtain ⟨part, seq⟩ := startBegin_writes (s.dropHead h.port) p align t q
  refine begins_admitted rfl admitted rfl passed rfl rfl (by decide) ?_
  rw [State.addWait, part_addOp, addOp_seq, part, seq]
  refine ⟨rfl, startCheck_loaded passed, fun aligned => ?_, fun not => ?_, rfl⟩
  · rw [if_pos aligned]
    exact ⟨rfl, rfl⟩
  · rw [not]
    rfl

theorem count_seq (s : State) (d ev n : Nat) (o : Occ) : (s.count d ev n o).seq = s.seq := by rw [CntRegs.count s d ev n o]

theorem closeStream_seq (s : State) (d st : Nat) : (s.closeStream d st).seq = s.seq := (count_seq ..).trans (addReg_seq ..)

theorem closePart_seq (s : State) (p : Nat) : (s.closePart p).seq = s.seq := by
  unfold State.closePart
  split
  · rfl
  · refine foldl_keeps State.seq _ (fun t st => ?_) _ s
    refine foldl_keeps State.seq _ (fun t m => ?_) _ t
    exact foldl_keeps State.seq _ (fun t d => ite_keeps (closeStream_seq ..) rfl) _ t

/-- A pause ends admission, and the instances that are in flight stay (R315). -/
theorem begins_pause {s : State} {h : CmdHdr} {p : Nat} (admitted : s.admits (.pause h p) = true) (running : (s.part p).state = .running) :
    Begins (.pause h p) s stQueued (fun u _ => (u.part p).state = .pausing ∧ u.seq.insts = s.seq.insts) := by
  refine begins_admitted rfl admitted rfl (if_pos running) rfl rfl (by decide) ?_
  rw [State.addWait, part_addOp, addOp_seq]
  unfold State.pauseBegin
  rw [part_putPart, if_pos rfl]
  exact ⟨rfl, congrArg Sequencer.insts (closePart_seq ..)⟩

theorem resumeCheck_paused {s : State} {p t : Nat} (passed : s.resumeCheck p t = none) : (s.part p).state = .paused := by
  revert passed
  unfold State.resumeCheck
  extract_lets pt
  split
  · exact nofun
  · next ready => exact fun _ => Classical.not_not.1 fun other => ready (.inl other)

theorem begins_resume {s : State} {h : CmdHdr} {p t : Nat} (admitted : s.admits (.resume h p t) = true)
    (passed : s.resumeCheck p t = none) :
    Begins (.resume h p t) s stQueued (fun u _ => (u.part p).opensAt = some t ∧ (u.part p).saved = false
      ∧ (u.part p).state = .paused) := by
  refine begins_admitted rfl admitted rfl passed rfl rfl (by decide) ?_
  rw [State.addWait, part_addOp]
  unfold State.resumeBegin
  rw [part_putPart, if_pos rfl]
  exact ⟨rfl, rfl, resumeCheck_paused passed⟩

theorem begins_barrier {s : State} {h : CmdHdr} {t tb id : Nat} {at_ : TimeVal} (admitted : s.admits (.barrier h tb at_ t id) = true)
    (passed : s.barrierCheck tb at_ t = none) :
    Begins (.barrier h tb at_ t id) s stQueued (fun u _ => u.barrier = some ⟨h, tb, time16Of at_, t, id⟩ ∧ u.seq = s.seq
      ∧ u.tim = s.tim) := by
  refine begins_admitted rfl admitted rfl passed rfl rfl (by decide) ?_
  rw [State.addWait, addOp_frame rfl]
  exact ⟨rfl, rfl, rfl⟩

/-! ### SCRUB, STORE_SETTINGS and EYE_SCAN -/

theorem begins_scrub {s : State} {h : CmdHdr} {space stks regions base len : Nat} {repair : Bool}
    (admitted : s.admits (.scrub h space repair stks regions base len) = true)
    (passed : (s.dropHead h.port).scrubCheck h space stks (BitVec.ofNat 16 regions) base len = none) :
    Begins (.scrub h space repair stks regions base len) s stStepping
      (fun t o => o.done = 0 ∧ o.agent ≠ some 0 ∧ t.flt = s.flt) := by
  refine begins_admitted rfl admitted rfl passed rfl rfl (by decide)
    ⟨rfl, fun e => pickAgent_ne_zero _ _ (Option.some.inj e), ?_⟩
  rw [State.addLong, addOp_frame rfl]
  rfl

theorem begins_storeSettings {s : State} {h : CmdHdr} {rmask : Nat} (admitted : s.admits (.storeSettings h rmask) = true)
    (passed : (s.dropHead h.port).storeCheck h rmask = none) :
    Begins (.storeSettings h rmask) s stStepping (fun t o => o.agent = some 4 ∧ t.storing = true ∧ t.sys = s.sys) := by
  obtain ⟨_, _, answers⟩ := (admits_iff rfl).1 admitted
  refine begins_admitted (t := (s.dropHead h.port).addOp (.storeSettings h rmask) stStepping (some 4) [0]
    ((s.dropHead h.port).storeImage h rmask) false) rfl admitted rfl ?_ rfl rfl (by decide) ⟨rfl, ?_, ?_⟩
  · rw [answers]
    exact passed
  · rw [State.storing, addOp_ops rfl]
    simp [State.newOp]
  · rw [addOp_frame rfl]
    rfl

theorem aLane_high (l : Nat) : 0x1000000 ≤ addrOff (aLane l 0x60) := by
  unfold aLane addrOff aLan aOpt dieBase
  split <;> omega

/-- Acceptance changes no register from die offset 0x1000000 on. -/
theorem reg_addOp {b : Nat} (high : 0x1000000 ≤ addrOff b) (s : State) (c : Instr) (st : Nat) (agent : Option Nat) (ds : List Nat)
    (buf : List Byte) (told : Bool) : (s.addOp c st agent ds buf told).reg b = s.reg b := by
  unfold State.addOp
  split
  · rfl
  · extract_lets o t
    split
    · rfl
    · exact (LowRegs.interim t ..).2.2 b high

section
variable {s : State} {h : CmdHdr} {l : Nat} {g : EyeGrid} (admitted : s.admits (.eyeScan h l g) = true)
  (passed : (s.dropHead h.port).eyeCheck h l g = none)
include admitted passed

/-- A scan whose die runs fewer than four starts, and its lane is busy. -/
theorem begins_eyeScan (room : s.scansOn (laneDie l) < 4) :
    Begins (.eyeScan h l g) s stStepping (fun t o => t.reg (aLane l 0x60) = BitVec.ofNat 32 (2 ^ 31) ∧ o.dies = [laneDie l]) := by
  refine begins_admitted rfl admitted rfl passed (if_pos room) rfl (by decide) ⟨?_, rfl⟩
  rw [State.addLong, reg_addOp (aLane_high l), State.eyeStatus, reg_setReg, if_pos rfl]
  rfl

/-- A fifth scan of a die waits. -/
theorem begins_eyeScan_queued (full : 4 ≤ s.scansOn (laneDie l)) : Begins (.eyeScan h l g) s stQueued (fun t _ => t.lan = s.lan) := by
  refine begins_admitted rfl admitted rfl passed (if_neg (Nat.not_lt.2 full)) rfl (by decide) ?_
  rw [addOp_frame rfl]
  rfl

end

/-- Settles O41: what each of these commands writes as it becomes an operation. -/
theorem runAndServiceCommandsComplete : Obligations.RunAndServiceCommandsComplete :=
  ⟨fun _ _ _ _ => ⟨fun _ _ => begins_startAt, begins_pause, begins_resume, fun _ _ _ => begins_barrier⟩,
    fun _ _ => ⟨fun _ _ _ _ _ _ => begins_scrub, fun _ => begins_storeSettings,
      fun _ _ admitted passed => ⟨begins_eyeScan admitted passed, begins_eyeScan_queued admitted passed⟩⟩⟩

end Sys2Proof.Machine

/-! PROOFS. What the load of some regions writes: no partition, no operation, and of the lattice status registers those of its own regions
(R302, R303). -/

namespace Sys2Proof.Machine

/-- Address `a` is not the status word of a lattice region outside `rs`. -/
def Beside (rs : List Nat) (a : Nat) : Prop := ∀ r, r < 16 → r ∉ rs → aLat r 0 ≠ a

/-- `t` has the partitions and operations of `a`, and the status words of the regions outside `rs`. -/
def Loads (rs : List Nat) (a t : State) : Prop :=
  t.parts = a.parts ∧ t.ops = a.ops ∧ ∀ r, r < 16 → r ∉ rs → t.reg (aLat r 0) = a.reg (aLat r 0)

section
variable {rs : List Nat}

theorem Loads.refl (s : State) : Loads rs s s := ⟨rfl, rfl, fun _ _ _ => rfl⟩

theorem Loads.trans {a b c : State} (h : Loads rs a b) (k : Loads rs b c) : Loads rs a c :=
  ⟨k.1.trans h.1, k.2.1.trans h.2.1, fun r hr out => (k.2.2 r hr out).trans (h.2.2 r hr out)⟩

theorem Loads.of_regs {a t : State} (parts : t.parts = a.parts) (ops : t.ops = a.ops) (regs : t.regs = a.regs) : Loads rs a t :=
  ⟨parts, ops, fun r _ _ => by rw [State.reg, regs, State.reg]⟩

theorem Loads.of_lowRegs {a t : State} (h : LowRegs a t) : Loads rs a t :=
  ⟨h.1, h.2.1, fun r _ _ => h.2.2 _ (by unfold addrOff aLat dieBase; omega)⟩

theorem Loads.foldl {α : Type} {f : State → α → State} {l : List α} (h : ∀ x ∈ l, ∀ s, Loads rs s (f s x)) (s : State) :
    Loads rs s (l.foldl f s) := by
  induction l generalizing s with
  | nil => exact Loads.refl s
  | cons x l ih =>
    obtain ⟨here, later⟩ := List.forall_mem_cons.1 h
    exact (here s).trans (ih later (f s x))

section
variable (s : State) {a : Nat} (beside : Beside rs a)
include beside

theorem Loads.setReg (v : Word) : Loads rs s (s.setReg a v) :=
  ⟨rfl, rfl, fun r hr out => (reg_setReg s a v _).trans (if_neg (beside r hr out))⟩

theorem Loads.setField (hi lo v : Nat) : Loads rs s (s.setField a hi lo v) := Loads.setReg s beside _

theorem Loads.setFlag (i : Nat) (v : Bool) : Loads rs s (s.setFlag a i v) :=
  ⟨rfl, rfl, fun r hr out => reg_setFlag_ne s a i v _ (beside r hr out)⟩

theorem Loads.addField (hi lo n : Nat) : Loads rs s (s.addField a hi lo n) :=
  ⟨rfl, rfl, fun r hr out => reg_addField_ne s a hi lo n _ (beside r hr out)⟩

end

/-! ### Addresses that a load writes -/

/-- The status words stand at the starts of the regions' windows. -/
theorem beside_of_mod {a : Nat} (h : a % 0x400000 ≠ 0) : Beside rs a := fun r _ _ e => h (by
  subst e
  unfold aLat dieBase
  omega)

theorem beside_aLat_zero {r : Nat} (h : r ∈ rs) : Beside rs (aLat r 0) := fun x _ out e => out (by
  have same : x = r := by
    unfold aLat dieBase at e
    omega
  exact same ▸ h)

theorem beside_aLat {r o : Nat} (pos : 0 < o) (lt : o < 0x400000) : Beside rs (aLat r o) := beside_of_mod (by
  unfold aLat dieBase
  omega)

theorem beside_aSeq {d o : Nat} (h : o < 0x200000) : Beside rs (aSeq d o) := beside_of_mod (by
  unfold aSeq dieBase
  omega)

theorem beside_aUnit {u o : Nat} (h : o < 0x1000) : Beside rs (aUnit u o) :=
  beside_aLat (by omega) (by unfold uCluster uUnit; omega)

theorem beside_aCtxC {u k : Nat} (h : k < 4) : Beside rs (aCtxC u k) := by
  unfold aCtxC
  split
  · exact beside_aUnit (by omega)
  · exact beside_aLat (by omega) (by unfold uCluster uUnit; omega)

theorem beside_unitWords (s : State) (im : Loaded) (u : ImgRec) : ∀ w ∈ s.unitWords im u, Beside rs w.1 := by
  intro w hw
  unfold State.unitWords at hw
  extract_lets a cfg at hw
  rw [← List.flatMap_eq_foldl, List.mem_append, List.mem_flatMap] at hw
  rcases hw with fixed | ⟨k, hk, context⟩
  · simp only [List.mem_cons, List.not_mem_nil, or_false] at fixed
    rcases fixed with rfl | rfl | rfl <;> exact beside_aUnit (by decide)
  · have bound : k < 4 := by
      have := List.mem_range.1 hk
      unfold ruNctx bitsOf at this
      omega
    simp only [List.mem_cons, List.not_mem_nil, or_false] at context
    rcases context with rfl | rfl | rfl
    · exact beside_aUnit (by omega)
    · exact beside_aUnit (by omega)
    · exact beside_aCtxC bound

theorem mem_dfEntries {b : List Byte} {e : DfEntry} (h : e ∈ dfEntries b) : e.f < 64 ∧ e.ch < 20 := by
  obtain ⟨i, hi, found⟩ := List.mem_filterMap.1 h
  have bound := List.mem_range.1 hi
  extract_lets w sw at found
  split at found
  · obtain rfl := Option.some.inj found
    dsimp only
    omega
  · exact absurd found nofun

theorem beside_slotWords (im : Loaded) (sec : Nat) : ∀ w ∈ im.slotWords sec, Beside rs w.1 := by
  intro w hw
  unfold Loaded.slotWords at hw
  rw [← List.flatMap_eq_foldl, ← List.flatMap_eq_foldl, List.mem_append, List.mem_flatMap, List.mem_flatMap] at hw
  rcases hw with ⟨r, _, hw⟩ | ⟨r, _, hw⟩
  · obtain ⟨i, hi, found⟩ := List.mem_filterMap.1 hw
    have bound := List.mem_range.1 hi
    extract_lets word at found
    split at found
    · obtain rfl := Option.some.inj found
      exact beside_aLat (by omega) (by omega)
    · exact absurd found nofun
  · obtain ⟨e, he, found⟩ := List.mem_filterMap.1 hw
    obtain ⟨hf, hc⟩ := mem_dfEntries he
    obtain ⟨x, _, rfl⟩ := Option.map_eq_some_iff.1 found
    exact beside_aSeq (by omega)

/-! ### Clearing and installing the configuration of regions -/

/-- Entries whose keys a filter keeps are found as before. -/
theorem mapGet_filter_key {α : Type} (m : AMap α) (keep : Nat → Bool) {k : Nat} (h : keep k = true) :
    mapGet (m.filter (fun e => keep e.1)) k = mapGet m k := by
  induction m with
  | nil => rfl
  | cons e m ih =>
    by_cases hit : e.1 = k
    · rw [List.filter_cons_of_pos (by rw [hit, h]), mapGet_cons, mapGet_cons, if_pos hit, if_pos hit]
    · rw [mapGet_cons, if_neg hit, ← ih, List.filter_cons]
      split
      · exact (mapGet_cons ..).trans (if_neg hit)
      · rfl

theorem cfgReg_aLat_zero (r x : Nat) : cfgReg r (aLat x 0) = false := by
  unfold cfgReg aDfSlot aSeq aLat dieBase
  exact decide_eq_false (by omega)

theorem Loads.clearConfig (s : State) {r : Nat} (h : r ∈ rs) : Loads rs s (s.clearConfig r) := by
  unfold State.clearConfig
  extract_lets lat t
  have cleared : Loads rs s t := ⟨rfl, rfl, fun x _ _ => by
    have kept := mapGet_filter_key s.regs (fun a => !cfgReg r a) (congrArg not (cfgReg_aLat_zero r x))
    exact congrArg (Option.getD · (regReset (aLat x 0))) kept⟩
  exact ((cleared.trans (Loads.setField _ (beside_aLat_zero h) ..)).trans (Loads.setField _ (beside_aLat_zero h) ..)).trans
    (Loads.setReg _ (beside_aSeq (by omega)) _)

theorem Loads.clearContent (s : State) (r : Nat) : Loads rs s (s.clearContent r) := Loads.of_regs rfl rfl rfl

theorem Loads.rowsWritten (s : State) (f : Nat → Nat → Bool) : Loads rs s (s.rowsWritten f) := Loads.of_regs rfl rfl rfl

theorem Loads.putWords (s : State) {ws : List (Nat × Nat)} (h : ∀ w ∈ ws, Beside rs w.1) : Loads rs s (s.putWords ws) :=
  Loads.foldl (fun w hw t => Loads.setReg t (h w hw) _) s

theorem Loads.installConfig (s : State) (im : Loaded) (sec : Nat) : Loads rs s (s.installConfig rs im sec) := by
  unfold State.installConfig
  extract_lets im' s1 s2 s3 s4 s5 s6
  have cleared : Loads rs s s2 := (Loads.foldl (fun r hr t => Loads.clearConfig t hr) s).trans (Loads.rowsWritten ..)
  have words : Loads rs s2 s3 := by
    refine Loads.foldl (fun u _ t => ?_) s2
    exact Loads.putWords t (beside_unitWords t im' u)
  have slots : Loads rs s3 s4 := by
    refine Loads.foldl (fun w hw t => ?_) s3
    exact (Loads.setReg t (beside_slotWords im' sec w hw) _).trans (Loads.of_regs rfl rfl rfl)
  have mems : Loads rs s4 s5 := by
    refine Loads.foldl (fun w _ t => ?_) s4
    exact Loads.of_regs rfl rfl rfl
  have trims : Loads rs s5 s6 := by
    refine Loads.foldl (fun u _ t => ?_) s5
    extract_lets a r trim short t1 t2 lat
    have at_ : Beside rs trim := beside_aSeq (by omega)
    have written : Loads rs t t2 := (Loads.addField t at_ ..).trans (Loads.addField t1 at_ ..)
    exact written.trans (Loads.of_regs rfl rfl rfl)
  refine ((((cleared.trans words).trans slots).trans mems).trans trims).trans (Loads.foldl (fun e he t => ?_) s6)
  have own : Beside rs (aLat e.1 0) := beside_aLat_zero (of_decide_eq_true (List.mem_filter.1 he).2)
  exact (Loads.setField t own ..).trans (Loads.setField _ own ..)

theorem Loads.sramWrite (s : State) (k a : Nat) (b : List Byte) : Loads rs s (s.sramWrite k a b) := Loads.of_regs rfl rfl rfl

theorem Loads.installSram (s : State) (im : Loaded) (img : List Byte) (sec half : Nat) : Loads rs s (s.installSram im img sec half) := by
  unfold State.installSram
  extract_lets s1 s2 keys
  have operands : Loads rs s s1 := by
    refine Loads.foldl (fun _ _ t => ?_) s
    exact Loads.sramWrite ..
  have records : Loads rs s1 s2 := by
    refine Loads.foldl (fun _ _ t => ?_) s1
    exact Loads.sramWrite ..
  exact (operands.trans records).trans (Loads.rowsWritten ..)

theorem Loads.installRescale (s : State) (im : Loaded) (l : List ImgRec) (b : Nat) : Loads rs s (s.installRescale im l b) := by
  refine Loads.foldl (fun _ _ t => ?_) s
  extract_lets k rescale lat u
  exact (Loads.of_regs rfl rfl rfl : Loads rs t u).trans (Loads.rowsWritten ..)

theorem Loads.putUnit (s : State) (u : Nat) (x : UnitState) : Loads rs s (s.putUnit u x) := Loads.of_regs rfl rfl rfl

theorem Loads.fillUnits (s : State) (im : Loaded) (sec half : Nat) : Loads rs s (s.fillUnits rs im sec half) := by
  refine Loads.foldl (fun _ _ t => ?_) s
  exact Loads.putUnit ..

/-- The load of the regions `rs` changes the status word of none but these. -/
theorem Loads.loadRegions (s : State) (p : Nat) (im : Loaded) (b : List Byte) : Loads rs s (s.loadRegions p im b rs) := by
  unfold State.loadRegions
  extract_lets s1 s2 im'
  have emptied : Loads rs s s1 := by
    refine Loads.foldl (fun r hr t => ?_) s
    extract_lets t1
    have clear : Loads rs t t1 := ((Loads.clearConfig t hr).trans (Loads.clearContent ..)).trans (
      Loads.setFlag _ (beside_aLat (by decide) (by decide)) ..)
    exact ((clear.trans (Loads.setReg _ (beside_aLat (by decide) (by decide)) _)).trans
      (Loads.setReg _ (beside_aLat (by decide) (by decide)) _)).trans (Loads.setField _ (beside_aLat_zero hr) ..)
  exact ((((emptied.trans (Loads.rowsWritten ..)).trans (Loads.installConfig ..)).trans (Loads.installSram ..)).trans
    (Loads.installRescale ..)).trans (Loads.fillUnits ..)

end

theorem loadGroup_subset {x : Partition} {k r : Nat} (h : r ∈ loadGroup x k) : r ∈ partRegions x := by
  unfold loadGroup at h
  rw [← List.flatMap_eq_foldl, List.mem_flatMap] at h
  obtain ⟨d, _, hr⟩ := h
  exact (List.mem_filter.1 (List.mem_of_mem_drop (List.mem_of_mem_take hr))).1

/-- A group of regions that could be loaded leaves operations as they were, and the status words of every other partition's regions. -/
theorem loadSome_passed {s : State} {p dst k : Nat} (good : (s.loadSome p dst k).2 = true) : (s.loadSome p dst k).1.ops = s.ops
    ∧ ∀ r, r < 16 → r ∉ partRegions (s.part p) → (s.loadSome p dst k).1.reg (aLat r 0) = s.reg (aLat r 0) := by
  revert good
  unfold State.loadSome
  have read := LowRegs.imageBytes s p dst
  dsimp only
  split
  · next b im _ =>
    intro _
    have group := (Loads.of_lowRegs read).trans
      (Loads.loadRegions (rs := loadGroup ((s.imageBytes p dst).1.part p) k) (s.imageBytes p dst).1 p im b)
    refine ⟨group.2.1, fun r hr out => group.2.2 r hr fun mem => out ?_⟩
    rw [part_of_parts read.1 p] at mem
    exact loadGroup_subset mem
  · exact nofun

end Sys2Proof.Machine

/-! PROOFS. Steps of long operations: which operation a step serves, and how the last one ends it (R302, R303, R305, R319, R320, R491,
R631, R662). -/

namespace Sys2Proof.Machine

/-! ### Operations that stand, and operations that have ended -/

/-- No operation stands in the place of `o` at its port. -/
def State.ended (s : State) (o : Op) : Prop := ∀ x ∈ s.ops, ¬(x.port = o.port ∧ x.place = o.place)

theorem finishOp_ended (s : State) (o : Op) (st d r : Nat) : (s.finishOp o st d r).ended o := by
  intro x hx
  rw [finishOp_frame s o st d r] at hx
  exact of_decide_eq_false (Bool.not_eq_true' _ ▸ (List.mem_filter.1 hx).2)

theorem reg_finishOp {b : Nat} (high : 0x1000000 ≤ addrOff b) (s : State) (o : Op) (st d r : Nat) :
    (s.finishOp o st d r).reg b = s.reg b := by
  unfold State.finishOp
  extract_lets t
  split
  · rfl
  · exact (LowRegs.complete t ..).2.2 b high

/-- An operation of which one stands in its place is put there. -/
theorem mem_putOp {s : State} {o x : Op} (stands : x ∈ s.ops) (place : x.port = o.port ∧ x.place = o.place) : o ∈ (s.putOp o).ops :=
  List.mem_map.2 ⟨x, stands, if_pos place⟩

/-- Operations elsewhere stay as they are. -/
theorem mem_putOp_ne {s : State} {o x : Op} (stands : x ∈ s.ops) (other : ¬(x.port = o.port ∧ x.place = o.place)) :
    x ∈ (s.putOp o).ops :=
  List.mem_map.2 ⟨x, stands, if_neg other⟩

/-- An operation that has run one more step. -/
def Op.stepped (o : Op) : Op := { o with steps := o.steps + 1 }

/-! ### One step, by the command of its operation -/

section
variable {s : State} {o : Op} {i : StepIn}

/-- The agent serves the operation that the port and the tag name (R631). -/
theorem exec_longOpStep {q : Port} {tag : BitVec 16}
    (found : s.ops.find? (fun o => decide (o.port = q ∧ o.hdr.tag = tag) && o.agent.isSome) = some o) (able : s.canStep o = true)
    (status : o.status.toNat = stStepping) : exec (.longOpStep q tag i) s = .next (s.runStep o i) := by
  refine congrArg Host.Outcome.next ?_
  unfold State.longStep
  rw [found]
  dsimp only
  rw [if_neg (by simp [able]), if_neg (by rw [status]; decide)]

/-- The last step of a SAVE_STATE ends it, in success or in a fault (R319). -/
theorem saveStep_ended (s : State) (o : Op) (p base : Nat) (last : i.last = true) : (s.saveStep o i p base).ended o := by
  unfold State.saveStep
  rw [if_pos last]
  split <;> exact finishOp_ended _ _ _ _ _

theorem restoreStep_ended (s : State) (o : Op) (p base : Nat) (last : i.last = true) : (s.restoreStep o i p base).ended o := by
  unfold State.restoreStep
  extract_lets old
  rw [if_pos last]
  split <;> exact finishOp_ended _ _ _ _ _

/-- The last step of a SCRUB covers what is left of it. -/
theorem scrubStep_total (s : State) (repair : Bool) (space stks : Nat) (regions : BitVec 16) (base len : Nat) (o : Op)
    (last : i.last = true) : (s.scrubStep repair space stks regions base len o i).2.1 = scrubTotal space len := by
  unfold State.scrubStep
  extract_lets x total n hi
  have whole : hi = scrubTotal space len := by
    unfold hi n
    rw [if_pos last]
    exact Nat.min_eq_left (Nat.le_add_left ..)
  split <;> exact whole

theorem scrubOp_ended (s : State) (o : Op) (space : Nat) (repair : Bool) (stks regions base len : Nat) (last : i.last = true) :
    (s.scrubOp o i space repair stks regions base len).ended o := by
  unfold State.scrubOp
  have whole := scrubStep_total s repair space stks (BitVec.ofNat 16 regions) base len o last
  dsimp only
  rw [whole, decide_eq_true rfl, Bool.true_or, if_pos rfl]
  split <;> exact finishOp_ended _ _ _ _ _

theorem storeStep_ended (s : State) (o : Op) (last : i.last = true) : (s.storeStep o i).ended o := by
  unfold State.storeStep
  rw [if_pos (.inl last)]
  exact finishOp_ended _ _ _ _ _

/-- The last step of a SAVE_STATE, RESTORE_STATE, SCRUB or STORE_SETTINGS ends it. -/
theorem runStep_ended (kind : match o.cmd with
      | .saveState .. | .restoreState .. | .scrub .. | .storeSettings .. => True
      | _ => False) (last : i.last = true) : (s.runStep o i).ended o := by
  unfold State.runStep
  extract_lets o1 t
  rw [show o1.cmd = o.cmd from rfl]
  split at kind
  · next cmd => rw [cmd]; exact saveStep_ended t o1 _ _ last
  · next cmd => rw [cmd]; exact restoreStep_ended t o1 _ _ last
  · next cmd => rw [cmd]; exact scrubOp_ended t o1 _ _ _ _ _ _ last
  · next cmd => rw [cmd]; exact storeStep_ended t o1 last
  · exact kind.elim

/-! ### LOAD (R302, R303, R305) -/

theorem mitRefresh_ops (s : State) (p : Nat) : (s.mitRefresh p).ops = s.ops := ite_keeps rfl rfl

theorem loadDone_ended (s : State) (o : Op) (p st d v : Nat) : (s.loadDone o p st d v).ended o := by
  unfold State.loadDone State.ended
  extract_lets t
  rw [mitRefresh_ops]
  exact finishOp_ended t o st d v

/-- A LOAD ends where a step meets a fault, and after the step of its last regions. -/
theorem loadStep_ended (s : State) {o : Op} {p img : Nat} {relaxed flush : Bool} {ep : Option (BitVec 2)} (later : o.steps ≠ 1)
    (ends : i.fault = true ∨ loadGroups (s.part p) ≤ o.done) : (s.loadStep o i p img relaxed flush ep).ended o := by
  unfold State.loadStep
  rw [if_neg later]
  split
  · exact loadDone_ended _ _ _ _ _ _
  · next well =>
    rw [if_neg (Nat.not_lt.2 (ends.resolve_left well))]
    exact loadDone_ended _ _ _ _ _ _

/-- The first step of a LOAD ends it where its checks refuse it. -/
theorem loadStep_refused (s : State) {o : Op} {p img st d : Nat} {relaxed flush : Bool} {ep : Option (BitVec 2)} (first : o.steps = 1)
    (refused : (s.loadBegin p img relaxed ep).2 = some (st, d)) : (s.loadStep o i p img relaxed flush ep).ended o := by
  unfold State.loadStep
  rw [if_pos first]
  extract_lets r
  rw [show r.2 = _ from refused]
  dsimp only
  split <;> exact loadDone_ended _ _ _ _ _ _

/-- A step between them loads two regions of each die. -/
theorem loadStep_group (s : State) {o : Op} {p img : Nat} {relaxed flush : Bool} {ep : Option (BitVec 2)} (later : o.steps ≠ 1)
    (well : i.fault = false) (more : o.done < loadGroups (s.part p)) (good : (s.loadSome p img o.done).2 = true) :
    s.loadStep o i p img relaxed flush ep = (s.loadSome p img o.done).1.putOp { o with done := o.done + 1 } := by
  unfold State.loadStep
  rw [if_neg later, if_neg (by simp [well]), if_pos more]
  exact if_pos good

theorem runStep_load {h : CmdHdr} {p img : Nat} {relaxed flush : Bool} {ep : Option (BitVec 2)}
    (cmd : o.cmd = .load h p relaxed flush ep img) :
    s.runStep o i = (s.putOp o.stepped).loadStep o.stepped i p img relaxed flush ep := by
  unfold State.runStep
  extract_lets o1 t
  rw [show o1.cmd = _ from cmd]
  rfl

/-- A group that is loaded leaves the epochs of every region outside the partition. -/
theorem runStep_load_group {h : CmdHdr} {p img : Nat} {relaxed flush : Bool} {ep : Option (BitVec 2)} (stands : o ∈ s.ops)
    (cmd : o.cmd = .load h p relaxed flush ep img) (later : o.steps ≠ 0) (well : i.fault = false)
    (more : o.done < loadGroups (s.part p)) (good : ((s.putOp o.stepped).loadSome p img o.done).2 = true) :
    { o.stepped with done := o.done + 1 } ∈ (s.runStep o i).ops
    ∧ ∀ r, r < 16 → r ∉ partRegions (s.part p) → (s.runStep o i).field (aLat r 0) 29 28 = s.field (aLat r 0) 29 28 := by
  rw [runStep_load cmd, loadStep_group (s.putOp o.stepped) (o := o.stepped) (fun e => later (Nat.succ.inj e)) well more good]
  obtain ⟨ops, regs⟩ := loadSome_passed good
  refine ⟨mem_putOp (x := o.stepped) ?_ ⟨rfl, rfl⟩, fun r hr out => ?_⟩
  · exact ops.symm ▸ mem_putOp stands ⟨rfl, rfl⟩
  · exact congrArg (fun w : Word => bitsOf w.toNat 29 28) (regs r hr out)

/-! ### Steps that go on (R319) -/

theorem runStep_saveState {h : CmdHdr} {p base : Nat} (cmd : o.cmd = .saveState h p base) (more : i.last = false)
    (well : i.fault = false) : s.runStep o i = s.putOp o.stepped := by
  unfold State.runStep
  extract_lets o1 t
  rw [show o1.cmd = _ from cmd]
  dsimp only
  unfold State.saveStep
  rw [if_neg (by simp [well]), if_neg (by simp [more])]
  rfl

theorem runStep_setModeAtSeeds {h : CmdHdr} {p st n m : Nat} {ss : List Nat} (cmd : o.cmd = .setModeAtSeeds h p st n m ss)
    (well : i.fault = false) : s.runStep o i = s.putOp o.stepped := by
  unfold State.runStep
  extract_lets o1 t
  rw [show o1.cmd = _ from cmd]
  dsimp only
  unfold State.modeStep
  rw [well]
  split <;> rfl

/-! ### The last points of an EYE_SCAN (R536, R537) -/

/-- Its end writes the number of its points, with the lane no longer busy. -/
theorem eyeEnd_ended (s : State) (o : Op) (l : Nat) (g : EyeGrid) (st : Nat) : (s.eyeEnd o l g st).ended o
    ∧ (s.eyeEnd o l g st).reg (aLane l 0x60) = BitVec.ofNat 32 (min 65535 o.done) := by
  unfold State.eyeEnd
  extract_lets t
  refine ⟨finishOp_ended _ _ _ _ _, ?_⟩
  rw [reg_finishOp (aLane_high l), State.eyeStatus, reg_setReg, if_pos rfl]
  exact congrArg (BitVec.ofNat 32) (Nat.zero_add _)

theorem runStep_eyeScan {h : CmdHdr} {l : Nat} {g : EyeGrid} (cmd : o.cmd = .eyeScan h l g) (well : i.fault = false)
    (answers : i.hostErr = false) (enough : gridPoints g ≤ o.done + i.bytes.length / 4) (within : o.done ≤ gridPoints g) :
    (s.runStep o i).ended o ∧ (s.runStep o i).reg (aLane l 0x60) = BitVec.ofNat 32 (min 65535 (gridPoints g)) := by
  unfold State.runStep
  extract_lets o1 t
  rw [show o1.cmd = _ from cmd]
  dsimp only
  unfold State.eyeStep
  rw [if_neg (by simp [well])]
  extract_lets n o2
  have all : o2.done = gridPoints g := by
    change o.done + min (i.bytes.length / 4) (gridPoints g - o.done) = gridPoints g
    omega
  rw [if_pos all, if_neg (by simp [hostFails, answers])]
  obtain ⟨gone, points⟩ := eyeEnd_ended t o2 l g stOK
  exact ⟨gone, all ▸ points⟩

end

/-- Settles O45: what a step does to the operation that it serves, command by command. -/
theorem longStepsComplete : Obligations.LongStepsComplete := by
  intro s q tag i o found able status
  have stands : o ∈ s.ops := List.mem_of_find?_eq_some found
  have run := exec_longOpStep (i := i) found able status
  refine ⟨fun kind last => ⟨_, run, runStep_ended kind last⟩, fun h p img relaxed flush ep cmd => ?_, ?_, ?_, ?_⟩
  · refine ⟨fun later ends => ⟨_, run, ?_⟩, fun later well more good =>
      ⟨_, run, runStep_load_group stands cmd later well more good⟩, fun st d first refused => ⟨_, run, ?_⟩⟩
    · rw [runStep_load cmd]
      exact loadStep_ended _ (fun e => later (Nat.succ.inj e)) ends
    · rw [runStep_load cmd]
      exact loadStep_refused _ (congrArg Nat.succ first) refused
  · intro h p base cmd more well
    refine ⟨_, run, ?_⟩
    rw [runStep_saveState cmd more well]
    exact ⟨mem_putOp stands ⟨rfl, rfl⟩, rfl, rfl, fun x hx other => mem_putOp_ne hx other⟩
  · intro h l g _ cmd well answers enough within
    exact ⟨_, run, runStep_eyeScan cmd well answers enough within⟩
  · intro h p st n m ss cmd well
    refine ⟨_, run, ?_⟩
    rw [runStep_setModeAtSeeds cmd well]
    exact ⟨mem_putOp stands ⟨rfl, rfl⟩, rfl⟩

end Sys2Proof.Machine

/-! PROOFS. What audit entries, a logged divergence and the stop of a partition leave alone: the comparator's records and the count of
those that did not come (R354 to R361, R368 to R372). -/

namespace Sys2Proof.Machine

/-! ### Audit entries write chains and the counters of lost batches (R354, R361) -/

/-- `t` differs from `a` in its audit chains, and of its registers in the counters of lost batches, at most. -/
def AuditFrame (a t : State) : Prop :=
  t = { a with chains := t.chains, regs := t.regs, cyc := t.cyc }
    ∧ ∀ b, (∀ p, b ≠ aChk 0 (0x1000C + 0x10 * p)) → t.reg b = a.reg b

theorem AuditFrame.refl (s : State) : AuditFrame s s := ⟨rfl, fun _ _ => rfl⟩

theorem AuditFrame.trans {a b c : State} (h : AuditFrame a b) (k : AuditFrame b c) : AuditFrame a c := by
  obtain ⟨kept, regs⟩ := h
  obtain ⟨kept', regs'⟩ := k
  refine ⟨?_, fun r hr => (regs' r hr).trans (regs r hr)⟩
  rw [kept', kept]

theorem AuditFrame.putChain (s : State) (p : Nat) (c : Chain) : AuditFrame s (s.putChain p c) := ⟨rfl, fun _ _ => rfl⟩

theorem AuditFrame.addReg (s : State) (p n : Nat) : AuditFrame s (s.addReg (aChk 0 (0x1000C + 0x10 * p)) n) :=
  ⟨rfl, fun b other => reg_addReg_ne s _ n b (other p)⟩

theorem AuditFrame.ensureBatch (s : State) (p : Nat) : AuditFrame s (s.ensureBatch p) := by
  unfold State.ensureBatch
  split
  · exact AuditFrame.refl s
  split
  · exact AuditFrame.refl s
  split
  split
  · exact AuditFrame.putChain ..
  · exact (AuditFrame.putChain ..).trans (AuditFrame.addReg ..)

theorem AuditFrame.auditPush (s : State) (p : Nat) (e : AuditEntry) : AuditFrame s (s.auditPush p e) := by
  unfold State.auditPush
  extract_lets t u
  have closed : AuditFrame s t := by
    unfold t
    split
    · exact AuditFrame.refl s
    split
    · split
      · exact AuditFrame.putChain ..
      · exact AuditFrame.refl s
    · exact AuditFrame.refl s
  have opened : AuditFrame s u := closed.trans (AuditFrame.ensureBatch t p)
  split
  · exact opened
  · exact opened.trans (AuditFrame.putChain ..)

theorem AuditFrame.auditCtrl (s : State) (p kind stream seq arg : Nat) (digest aux extra : List Byte) :
    AuditFrame s (s.auditCtrl p kind stream seq arg digest aux extra) := AuditFrame.auditPush ..

theorem AuditFrame.auditClosing (s : State) (p : Nat) (final : Bool) : AuditFrame s (s.auditClosing p final) := by
  unfold State.auditClosing
  split
  · exact AuditFrame.refl s
  · exact AuditFrame.putChain ..

theorem AuditFrame.auditFill (s : State) (p i : Nat) (bytes : List Byte) : AuditFrame s (s.auditFill p i bytes) := by
  unfold State.auditFill
  split
  · exact AuditFrame.refl s
  · exact AuditFrame.putChain ..

/-! ### The comparator (R363 to R372) -/

/-- What the comparator holds, and MIT_LOST_CNT, the count of records that the peer did not send in time (R369). -/
def State.comparator (s : State) : Mitten × Word := (s.mit, s.reg (aMit 0x24))

theorem comparator_of {s t : State} (mit : t.mit = s.mit) (lost : t.reg (aMit 0x24) = s.reg (aMit 0x24)) : t.comparator = s.comparator :=
  Prod.ext mit lost

section
variable (s : State) {a : Nat} (other : aMit 0x24 ≠ a)
include other

theorem setReg_comparator (v : Word) : (s.setReg a v).comparator = s.comparator :=
  comparator_of rfl ((reg_setReg ..).trans (if_neg other))

theorem setField_comparator (hi lo v : Nat) : (s.setField a hi lo v).comparator = s.comparator := setReg_comparator s other _

theorem setFlag_comparator (i : Nat) (v : Bool) : (s.setFlag a i v).comparator = s.comparator :=
  comparator_of rfl (reg_setFlag_ne s a i v _ other)

theorem addField_comparator (hi lo n : Nat) : (s.addField a hi lo n).comparator = s.comparator :=
  comparator_of rfl (reg_addField_ne s a hi lo n _ other)

theorem addReg_comparator (n : Nat) : (s.addReg a n).comparator = s.comparator := addField_comparator s other ..

end

theorem AuditFrame.comparator {a t : State} (h : AuditFrame a t) : t.comparator = a.comparator := by
  obtain ⟨kept, regs⟩ := h
  refine comparator_of (by rw [kept]) (regs _ fun p => ?_)
  unfold aMit aChk dieBase
  omega

/-! ### Completions, interrupts, faults and counts leave the comparator alone -/

theorem aCtl_ne_lost {o : Nat} (h : o < 0x500024) : aMit 0x24 ≠ aCtl o := by
  unfold aMit aCtl
  omega

theorem aCnt_ne_lost (d : Nat) {o : Nat} (h : o < 0x100000) : aMit 0x24 ≠ aCnt d o := by
  unfold aMit aCnt dieBase
  omega

theorem aFlt_ne_lost (d : Nat) {o : Nat} (h : o < 0x100000) : aMit 0x24 ≠ aFlt d o := by
  unfold aMit aFlt dieBase
  omega

theorem aCap_ne_lost (d o : Nat) : aMit 0x24 ≠ aCap d o := by
  unfold aMit aCap dieBase
  omega

theorem aLat_ne_lost (r o : Nat) : aMit 0x24 ≠ aLat r o := by
  unfold aMit aLat dieBase
  omega

theorem msi_comparator (s : State) (p : Port) (v : Nat) : (s.msi p v).comparator = s.comparator := ite_keeps rfl rfl

theorem irqCause_comparator (s : State) (bit : Nat) : (s.irqCause bit).comparator = s.comparator := by
  refine foldl_keeps State.comparator _ (fun t p => ?_) _ s
  have other : aMit 0x24 ≠ aCtl (0x108 + 0x20 * (portCode p - 1)) := aCtl_ne_lost (by have := portCode_le p; omega)
  exact ite_keeps ((msi_comparator ..).trans (setFlag_comparator t other ..)) rfl

theorem cqWrite_comparator (s : State) (p : Port) (c : Completion) : (s.cqWrite p c).comparator = s.comparator := by
  unfold State.cqWrite
  extract_lets q base t x nx y u
  have moved : u.comparator = s.comparator :=
    setField_comparator (s.putPort p y) (aCtl_ne_lost (by have := portLink_le p; omega)) 11 0 nx
  exact (ite_keeps (msi_comparator ..) rfl).trans moved

theorem post_comparator (s : State) (p : Port) (c : Completion) : (s.post p c).comparator = s.comparator := by
  unfold State.post
  extract_lets x t i
  have other : aMit 0x24 ≠ aCtl (0x108 + 0x20 * i) := aCtl_ne_lost (by have := portCode_le p; omega)
  exact ite_keeps (ite_keeps rfl (cqWrite_comparator ..)) (ite_keeps (setFlag_comparator t other ..) rfl)

theorem finishOp_comparator (s : State) (o : Op) (st d r : Nat) : (s.finishOp o st d r).comparator = s.comparator :=
  ite_keeps rfl (post_comparator ..)

theorem abortOps_comparator (s : State) (p st d : Nat) : (s.abortOps p st d).comparator = s.comparator :=
  foldl_keeps State.comparator _ (fun t o => finishOp_comparator t o st d 0) _ s

theorem fault_comparator (s : State) (d : Nat) (f : FaultRec) : (s.fault d f).comparator = s.comparator := by
  unfold State.fault
  extract_lets q x t
  have logged : t.comparator = s.comparator := ite_keeps (addReg_comparator s (aFlt_ne_lost d (by decide)) 1) rfl
  exact (ite_keeps (irqCause_comparator ..) rfl).trans logged

theorem pushSample_comparator (s : State) (d : Nat) (e : FaultEntry) : (s.pushSample d e).comparator = s.comparator :=
  ite_keeps (addReg_comparator s (aCnt_ne_lost d (by decide)) 1) rfl

theorem addCount_comparator (s : State) (d : Nat) (o : Occ) (fuel : Nat) {k : Nat} (n : Nat) (hk : k < 64) :
    (s.addCount d o fuel k n).comparator = s.comparator := by
  induction fuel generalizing s k n with
  | zero => rfl
  | succ fuel ih =>
    unfold State.addCount
    extract_lets key c cfg cnt smp q p v written marked sampled nx
    have mark : marked.comparator = s.comparator := setFlag_comparator written (aCnt_ne_lost d (by omega)) ..
    have sample : sampled.comparator = s.comparator := (ite_keeps (pushSample_comparator ..) rfl).trans mark
    refine ite_keeps rfl ?_
    split
    · next next => exact (ih sampled 1 next.1).trans sample
    · exact sample

theorem count_comparator (s : State) (d ev n : Nat) (o : Occ) : (s.count d ev n o).comparator = s.comparator := by
  refine ite_keeps rfl (List.foldlRecOn (motive := fun (t : State) => t.comparator = s.comparator) _ _ rfl fun t same k hk => ?_)
  exact (ite_keeps (addCount_comparator t d o 64 _ (List.mem_range.1 hk)) rfl).trans same

/-! ### The stop of a partition leaves the comparator alone (R356, R494) -/

theorem closeStream_comparator (s : State) (d st : Nat) : (s.closeStream d st).comparator = s.comparator :=
  (count_comparator ..).trans (addReg_comparator _ (aCap_ne_lost _ _) _)

theorem closePart_comparator (s : State) (p : Nat) : (s.closePart p).comparator = s.comparator := by
  unfold State.closePart
  split
  · rfl
  · refine foldl_keeps State.comparator _ (fun t st => foldl_keeps State.comparator _ (fun t m => ?_) _ t) _ s
    exact foldl_keeps State.comparator _ (fun t d => ite_keeps (closeStream_comparator ..) rfl) _ t

theorem seal_comparator (s : State) (gi : Nat) (r : Record) : (s.seal gi r).comparator = s.comparator := by
  unfold State.seal
  extract_lets g
  split
  split
  · rfl
  · exact (count_comparator ..).trans (addReg_comparator _ (aCap_ne_lost _ _) 1)

theorem disarm_comparator (s : State) (gi : Nat) : (s.disarm gi).comparator = s.comparator := by
  unfold State.disarm
  extract_lets g sealed x marks
  refine ite_keeps rfl ?_
  refine (foldl_keeps State.comparator _ (fun t m => ?_) _ _).trans (foldl_keeps State.comparator _ (fun t r => seal_comparator t gi r) _ s)
  exact ite_keeps rfl (closeStream_comparator ..)

theorem disarmPart_comparator (s : State) (p : Nat) : (s.disarmPart p).comparator = s.comparator :=
  foldl_keeps State.comparator (fun (t : State) (e : Nat × Group) => t.disarm e.1) (fun t e => disarm_comparator t e.1) _ s

theorem deepHeader_comparator (s : State) (p : Nat) (x : Deep) (e : DeepInst) (tag : List Byte) (faulted : Bool) :
    (s.deepHeader p x e tag faulted).comparator = s.comparator := by
  unfold State.deepHeader
  split <;> rfl

theorem deepStop_comparator (s : State) (p : Nat) : (s.deepStop p).comparator = s.comparator := by
  unfold State.deepStop
  split
  · rfl
  split
  · rfl
  · refine foldl_keeps State.comparator _ (fun t e => ?_) _ s
    split
    · exact deepHeader_comparator ..
    · rfl

theorem kind1Drop_comparator (s : State) (p : Nat) : (s.kind1Drop p).comparator = s.comparator := rfl

theorem putPart_comparator (s : State) (p : Nat) (x : Partition) : (s.putPart p x).comparator = s.comparator := rfl

theorem stopPartition_comparator (s : State) (p k : Nat) : (s.stopPartition p k).comparator = s.comparator := by
  unfold State.stopPartition
  extract_lets closed disarmed dropped was stopped flagged filled
  have before : dropped.comparator = s.comparator :=
    calc dropped.comparator = ((disarmed.deepStop p).kind1Drop p).comparator := abortOps_comparator ..
      _ = (disarmed.deepStop p).comparator := kind1Drop_comparator ..
      _ = disarmed.comparator := deepStop_comparator ..
      _ = closed.comparator := disarmPart_comparator ..
      _ = s.comparator := closePart_comparator ..
  have after : filled.comparator = s.comparator :=
    calc filled.comparator = flagged.comparator := foldl_keeps State.comparator _ (fun _ _ => (AuditFrame.auditFill ..).comparator) _ _
      _ = stopped.comparator := foldl_keeps State.comparator _ (fun t r => setFlag_comparator t (aLat_ne_lost r 4) ..) _ _
      _ = dropped.comparator := putPart_comparator ..
      _ = s.comparator := before
  split
  exact ((AuditFrame.auditCtrl ..).trans (AuditFrame.auditClosing ..)).comparator.trans after

/-! ### A divergence leaves the comparator alone (R368, R375) -/

theorem setAlong_comparator (s : State) {e : Nat × Nat} (other : aMit 0x24 ≠ e.1) : (s.setAlong e).comparator = s.comparator :=
  ite_keeps (setReg_comparator s other _) rfl

theorem firstRecord_comparator (s : State) {a : Nat} (v o : Nat) {along : List (Nat × Nat)} (other : aMit 0x24 ≠ a)
    (others : ∀ e ∈ along, aMit 0x24 ≠ e.1) : (s.firstRecord a v o along).comparator = s.comparator := by
  unfold State.firstRecord
  extract_lets e w t
  refine ite_keeps rfl (ite_keeps rfl ?_)
  refine List.foldlRecOn (motive := fun (u : State) => u.comparator = s.comparator) _ _ (setReg_comparator t other w) fun u same e he => ?_
  exact (setAlong_comparator u (others e he)).trans same

theorem mitDiverge_comparator (s : State) (p stream seq cause mask : Nat) (ours peers : List (BitVec 32)) :
    (s.mitDiverge p stream seq cause mask ours peers).comparator = s.comparator := by
  unfold State.mitDiverge
  extract_lets stop counted recorded audited logged
  have count : counted.comparator = s.comparator := addReg_comparator s (by decide) 1
  have record : recorded.comparator = s.comparator := by
    refine (firstRecord_comparator counted _ _ (by decide) fun e he => ?_).trans count
    simp only [List.mem_append, List.mem_cons, List.mem_map, List.not_mem_nil, or_false] at he
    unfold aMit at he ⊢
    obtain ((rfl | rfl) | ⟨i, _, rfl⟩) | ⟨i, _, rfl⟩ := he <;> omega
  have entry : audited.comparator = s.comparator := (AuditFrame.auditCtrl ..).comparator.trans record
  have log : logged.comparator = s.comparator := (irqCause_comparator ..).trans ((fault_comparator ..).trans entry)
  exact (ite_keeps (ite_keeps rfl (stopPartition_comparator ..)) rfl).trans log

end Sys2Proof.Machine

/-! PROOFS. Audit batches that close, comparison records, and the release of a barrier (R345, R357 to R369, R602, R604). -/

namespace Sys2Proof.Machine

/-! ### A batch closes (R357 to R359) -/

theorem exec_batchClose {p : Nat} (hp : p < 16) (s : State) : exec (.batchClose p) s = .next (s.closeReady p) :=
  exec_only rfl (decide_eq_true hp) rfl

theorem closeReady_closable {s : State} {p : Nat} {c : Chain} {b : Batch} (chain : mapGet s.chains p = some c)
    (ready : closable c = some b) : s.closeReady p = s.putChain p (closeBatch p (s.cycle 0) c b) := by
  simp only [State.closeReady, chain, ready]

theorem mapGet_putChain (s : State) (p : Nat) (c : Chain) : mapGet (s.putChain p c).chains p = some c := by
  simp [State.putChain]

/-- The batch that can close becomes the newest closed one, and its head is the chain's. -/
theorem answers_batchClose {s : State} {p : Nat} {c : Chain} {b : Batch} (hp : p < 16) (chain : mapGet s.chains p = some c)
    (ready : closable c = some b) :
    Answers (.batchClose p) s (fun t => ∃ c' x, mapGet t.chains p = some c' ∧ c'.closed.head? = some x ∧ x.no = b.no
      ∧ x.prevHead = c.head ∧ x.head = c'.head ∧ c'.head = sha384 (c.head ++ x.header ++ batchContent b)
      ∧ x.content = some (batchContent b)) := by
  refine ⟨_, exec_batchClose hp s, closeBatch p (s.cycle 0) c b, _, ?_, rfl, rfl, rfl, rfl, rfl, rfl⟩
  rw [closeReady_closable chain ready]
  exact mapGet_putChain ..

/-! ### Comparison records are sent, waited for, received (R366 to R369) -/

theorem svcSend_mit (s : State) (n : Nat) (m : SvcMsg) : (s.svcSend n m).mit = s.mit := ite_keeps rfl rfl

/-- A record that is sent and meets none of the peer's joins those that wait for it. -/
theorem mitSend_unmet {s : State} {r : MittenRec} {rest : List MittenRec} (formed : s.mit.toSend = r :: rest)
    (active : s.mitActive r.part = true) (absent : s.mit.peerRecs.find? (sameEvent r) = none) :
    s.mitSend.mit = { s.mit with toSend := rest, localRecs := s.mit.localRecs ++ [r] } := by
  have on : State.mitActive { s with mit := { s.mit with toSend := rest } } r.part = true := active
  simp [State.mitSend, formed, on, svcSend_mit, absent]

/-- The oldest record formed goes out, and waits where the peer's is not here yet. -/
theorem answers_mittenRecordSend {s : State} {r : MittenRec} {rest : List MittenRec} (formed : s.mit.toSend = r :: rest)
    (active : s.mitActive r.part = true) (absent : s.mit.peerRecs.find? (sameEvent r) = none) :
    Answers .mittenRecordSend s (fun t => t.mit.toSend = rest ∧ t.mit.localRecs = s.mit.localRecs ++ [r]) := by
  refine ⟨_, rfl, ?_⟩
  dsimp only
  rw [mitSend_unmet formed active absent]
  exact ⟨rfl, rfl⟩

/-- The state in which the wait for the peer's record of `r` is over. -/
def State.givenUp (s : State) (r : MittenRec) : State :=
  { s with mit := { s.mit with localRecs := s.mit.localRecs.erase r, lost := s.mit.lost ++ [(r.part, r.stream, r.seq)] } }

/-- A record of an active pair whose wait is over is given up and counted, and the loss is a divergence of cause 3. -/
theorem mitExpiry_overdue {s : State} {r : MittenRec}
    (due : s.mit.localRecs.find? (fun r => decide (r.cycle + s.mitWait ≤ s.now)) = some r) (active : s.mitActive r.part = true) :
    s.mitExpiry = ((s.givenUp r).addReg (aMit 0x24) 1).mitDiverge r.part r.stream r.seq 3 0xFFFF r.sigs [] := by
  have on : (s.givenUp r).mitActive r.part = true := active
  unfold State.givenUp at on
  simp only [State.mitExpiry, due, on, Bool.not_true, Bool.false_eq_true, if_false]
  rfl

/-- The divergence keeps the loss and its count. -/
theorem answers_mittenWaitExpiry {s : State} {r : MittenRec}
    (due : s.mit.localRecs.find? (fun r => decide (r.cycle + s.mitWait ≤ s.now)) = some r) (active : s.mitActive r.part = true) :
    Answers .mittenWaitExpiry s (fun t => (r.part, r.stream, r.seq) ∈ t.mit.lost
      ∧ (t.reg (aMit 0x24)).toNat = min (2 ^ 32 - 1) ((s.reg (aMit 0x24)).toNat + 1)) := by
  refine ⟨_, rfl, ?_⟩
  have kept := mitDiverge_comparator ((s.givenUp r).addReg (aMit 0x24) 1) r.part r.stream r.seq 3 0xFFFF r.sigs []
  rw [← mitExpiry_overdue due active] at kept
  have mit : s.mitExpiry.mit = (s.givenUp r).mit := congrArg Prod.fst kept
  have count : s.mitExpiry.reg (aMit 0x24) = ((s.givenUp r).addReg (aMit 0x24) 1).reg (aMit 0x24) := congrArg Prod.snd kept
  dsimp only
  rw [mit, count]
  exact ⟨List.mem_append_right _ (List.mem_singleton.2 rfl), reg_addReg_same ..⟩

theorem exec_digestExchange {p : Nat} (hp : p < 16) (dg : List Byte) (tp : Nat) (s : State) :
    exec (.digestExchange p dg tp) s = .next (s.digestExchange p dg tp) :=
  exec_only rfl (decide_eq_true hp) rfl

/-- A suspended pair loses its records, not its pairing nor what the peer has told (R365). -/
theorem mitRefresh_pairing (s : State) (p : Nat) : (s.mitRefresh p).mit.pairs = s.mit.pairs ∧ (s.mitRefresh p).mit.peer = s.mit.peer :=
  ⟨ite_keeps (g := fun t => t.mit.pairs) rfl rfl, ite_keeps (g := fun t => t.mit.peer) rfl rfl⟩

/-- The digest of a paired partition's peer is held. -/
theorem answers_digestExchange {s : State} {p x : Nat} (hp : p < 16) (dg : List Byte) (tp : Nat) (paired : mapGet s.mit.pairs p = some x) :
    Answers (.digestExchange p dg tp) s (fun t => mapGet t.mit.peer p = some (bytesAt dg 0 48, tp) ∧ t.mit.pairs = s.mit.pairs) := by
  refine ⟨_, exec_digestExchange hp dg tp s, ?_⟩
  unfold State.digestExchange
  rw [paired]
  dsimp only
  obtain ⟨pairs, peer⟩ := mitRefresh_pairing { s with mit := { s.mit with peer := mapSet s.mit.peer p (bytesAt dg 0 48, tp) } } p
  rw [pairs, peer]
  exact ⟨by simp, rfl⟩

/-! ### A MITTEN message (R364, R368, R602) -/

/-- The state with message `m` taken from the inbox of link `n`. -/
def State.unboxed (s : State) (n : Nat) (m : SvcMsg) : State := s.putWlink n { s.wlink n with inbox := (s.wlink n).inbox.erase m }

theorem svcTake_found {s : State} {n t : Nat} {m : SvcMsg} (found : (s.wlink n).inbox.find? (fun x => decide (x.mtype = t)) = some m) :
    s.svcTake n t = some (m, s.unboxed n m) := by
  unfold State.svcTake
  extract_lets k
  rw [show k.inbox.find? _ = some m from found]
  rfl

theorem inbox_unboxed (s : State) (n : Nat) (m : SvcMsg) : ((s.unboxed n m).wlink n).inbox = (s.wlink n).inbox.erase m := by
  simp [State.unboxed, State.wlink, State.putWlink]

/-- MIT_CFG of a package without a pair. -/
theorem reg_mitDissolve (s : State) : s.mitDissolve.reg (aMit 0) = 0 := (reg_setReg s (aMit 0) 0 (aMit 0)).trans (if_pos rfl)

theorem exec_mitten {d i : Nat} (hd : d < 2) (hi : i < 16) (s : State) : exec (.mitten d i) s = .next (s.mittenMsg d i) :=
  exec_only rfl (and_named hd hi) rfl

section
variable {s : State} {d i : Nat} {m : SvcMsg}
  (found : (s.wlink (linkNo d i)).inbox.find? (fun x => decide (x.mtype = 3)) = some m) (enabled : s.flag (aMit 0) 31 = true)
  (link : s.field (aMit 0) 16 12 = linkNo d i)
include found enabled link

/-- A message on the pair's link dissolves the pair, or is a record of the partition that the pair names. -/
theorem mittenMsg_taken : s.mittenMsg d i =
    if m.body = dissolution then (s.unboxed (linkNo d i) m).mitDissolve
    else match s.mit.pairs.find? (fun e => decide (e.2 = fieldLE m.body 40 1)) with
      | some e => (s.unboxed (linkNo d i) m).mitTake e.1 m.body
      | none => s.unboxed (linkNo d i) m := by
  unfold State.mittenMsg
  extract_lets n
  rw [svcTake_found found]
  dsimp only
  have on : (s.unboxed n m).flag (aMit 0) 31 = true := enabled
  have own : (s.unboxed n m).field (aMit 0) 16 12 = n := link
  rw [on, own, if_neg (by simp)]
  rfl

/-- A dissolution notice ends the pair. -/
theorem answers_mitten_dissolution (hd : d < 2) (hi : i < 16) (notice : m.body = dissolution) :
    Answers (.mitten d i) s (fun t => t.mit = ⟨[], [], [], [], [], [], []⟩ ∧ t.reg (aMit 0) = 0
      ∧ (t.wlink (linkNo d i)).inbox = (s.wlink (linkNo d i)).inbox.erase m) := by
  refine ⟨_, exec_mitten hd hi s, ?_⟩
  rw [mittenMsg_taken found enabled link, if_pos notice]
  exact ⟨rfl, reg_mitDissolve .., inbox_unboxed ..⟩

/-- A record that meets no local one waits for it. -/
theorem answers_mitten_record {p q : Nat} (hd : d < 2) (hi : i < 16) (body : m.body ≠ dissolution)
    (pair : s.mit.pairs.find? (fun e => decide (e.2 = fieldLE m.body 40 1)) = some (p, q)) (active : s.mitActive p = true)
    (awaited : (p, (bodyRec p s.now m.body).stream, (bodyRec p s.now m.body).seq) ∉ s.mit.lost)
    (absent : s.mit.localRecs.find? (sameEvent (bodyRec p s.now m.body)) = none) :
    Answers (.mitten d i) s (fun t => t.mit.peerRecs = s.mit.peerRecs ++ [bodyRec p s.now m.body]
      ∧ t.mit.localRecs = s.mit.localRecs) := by
  refine ⟨_, exec_mitten hd hi s, ?_⟩
  rw [mittenMsg_taken found enabled link, if_neg body, pair]
  dsimp only
  unfold State.mitTake
  extract_lets r key
  have on : (s.unboxed (linkNo d i) m).mitActive p = true := active
  have late : key ∉ (s.unboxed (linkNo d i) m).mit.lost := awaited
  have none : (s.unboxed (linkNo d i) m).mit.localRecs.find? (sameEvent r) = none := absent
  rw [on, if_neg (by decide), if_neg late, none]
  exact ⟨rfl, rfl⟩

end

/-! ### A barrier releases (R345, R604) -/

/-- The barrier that waits, and the sequencers. -/
def State.barrierSeq (s : State) : Option Barrier × Sequencer := (s.barrier, s.seq)

theorem putWlane_barrierSeq (s : State) (n x : Nat) (v : WylLane) : (s.putWlane n x v).barrierSeq = s.barrierSeq := rfl

theorem putWlink_barrierSeq (s : State) (n : Nat) (v : WylLink) : (s.putWlink n v).barrierSeq = s.barrierSeq := rfl

theorem wylFresh_barrierSeq (s : State) (n : Nat) : (s.wylFresh n).barrierSeq = s.barrierSeq := by
  unfold State.wylFresh
  exact foldl_keeps State.barrierSeq _ (fun _ _ => putWlane_barrierSeq ..) _ s

theorem wylBarrier_barrierSeq (s : State) : s.wylBarrier.barrierSeq = s.barrierSeq := by
  unfold State.wylBarrier
  refine foldl_keeps State.barrierSeq _ (fun t n => ?_) _ s
  extract_lets fresh empty
  calc (empty.putWlink n _).barrierSeq = empty.barrierSeq := putWlink_barrierSeq ..
    _ = fresh.barrierSeq := foldl_keeps State.barrierSeq _ (fun _ _ => putWlane_barrierSeq ..) _ fresh
    _ = t.barrierSeq := wylFresh_barrierSeq t n

theorem AuditFrame.barrierSeq {a t : State} (h : AuditFrame a t) : t.barrierSeq = a.barrierSeq := by
  rw [h.1]
  rfl

theorem finishOp_barrierSeq (s : State) (o : Op) (st d r : Nat) : (s.finishOp o st d r).barrierSeq = s.barrierSeq := by
  rw [finishOp_frame s o st d r]
  rfl

/-- At the release instant the counts of every island take the barrier's value, and no barrier waits. -/
theorem barrierGo_barrierSeq {s : State} {b : Barrier} (waits : s.barrier = some b) (due : b.at_ ≤ (s.tb b.tb).t / 2 ^ 32) :
    s.barrierGo.barrierSeq = (none, { s.seq with count0 := b.v, count1 := b.v }) := by
  unfold State.barrierGo
  split
  · next absent => exact absurd (waits.symm.trans absent) nofun
  next x found =>
  obtain rfl : b = x := Option.some.inj (waits.symm.trans found)
  rw [if_neg (Nat.not_lt.2 due)]
  extract_lets set released logged
  have counts : released.barrierSeq = (none, { s.seq with count0 := b.v, count1 := b.v }) :=
    wylBarrier_barrierSeq _
  have kept : logged.barrierSeq = (none, { s.seq with count0 := b.v, count1 := b.v }) := by
    refine Eq.trans (foldl_keeps State.barrierSeq _ (fun t e => ?_) _ released) counts
    exact (AuditFrame.auditPush ..).barrierSeq
  split
  · exact (finishOp_barrierSeq ..).trans kept
  · exact kept

theorem answers_barrierRelease {s : State} {b : Barrier} (waits : s.barrier = some b) (due : b.at_ ≤ (s.tb b.tb).t / 2 ^ 32) :
    Answers .barrierRelease s (fun t => t.barrier = none ∧ t.seq.count0 = b.v ∧ t.seq.count1 = b.v) := by
  have after := barrierGo_barrierSeq waits due
  have seq : s.barrierGo.seq = { s.seq with count0 := b.v, count1 := b.v } := congrArg Prod.snd after
  exact ⟨_, rfl, congrArg Prod.fst after, congrArg Sequencer.count0 seq, congrArg Sequencer.count1 seq⟩

/-- Settles O60: what each of the events of the audit chain, of the comparator and of a barrier writes. -/
theorem auditAndMittenComplete : Obligations.AuditAndMittenComplete :=
  ⟨fun _ _ hp => ⟨fun _ _ => answers_batchClose hp, fun _ _ => answers_mittenRecordSend, fun _ => answers_mittenWaitExpiry,
      fun dg tp _ => answers_digestExchange hp dg tp, fun _ => answers_barrierRelease⟩,
    fun _ _ _ _ hd hi found enabled link => ⟨answers_mitten_dissolution found enabled link hd hi,
      fun _ _ body pair active awaited absent => answers_mitten_record found enabled link hd hi body pair active awaited absent⟩⟩

end Sys2Proof.Machine

/-! PROOFS. The commands that end at once: SET_WAKE_TOL, the port buffers, AUDIT_FETCH and the Mitten commands (R362 to R364, R634,
R666). -/

namespace Sys2Proof.Machine

/-! ### Commands that are taken and pass the checks (R615 to R618) -/

section
variable {c : Instr} {s : State} {h : CmdHdr} {op : Nat} {part : Option Nat} (info : cmdInfo c = some (h, op, part))
  (admitted : s.admits c = true)
include info admitted

/-- An admitted command is performed on the state in which it has left its port. -/
theorem take_admitted (f : State → Bool → CmdHdr → Nat → State) :
    s.take c (fun t told => t.vet c (f t told)) = f (s.dropHead h.port) (s.port h.port).queued h op := by
  obtain ⟨go, passed, _⟩ := (admits_iff info).1 admitted
  rw [take_go info _ go, vet_passed info _ passed]

/-- An admitted command whose effect is a completion with OK ends. -/
theorem ends_taken {f : State → Bool → CmdHdr → Nat → State} {t : State} {r : Nat} {P : State → Prop}
    (run : exec c s = .next (s.take c (fun t told => t.vet c (f t told))))
    (effect : f (s.dropHead h.port) (s.port h.port).queued h op = t.complete h op stOK 0 r) (post : P t) : Ends c s r P :=
  ⟨h, op, part, t, info, run.trans (congrArg _ ((take_admitted info admitted f).trans effect)), post⟩

/-- An admitted class I command that succeeds ends with OK and the result of its effect. -/
theorem ends_instant {f : State → CmdRes} {t : State} {r : Nat} {P : State → Prop} (run : exec c s = .next (s.instant c f))
    (effect : f (s.dropHead h.port) = (t, stOK, 0, r)) (post : P t) : Ends c s r P :=
  ⟨h, op, part, t, info, run.trans (congrArg _ (instant_admitted info admitted effect)), post⟩

end

theorem reg_dropHead (s : State) (p : Port) (b : Nat) : (s.dropHead p).reg b = s.reg b := rfl

theorem portPkg_dropHead (s : State) (p q : Port) : (s.dropHead p).portPkg q = s.portPkg q := flag_putPort ..

theorem pkgState_dropHead (s : State) (p : Port) : (s.dropHead p).pkgState = s.pkgState := field_putPort ..

theorem part_dropHead (s : State) (p : Port) (q : Nat) : (s.dropHead p).part q = s.part q := (PortsRegs.dropHead s p).part q

theorem buffer_dropHead (s : State) (p q : Port) : ((s.dropHead p).port q).buffer = (s.port q).buffer := by
  rw [State.dropHead, port_putPort]
  split
  · next e => rw [e]
  · rfl

theorem unread_dropHead (s : State) (p q : Port) : ((s.dropHead p).port q).unread = (s.port q).unread := by
  rw [State.dropHead, port_putPort]
  split
  · next e => rw [e]
  · rfl

/-- A command other than BIND that passes the checks names a partition of its port (R294, R618). -/
theorem gate_owned {s : State} {h : CmdHdr} {op p : Nat} (passed : s.gate h op (some p) = none) (other : op ≠ 0x10) :
    p < 16 ∧ (s.part p).owner = some h.port := by
  revert passed
  unfold State.gate
  split
  · exact nofun
  split
  · exact nofun
  dsimp only
  split
  · exact nofun
  next named =>
  split
  · exact nofun
  next owned => exact fun _ => ⟨Nat.not_le.1 named, not_not.1 fun no => owned ⟨no, fun bind => other bind.1⟩⟩

/-! ### SET_WAKE_TOL (R666, R668) -/

/-- A wake tolerance that no present power state exceeds takes effect at once. -/
theorem wakeTol_met {s : State} {h : CmdHdr} {part tol : Nat} (named : part < 16 ∨ (part = 0xFF ∧ s.portPkg h.port = true))
    (awake : s.pkgState = 0) (c : Instr) (told : Bool) {a : Nat}
    (place : a = if part = 0xFF then aPwr 0 8 else aPwr 0 (0x100 + 4 * part))
    (met : (s.setReg a (BitVec.ofNat 32 tol)).tooDeep = false) :
    s.wakeTol c h part tol told = (s.setReg a (BitVec.ofNat 32 tol)).complete h 0x52 stOK 0 0 := by
  have known : ¬(part ≠ 0xFF ∧ 16 ≤ part) := by omega
  have allowed : ¬(part = 0xFF ∧ (!s.portPkg h.port) = true) := by
    rintro ⟨all, other⟩
    rcases named with small | ⟨_, package⟩
    · omega
    · simp [package] at other
  have apart : aPwr 0 0 ≠ a := by
    rw [place]
    unfold aPwr dieBase
    split <;> omega
  have still : (s.setReg a (BitVec.ofNat 32 tol)).pkgState = 0 := by
    rw [State.pkgState, field_setReg, if_neg apart]
    exact awake
  unfold State.wakeTol
  rw [if_neg known, if_neg allowed, ← place]
  extract_lets t
  rw [if_neg (by simp [t, met, still])]

theorem ends_setWakeTol {s : State} {h : CmdHdr} {part tol a : Nat} (admitted : s.admits (.setWakeTol h part tol) = true)
    (named : part < 16 ∨ (part = 0xFF ∧ s.portPkg h.port = true))
    (place : a = if part = 0xFF then aPwr 0 8 else aPwr 0 (0x100 + 4 * part)) (awake : s.pkgState = 0)
    (met : ((s.dropHead h.port).setReg a (BitVec.ofNat 32 tol)).tooDeep = false) :
    Ends (.setWakeTol h part tol) s 0 (fun u => u.reg a = BitVec.ofNat 32 tol ∧ ∀ b, b ≠ a → u.reg b = s.reg b) := by
  have effect : ∀ told, (s.dropHead h.port).wakeTol (.setWakeTol h part tol) h part tol told
      = ((s.dropHead h.port).setReg a (BitVec.ofNat 32 tol)).complete h 0x52 stOK 0 0 :=
    fun told => wakeTol_met (by rwa [portPkg_dropHead]) (by rwa [pkgState_dropHead]) _ told place met
  refine ends_taken rfl admitted rfl (effect _) ⟨?_, fun b other => ?_⟩
  · rw [reg_setReg, if_pos rfl]
  · rw [reg_setReg, if_neg other, reg_dropHead]

/-! ### Port buffers (R634) -/

/-- A port that passes the check of the buffer commands is a short-form port. -/
theorem bufCheck_short {h : CmdHdr} {n : Nat} (passed : bufCheck h n = none) : portPcie h.port = false := by
  revert passed
  unfold bufCheck
  split
  · exact nofun
  · next short => exact fun _ => Bool.eq_false_iff.2 short

theorem length_bytesAt (bs : List Byte) (o n : Nat) : (bytesAt bs o n).length = n := by
  simp [bytesAt]

/-- On a short-form port the host buffer is the port's. -/
theorem hostBytes_short {s : State} {h : CmdHdr} (short : portPcie h.port = false) (n : Nat) :
    s.hostBytes h n = memRead (s.port h.port).buffer h.hostAddr n := by
  simp [State.hostBytes, short]

theorem buffer_hostWrite {s : State} {h : CmdHdr} (short : portPcie h.port = false) (bs : List Byte) :
    ((s.hostWrite h bs).port h.port).buffer = memWrite (s.port h.port).buffer h.hostAddr bs := by
  simp [State.hostWrite, short]

/-- BUF_WRITE stores its bytes at their place in the port buffer, and no other byte. -/
theorem ends_bufWrite {s : State} {h : CmdHdr} {data : List Byte} (admitted : s.admits (.bufWrite h data) = true)
    (passed : bufCheck h (bufLimit h.port) = none) :
    Ends (.bufWrite h data) s 0 (fun u => u.hostBytes h h.hostLen = bytesAt data 0 h.hostLen
      ∧ ∀ a, (a < h.hostAddr ∨ h.hostAddr + h.hostLen ≤ a) →
        memByte (u.port h.port).buffer a = memByte (s.port h.port).buffer a) := by
  have length := length_bytesAt data 0 h.hostLen
  have effect : (s.dropHead h.port).bufWrite h data
      = ((s.dropHead h.port).hostWrite h (bytesAt data 0 h.hostLen)).complete h 0xF0 stOK 0 0 := by
    rw [State.bufWrite, passed]
  refine ends_taken rfl admitted rfl effect ⟨?_, fun a outside => ?_⟩
  · have wrote := hostBytes_hostWrite (s.dropHead h.port) h (bytesAt data 0 h.hostLen)
    rwa [length] at wrote
  · rw [buffer_hostWrite (bufCheck_short passed), memByte_memWrite, if_neg (by omega), buffer_dropHead]

theorem buffer_post {s : State} {p : Port} (short : portPcie p = false) (c : Completion) :
    ((s.post p c).port p).buffer = (s.port p).buffer := by
  unfold State.post
  rw [if_neg (by simp [short])]
  extract_lets x t i
  have kept : (t.port p).buffer = (s.port p).buffer := by simp [t, x]
  refine Eq.trans (ite_keeps (g := fun u => (u.port p).buffer) ?_ rfl) kept
  rfl

/-- BUF_READ leaves the buffer as it is, and its completion carries the bytes. -/
theorem answers_bufRead {s : State} {h : CmdHdr} (admitted : s.admits (.bufRead h) = true) (passed : bufCheck h 224 = none) :
    Answers (.bufRead h) s (fun t => (t.port h.port).buffer = (s.port h.port).buffer
      ∧ (t.port h.port).unread = (s.port h.port).unread
        ++ [⟨h.tag, 0xF1, BitVec.ofNat 8 stOK, 0, 0, h.irq, s.hostBytes h h.hostLen⟩]) := by
  have short := bufCheck_short passed
  refine ⟨_, rfl, ?_⟩
  rw [take_admitted rfl admitted]
  dsimp only
  rw [State.bufRead, passed]
  dsimp only
  rw [buffer_post short, post_unread _ _ _ short, hostBytes_short short, buffer_dropHead, unread_dropHead]
  exact ⟨rfl, rfl⟩

/-! ### AUDIT_FETCH (R362) -/

/-- The reply of AUDIT_FETCH for a batch whose content `ct` is intact. -/
def fetchBytes (b : ClosedBatch) (ct : List Byte) : List Byte :=
  b.header ++ b.prevHead ++ b.head ++ leBytes 4 0 ++ leBytes 4 ct.length ++ zeroBytes 24 ++ ct

/-- The chain with batch `n` marked as fetched. -/
def Chain.fetch (c : Chain) (n : Nat) : Chain :=
  { c with closed := c.closed.map (fun x => if x.no = n then { x with fetched := true } else x) }

theorem fetched_of_mem_fetch {c : Chain} {n : Nat} {x : ClosedBatch} (mem : x ∈ (c.fetch n).closed) (no : x.no = n) :
    x.fetched = true := by
  obtain ⟨y, _, rfl⟩ := List.mem_map.1 mem
  by_cases e : y.no = n
  · rw [if_pos e]
  · rw [if_neg e] at no
    exact absurd no e

/-- A fetch of an intact batch, with room for it, writes the reply and marks the batch. -/
theorem auditFetch_intact {s : State} {h : CmdHdr} {p n : Nat} {c : Chain} {b : ClosedBatch} {ct : List Byte} (hp : p < 16)
    (owner : (s.part p).owner = some h.port) (chain : mapGet s.chains p = some c) (numbered : n ≠ latestBatch)
    (found : c.closed.find? (fun x => decide (x.no = n)) = some b) (content : b.content = some ct) (parity : b.parity = false)
    (sound : mapGetD s.flt.auditBad (2 ^ 20 * p + n) false = false) (room : hostShort h (160 + ct.length) = false) :
    s.auditFetch h p false false n = ((s.hostWrite h (fetchBytes b ct)).putChain p (c.fetch n), stOK, 0, ct.length) := by
  have no : b.no = n := by simpa using List.find?_some found
  unfold State.auditFetch
  rw [if_neg (Nat.not_le.2 hp), if_neg (not_not.2 owner)]
  simp only [Bool.false_and, Bool.false_eq_true, if_false, chain, numbered, found, content, Option.isNone_some, Option.getD_some, room,
    no, parity, sound, Bool.or_self, Bool.and_false]
  rfl

theorem ends_auditFetch {s : State} {h : CmdHdr} {p n : Nat} {c : Chain} {b : ClosedBatch} {ct : List Byte}
    (admitted : s.admits (.auditFetch h p false false n) = true) (chain : mapGet s.chains p = some c) (numbered : n ≠ latestBatch)
    (found : c.closed.find? (fun x => decide (x.no = n)) = some b) (content : b.content = some ct) (parity : b.parity = false)
    (sound : mapGetD s.flt.auditBad (2 ^ 20 * p + n) false = false) (room : hostShort h (160 + ct.length) = false) :
    Ends (.auditFetch h p false false n) s ct.length (fun u => u.hostBytes h (fetchBytes b ct).length = fetchBytes b ct
      ∧ ∃ d, mapGet u.chains p = some d ∧ d.head = c.head ∧ ∀ x ∈ d.closed, x.no = n → x.fetched = true) := by
  obtain ⟨_, passed, _⟩ := (admits_iff rfl).1 admitted
  obtain ⟨hp, owner⟩ := gate_owned passed (by decide)
  refine ends_instant rfl admitted rfl (auditFetch_intact hp owner chain numbered found content parity sound room) ⟨?_, ?_⟩
  · exact hostBytes_hostWrite ..
  · exact ⟨_, mapGet_putChain .., rfl, fun x => fetched_of_mem_fetch⟩

/-! ### MITTEN_PAIR (R363, R364) -/

theorem mitCheck_fits {s : State} {h : CmdHdr} {link peer : Nat} {pairs : List (Nat × Nat)}
    (passed : s.mitCheck h link peer pairs = none) : link < 32 ∧ peer < 4096 := by
  revert passed
  unfold State.mitCheck
  split
  · exact nofun
  · next fits => exact fun _ => ⟨Nat.not_le.1 fun big => fits (.inl big), Nat.not_le.1 fun big => fits (.inr (.inl big))⟩

theorem mitAnnounce_pairs (s : State) (p : Nat) : (s.mitAnnounce p).mit.pairs = s.mit.pairs := by
  unfold State.mitAnnounce
  split <;> rfl

/-- The pairs that a list of local and peer partitions names. -/
def pairMap (pairs : List (Nat × Nat)) : AMap Nat := pairs.foldl (fun m e => mapSet m e.1 e.2) []

/-- MITTEN_PAIR writes MIT_CFG on a state that holds the new pairs. -/
theorem mitPair_writes (s : State) (stop : Bool) (link peer : Nat) (pairs : List (Nat × Nat)) :
    ∃ t : State, t.mit.pairs = pairMap pairs ∧ s.mitPair stop link peer pairs
      = (((t.setFlag (aMit 0) 31 true).setFlag (aMit 0) 30 stop).setField (aMit 0) 16 12 link).setField (aMit 0) 11 0 peer :=
  ⟨_, foldl_keeps (fun t => t.mit.pairs) _ (fun t (e : Nat × Nat) => mitAnnounce_pairs t e.1) _ _, rfl⟩

/-- After an accepted MITTEN_PAIR the package is paired as the command says. -/
theorem ends_mittenPair {s : State} {h : CmdHdr} {stop : Bool} {link peer : Nat} {pairs : List (Nat × Nat)}
    (admitted : s.admits (.mittenPair h stop link peer pairs) = true) (passed : (s.dropHead h.port).mitCheck h link peer pairs = none) :
    Ends (.mittenPair h stop link peer pairs) s 0 (fun u => u.flag (aMit 0) 31 = true ∧ u.flag (aMit 0) 30 = stop
      ∧ u.field (aMit 0) 16 12 = link ∧ u.field (aMit 0) 11 0 = peer ∧ u.mit.pairs = pairMap pairs) := by
  have effect : (s.dropHead h.port).mittenPair h stop link peer pairs
      = ((s.dropHead h.port).mitPair stop link peer pairs, stOK, 0, 0) := by
    rw [State.mittenPair, passed]
  obtain ⟨small, below⟩ := mitCheck_fits passed
  obtain ⟨t, held, written⟩ := mitPair_writes (s.dropHead h.port) stop link peer pairs
  refine ends_instant rfl admitted rfl effect ?_
  rw [written]
  refine ⟨by simp, by simp, ?_, ?_, held⟩
  · rw [field_setField_apart _ _ _ _ _ _ _ _ (by decide), field_setField_same _ _ _ _ _ (by decide)]
    exact Nat.mod_eq_of_lt small
  · rw [field_setField_same _ _ _ _ _ (by decide)]
    exact Nat.mod_eq_of_lt below

/-- A dissolution by the owner of the pairs tells the peer, and leaves no pair. -/
theorem mittenDissolve_owned {s : State} {h : CmdHdr} (paired : s.flag (aMit 0) 31 = true)
    (owned : ∀ e ∈ s.mit.pairs, (s.part e.1).owner = some h.port) :
    ∃ t : State, s.mittenDissolve h = (t.mitDissolve, stOK, 0, 0) := by
  have own : s.mit.pairs.any (fun e => decide ((s.part e.1).owner ≠ some h.port)) = false :=
    List.any_eq_false.2 fun e he => by simp [owned e he]
  rw [State.mittenDissolve, paired, own]
  exact ⟨_, rfl⟩

theorem ends_mittenPairDissolve {s : State} {h : CmdHdr} (admitted : s.admits (.mittenPairDissolve h) = true)
    (paired : s.flag (aMit 0) 31 = true) (owned : ∀ e ∈ s.mit.pairs, (s.part e.1).owner = some h.port) :
    Ends (.mittenPairDissolve h) s 0 (fun u => u.reg (aMit 0) = 0 ∧ u.mit = ⟨[], [], [], [], [], [], []⟩) := by
  obtain ⟨t, effect⟩ := mittenDissolve_owned (s := s.dropHead h.port) paired fun e he => (part_dropHead ..).symm ▸ owned e he
  exact ends_instant rfl admitted rfl effect ⟨reg_mitDissolve t, rfl⟩

/-- Settles O42: each command is taken, passes its checks, and ends with what it wrote. -/
theorem instantCommandsComplete : Obligations.InstantCommandsComplete :=
  fun _ _ => ⟨fun _ _ admitted named awake met => ends_setWakeTol admitted named rfl awake met, fun _ => ends_bufWrite, answers_bufRead,
    fun _ _ _ _ _ admitted chain numbered found content parity sound room =>
      ends_auditFetch admitted chain numbered found content parity sound room,
    fun _ _ _ _ => ends_mittenPair, ends_mittenPairDissolve⟩

end Sys2Proof.Machine

/-! PROOFS. The deep path: a pass starts, a section completes, its successor is swapped in or prefetched, and the elastic clock of a die
steps (R383, R385, R389, R390, R399). -/

namespace Sys2Proof.Machine

theorem mapGet_mapSet_self {α : Type} (m : AMap α) (k : Nat) (v : α) : mapGet (mapSet m k v) k = some v :=
  (mapGet_mapSet m k v k).trans (if_pos rfl)

/-! ### The events of partition `p`, and what they share -/

theorem exec_passStart {p : Nat} (hp : p < 16) (s : State) : exec (.passStart p) s = .next (s.passStart p) :=
  exec_only rfl (decide_eq_true hp) rfl

theorem exec_sectionComplete {p : Nat} (hp : p < 16) (s : State) : exec (.sectionComplete p) s = .next (s.sectionComplete p) :=
  exec_only rfl (decide_eq_true hp) rfl

theorem exec_swapComplete {p : Nat} (hp : p < 16) (s : State) : exec (.swapComplete p) s = .next (s.swapComplete p) :=
  exec_only rfl (decide_eq_true hp) rfl

theorem exec_prefetchComplete {p : Nat} (hp : p < 16) (s : State) : exec (.prefetchComplete p) s = .next (s.prefetchComplete p) :=
  exec_only rfl (decide_eq_true hp) rfl

/-- How many records a pass that starts now takes: as many as wait, have room in the pass and have a free slot in the result ring. -/
def State.passCount (s : State) (p : Nat) (im : Loaded) (x : Deep) : Nat :=
  min (min ((s.part p).passRecords x.queue).length x.par.pmax) (s.ringFree p im x)

/-- The end of a pass leaves the partition at section 0, without pass or swap. -/
theorem deep_passEnd (s : State) (p : Nat) (x : Deep) :
    mapGet (s.passEnd p x).deep p = some { x with pass := none, swap := false, section_ := 0, pfReady := false } :=
  mapGet_mapSet_self ..

/-- Instances that complete move the write count of the ring, and no section (R381). -/
theorem section_deepComplete (s : State) (p : Nat) (x : Deep) (ps : DeepPass) (im : Loaded) :
    (s.deepComplete p x ps im).2.section_ = x.section_ :=
  List.foldlRecOn (motive := fun a : State × Deep => a.2.section_ = x.section_) ps.insts _ rfl fun _ same _ _ => same

section
variable {s : State} {p : Nat} {x : Deep} {im : Loaded} (deep : mapGet s.deep p = some x) (image : (s.part p).image = some im)
include deep image

/-! ### Passes (R383) -/

/-- Between passes, with a record to take and no region asleep, a running deep partition takes its records into a pass. -/
theorem deep_passStart (kind : im.kind = 1) (runs : (s.part p).state = .running) (idle : x.pass = none) (still : x.swap = false)
    (first : x.section_ = 0) (awake : ∀ r ∈ partRegions (s.part p), s.regionPower r = 0) (takes : s.passCount p im x ≠ 0) :
    ∃ y, mapGet (s.passStart p).deep p = some y ∧ y.queue = x.queue.drop (s.passCount p im x) ∧ y.passN = s.passCount p im x
      ∧ y.pass.isSome := by
  have noneAsleep : (partRegions (s.part p)).any (fun r => decide (s.regionPower r ≠ 0)) = false :=
    List.any_eq_false.2 fun r hr => by simp [awake r hr]
  unfold State.passStart
  extract_lets pt
  rw [deep, image]
  dsimp only
  rw [if_neg (by
    rintro (h | h | h | h | h | h | h)
    · exact h kind
    · exact h runs
    · simp [idle] at h
    · simp [still] at h
    · exact h first
    · exact takes h
    · exact Bool.false_ne_true (noneAsleep.symm.trans h))]
  exact ⟨_, mapGet_mapSet_self .., rfl, rfl, rfl⟩

/-! ### Sections (R385) -/

/-- Once every operation of its section has completed, the pass of an image with one section ends, and that of another swaps. -/
theorem sectionComplete_done {ps : DeepPass} (pass : x.pass = some ps) (still : x.swap = false) (live : partLive (s.part p) = true)
    (done : s.sectionDone ps = true) : ∃ (t : State) (y : Deep), y.section_ = x.section_ ∧ s.sectionComplete p
      = if im.nsect ≤ 1 then t.passEnd p y else { t with deep := mapSet t.deep p { y with swap := true } } := by
  unfold State.sectionComplete
  rw [deep, image]
  dsimp only
  rw [pass]
  dsimp only
  rw [if_neg (by simp [still, live, done])]
  by_cases last : im.succ x.section_ = 0
  · simp only [last, decide_true, if_true]
    refine ⟨_, _, ?_, rfl⟩
    exact section_deepComplete s p x ps im
  · simp only [last, decide_false, Bool.false_eq_true, if_false]
    exact ⟨_, _, rfl, rfl⟩

theorem deep_sectionComplete {ps : DeepPass} (pass : x.pass = some ps) (still : x.swap = false)
    (live : partLive (s.part p) = true) (done : s.sectionDone ps = true) :
    (im.nsect ≤ 1 → ∃ y, mapGet (s.sectionComplete p).deep p = some y ∧ y.pass = none ∧ y.section_ = 0)
    ∧ (1 < im.nsect → ∃ y, mapGet (s.sectionComplete p).deep p = some y ∧ y.swap = true ∧ y.section_ = x.section_) := by
  obtain ⟨t, y, same, effect⟩ := sectionComplete_done deep image pass still live done
  refine ⟨fun single => ?_, fun several => ?_⟩
  · rw [effect, if_pos single]
    exact ⟨_, deep_passEnd .., rfl, rfl⟩
  · rw [effect, if_neg (Nat.not_le.2 several)]
    exact ⟨_, mapGet_mapSet_self .., rfl, same⟩

/-! ### Swaps and prefetches (R389, R390) -/

/-- A swap whose successor could be installed, and is not section 0, starts that section. -/
theorem deep_swapComplete {ps : DeepPass} (pass : x.pass = some ps) (swaps : x.swap = true) (live : partLive (s.part p) = true)
    (ready : im.prefetchAt x.section_ = true → x.pfReady = true)
    (installs : (s.swapTo p im (im.succ x.section_) (im.prefetchAt x.section_)).2 = true) (more : im.succ x.section_ ≠ 0) :
    ∃ y, mapGet (s.swapComplete p).deep p = some y ∧ y.section_ = im.succ x.section_ ∧ y.swap = false := by
  obtain ⟨t, installed⟩ : ∃ t, s.swapTo p im (im.succ x.section_) (im.prefetchAt x.section_) = (t, true) :=
    ⟨_, Prod.ext rfl installs⟩
  unfold State.swapComplete
  rw [deep, image]
  dsimp only
  rw [if_neg (by simpa [swaps, live] using ready), installed]
  dsimp only
  rw [if_neg (by decide), if_neg more, pass]
  exact ⟨_, mapGet_mapSet_self .., rfl, rfl⟩

/-- A prefetch whose successor could be written stands ready for the swap. -/
theorem deep_prefetchComplete (named : im.prefetchAt x.section_ = true) (waits : x.pfReady = false) (pass : x.pass.isSome = true)
    (live : partLive (s.part p) = true) (writes : (s.prefetch p im (im.succ x.section_) ((s.part p).gen % 2)).2 = true) :
    ∃ y, mapGet (s.prefetchComplete p).deep p = some y ∧ y.pfReady = true := by
  obtain ⟨t, written⟩ : ∃ t, s.prefetch p im (im.succ x.section_) ((s.part p).gen % 2) = (t, true) := ⟨_, Prod.ext rfl writes⟩
  unfold State.prefetchComplete
  rw [deep, image]
  dsimp only
  rw [if_neg (by simp [named, waits, live, Option.isSome_iff_ne_none.1 pass]), written]
  exact ⟨_, mapGet_mapSet_self .., rfl⟩

end

/-! ### Elastic steps (R399) -/

section
variable {s : State} {d : Nat}

theorem exec_elasticStep (hd : d < 2) (up : Bool) (s : State) : exec (.elasticStep d up) s = .next (s.elasticStep d up) :=
  exec_only rfl (decide_eq_true hd) rfl

/-- The state with step `n` asked for at die `d`. -/
def State.askStep (s : State) (d n : Nat) : State := { s with seq := { s.seq with steps := mapPut s.seq.steps d n 0 } }

theorem steps_askStep (s : State) (d n : Nat) : mapGetD (s.askStep d n).seq.steps d 0 = n :=
  (mapGetD_mapPut ..).trans (if_pos rfl)

variable (eligible : s.eligibleDie d = true) (enabled : s.flag (aSeq d 0x600) 31 = true)
include eligible enabled

/-- At 90 °C or more the power manager asks for one step more, up to the highest that is allowed. -/
theorem elasticStep_hot (hot : 90 ≤ s.field (aPwr d 0) 15 8)
    (room : mapGetD s.seq.steps d 0 < min 8 (s.field (aSeq d 0x600) 23 20)) :
    s.elasticStep d true = s.askStep d (mapGetD s.seq.steps d 0 + 1) := by
  unfold State.elasticStep
  rw [if_neg (by simp [eligible, enabled]), if_pos rfl, if_pos ⟨hot, room⟩]
  rfl

/-- Below 85 °C it asks for one step less, down to none. -/
theorem elasticStep_cool (cool : s.field (aPwr d 0) 15 8 < 85) (stepped : 0 < mapGetD s.seq.steps d 0) :
    s.elasticStep d false = s.askStep d (mapGetD s.seq.steps d 0 - 1) := by
  unfold State.elasticStep
  rw [if_neg (by simp [eligible, enabled]), if_neg (by decide), if_pos ⟨cool, stepped⟩]
  rfl

end

/-- Settles O36: each event of a pass writes the deep state of its partition anew, and each elastic step the step asked for. -/
theorem deepPathComplete : Obligations.DeepPathComplete :=
  ⟨fun s _ _ _ hp deep image =>
    ⟨fun kind runs idle still first awake takes =>
      ⟨_, exec_passStart hp s, deep_passStart deep image kind runs idle still first awake takes⟩,
    fun _ pass still live done =>
      have ⟨single, several⟩ := deep_sectionComplete deep image pass still live done
      ⟨fun one => ⟨_, exec_sectionComplete hp s, single one⟩, fun more => ⟨_, exec_sectionComplete hp s, several more⟩⟩,
    fun _ pass swaps live ready installs more =>
      ⟨_, exec_swapComplete hp s, deep_swapComplete deep image pass swaps live ready installs more⟩,
    fun named waits pass live writes =>
      ⟨_, exec_prefetchComplete hp s, deep_prefetchComplete deep image named waits pass live writes⟩⟩,
  fun s _ hd eligible enabled =>
    ⟨fun hot room => ⟨_, (exec_elasticStep hd true s).trans (congrArg _ (elasticStep_hot eligible enabled hot room)), steps_askStep ..⟩,
    fun cool stepped =>
      ⟨_, (exec_elasticStep hd false s).trans (congrArg _ (elasticStep_cool eligible enabled cool stepped)), steps_askStep ..⟩⟩⟩

end Sys2Proof.Machine

/-! PROOFS. ARM, DISARM and FORCE_TRIGGER (R424, R425, R447 to R451). -/

namespace Sys2Proof.Machine

/-! ### Groups of a state -/

@[simp] theorem grp_putGrp (s : State) (g : Nat) (x : Group) (j : Nat) : (s.putGrp g x).grp j = if j = g then x else s.grp j :=
  mapGetD_mapPut ..

theorem grp_putGrp_same (s : State) (g : Nat) (x : Group) : (s.putGrp g x).grp g = x := (grp_putGrp ..).trans (if_pos rfl)

theorem count_cap (s : State) (d ev n : Nat) (o : Occ) : (s.count d ev n o).cap = s.cap := by rw [CntRegs.count s d ev n o]

theorem closedArrivals_cap (s : State) (d st n : Nat) : (s.closedArrivals d st n).cap = s.cap := (count_cap ..).trans (addReg_cap ..)

/-! ### FORCE_TRIGGER (R440, R451) -/

theorem exec_forceTrigger (h : CmdHdr) (c : Nat) (s : State) :
    exec (.forceTrigger h c) s = .next (s.instant (.forceTrigger h c) (fun s => s.forceCmd h.port c)) := rfl

/-- Condition `c` waits for the next frame of its group, whose first sample it is to mark. -/
def State.forced (s : State) (g c : Nat) : State := s.putGrp g { s.grp g with forces := (s.grp g).forces ++ [c] }

section
variable {s : State} {port : Port} {c : Nat} {x : Condition}

theorem forceCmd_absent (cond : s.cond c = none) : s.forceCmd port c = refusal s stState (det618 4) := by
  unfold State.forceCmd
  rw [cond]

theorem forceCmd_not_owned (cond : s.cond c = some x) (other : (s.part x.part).owner ≠ some port) :
    s.forceCmd port c = refusal s stOwner (det618 3) := by
  unfold State.forceCmd
  rw [cond]
  exact if_pos other

theorem forceCmd_not_forced (cond : s.cond c = some x) (owned : (s.part x.part).owner = some port) (source : ceSource x.entry ≠ 3) :
    s.forceCmd port c = refusal s stState (det618 4) := by
  unfold State.forceCmd
  rw [cond]
  exact (if_neg (not_not.2 owned)).trans (if_pos source)

theorem forceCmd_forced (cond : s.cond c = some x) (owned : (s.part x.part).owner = some port) (source : ceSource x.entry = 3) :
    s.forceCmd port c = (s.forced x.group c, stOK, 0, 0) := by
  unfold State.forceCmd
  rw [cond]
  exact (if_neg (not_not.2 owned)).trans (if_neg (not_not.2 source))

end

/-- An admitted FORCE_TRIGGER that its own rules refuse completes with their status, on the state as it left the port. -/
theorem exec_forceTrigger_refused {s : State} {h : CmdHdr} {c st d : Nat} (admitted : s.admits (.forceTrigger h c) = true)
    (effect : (s.dropHead h.port).forceCmd h.port c = refusal (s.dropHead h.port) st d) :
    exec (.forceTrigger h c) s = .next ((s.dropHead h.port).complete h 0x32 st d 0) :=
  (exec_forceTrigger h c s).trans (congrArg _ (instant_admitted rfl admitted effect))

/-- An admitted FORCE_TRIGGER of an own condition with SOURCE 3 leaves its mark in the group. -/
theorem ends_forceTrigger {s : State} {h : CmdHdr} {c : Nat} {x : Condition} (admitted : s.admits (.forceTrigger h c) = true)
    (cond : s.cond c = some x) (owned : (s.part x.part).owner = some h.port) (source : ceSource x.entry = 3) :
    Ends (.forceTrigger h c) s 0 (fun u => (u.grp x.group).forces = (s.grp x.group).forces ++ [c]
      ∧ u.cap.conds = s.cap.conds ∧ u.regs = s.regs) :=
  ends_instant rfl admitted (exec_forceTrigger h c s)
    (forceCmd_forced (s := s.dropHead h.port) cond ((congrArg Partition.owner (part_dropHead ..)).trans owned) source)
    ⟨congrArg Group.forces (grp_putGrp_same ..), rfl, rfl⟩

/-- Settles O15: the three ways through the rules of FORCE_TRIGGER. -/
theorem forceTriggerCompletions : Obligations.ForceTriggerCompletions := by
  intro s h c admitted s'
  have owner : ∀ p, (s'.part p).owner = (s.part p).owner := fun p => congrArg Partition.owner (part_dropHead ..)
  refine ⟨fun x cond other => ?_, fun refused => ?_, fun x cond owned source => ?_⟩
  · exact ⟨_, exec_forceTrigger_refused admitted (forceCmd_not_owned (x := x) cond ((owner x.part).trans_ne other))⟩
  · refine ⟨det618 4, exec_forceTrigger_refused admitted ?_⟩
    obtain cond | ⟨x, cond, owned, source⟩ := refused
    · exact forceCmd_absent cond
    · exact forceCmd_not_forced (x := x) cond ((owner x.part).trans owned) source
  · obtain ⟨h', op, part, u, info, run, _⟩ := ends_forceTrigger admitted cond owned source
    exact ⟨h', op, part, u, info, run, trivial⟩

/-! ### ARM (R424, R448) -/

theorem exec_arm (h : CmdHdr) (p g : Nat) (s : State) :
    exec (.arm h p g) s = .next (s.instant (.arm h p g) (fun s => s.armCmd h.port p g (s.armBlock h))) := rfl

/-- The group that an arm block makes is armed. -/
theorem armed_newGroup (s : State) (p : Nat) (b : List Byte) : (s.newGroup p b).armed = true := rfl

/-- Condition `c` of an arm block, armed for group `g` of partition `p`. -/
def armedCond (g p : Nat) (c : List Byte) : Condition := ⟨c, g, p, 0, [], none⟩

/-- A condition of the map belongs to group `g` of partition `p`. -/
def CondOf (g p : Nat) (m : AMap Condition) (c : Nat) : Prop := ∃ x, mapGet m c = some x ∧ x.group = g ∧ x.part = p

/-- Arming one more condition of a group leaves its others to it. -/
theorem CondOf.mapSet {g p : Nat} {m : AMap Condition} {c : Nat} (b : List Byte) (k : Nat) (h : c = k ∨ CondOf g p m c) :
    CondOf g p (mapSet m k (armedCond g p b)) c := by
  unfold CondOf
  rw [mapGet_mapSet]
  split
  · exact ⟨_, rfl, rfl, rfl⟩
  · next ne => exact h.resolve_left ne

/-- Every condition of an arm block is armed for its group. -/
theorem condOf_arm (g p : Nat) (cs : List (List Byte)) (m : AMap Condition) {c : Nat} (h : c ∈ cs.map ceCond ∨ CondOf g p m c) :
    CondOf g p (cs.foldl (fun m b => mapSet m (ceCond b) (armedCond g p b)) m) c := by
  induction cs generalizing m with
  | nil => exact h.resolve_left (List.not_mem_nil)
  | cons b cs ih =>
    refine ih _ ?_
    rw [List.map_cons, List.mem_cons, or_assoc] at h
    obtain here | later | before := h
    · exact .inr (.mapSet b _ (.inl here))
    · exact .inl later
    · exact .inr (.mapSet b _ (.inr before))

/-- An ARM that passes its checks arms the group with the conditions of its block. -/
theorem armCmd_passed {s : State} {port : Port} {p g : Nat} {b : List Byte} (passed : s.armCheck port p g b = none) :
    ∃ t, s.armCmd port p g b = (t, stOK, 0, 0) ∧ (t.grp g).armed = true ∧ ∀ c ∈ abConds b, CondOf g p t.cap.conds (ceCond c) := by
  unfold State.armCmd
  rw [passed]
  refine ⟨_, rfl, ?_, fun c mem => condOf_arm g p _ _ (.inl (List.mem_map_of_mem mem))⟩
  exact (congrArg Group.armed (grp_putGrp_same ..)).trans (armed_newGroup ..)

theorem ends_arm {s : State} {h : CmdHdr} {p g : Nat} (admitted : s.admits (.arm h p g) = true)
    (passed : (s.dropHead h.port).armCheck h.port p g ((s.dropHead h.port).armBlock h) = none) :
    Ends (.arm h p g) s 0 (fun u => (u.grp g).armed = true
      ∧ ∀ e ∈ abConds ((s.dropHead h.port).armBlock h), CondOf g p u.cap.conds (ceCond e)) := by
  obtain ⟨t, effect, writes⟩ := armCmd_passed passed
  exact ends_instant rfl admitted (exec_arm h p g s) effect writes

/-! ### DISARM (R450) -/

theorem exec_disarm (h : CmdHdr) (p g : Nat) (s : State) :
    exec (.disarm h p g) s = .next (s.instant (.disarm h p g) (fun s => s.disarmCmd p g)) := rfl

/-- The capture groups and the armed conditions. -/
def State.groupsConds (s : State) : AMap Group × AMap Condition := (s.cap.groups, s.cap.conds)

theorem grp_of_groupsConds {s t : State} (h : t.groupsConds = s.groupsConds) (g : Nat) : t.grp g = s.grp g :=
  congrArg (fun x : AMap Group × AMap Condition => mapGetD x.1 g group0) h

theorem groupsConds_of_cap {s t : State} (h : t.cap = s.cap) : t.groupsConds = s.groupsConds :=
  congrArg (fun x : Capture => (x.groups, x.conds)) h

theorem closeStream_groupsConds (s : State) (d st : Nat) : (s.closeStream d st).groupsConds = s.groupsConds :=
  (groupsConds_of_cap (closedArrivals_cap (s.putStrm d st { s.strm d st with waiting := [] }) d st _)).trans rfl

/-- Members whose admission closes leave groups and conditions alone. -/
theorem closeMembers_groupsConds (d : Nat) (ms : List Nat) (s : State) :
    (ms.foldl (fun s m => if s.roleOpen d m then s else s.closeStream d m) s).groupsConds = s.groupsConds :=
  foldl_keeps State.groupsConds _ (fun t m => ite_keeps rfl (closeStream_groupsConds t d m)) ms s

/-- An armed group that is disarmed holds no condition any more. -/
theorem disarm_armed {s : State} {g : Nat} (armed : (s.grp g).armed = true) :
    ((s.disarm g).grp g).armed = false ∧ ∀ e ∈ (s.disarm g).cap.conds, e.2.group ≠ g := by
  unfold State.disarm
  extract_lets x sealed y marks stopped cap ended
  rw [if_neg (by simp [x, armed])]
  have closed := closeMembers_groupsConds x.die x.members ended
  refine ⟨?_, fun e mem => ?_⟩
  · rw [grp_of_groupsConds closed g]
    exact congrArg Group.armed (grp_putGrp_same sealed g _)
  · have same := congrArg Prod.snd closed
    have kept : e ∈ ended.cap.conds := (congrArg (e ∈ ·) same).mp mem
    exact of_decide_eq_true (List.mem_filter.1 kept).2

theorem disarmCmd_armed {s : State} {p g : Nat} (named : g < 64) (armed : (s.grp g).armed = true) (own : (s.grp g).part = p) :
    s.disarmCmd p g = (s.disarm g, stOK, 0, 0) := by
  unfold State.disarmCmd
  rw [if_neg (Nat.not_le.2 named), if_neg (by simp [armed, own])]

/-- Settles O39: what each of the three commands leaves of the group that it names. -/
theorem triggerCommandsComplete : Obligations.TriggerCommandsComplete :=
  fun s h p g _ =>
    ⟨ends_arm, fun admitted named armed own =>
      ends_instant rfl admitted (exec_disarm h p g s) (disarmCmd_armed (s := s.dropHead h.port) named armed own) (disarm_armed armed),
    fun _ => ends_forceTrigger⟩

end Sys2Proof.Machine

/-! PROOFS. Admission: an event completes its assembly, and an entry slot takes one (R213, R413, R417 to R420). -/

namespace Sys2Proof.Machine

/-! ### Streams -/

theorem strm_putStrm_same (s : State) (d st : Nat) (x : Stream) : (s.putStrm d st x).strm d st = x :=
  (mapGetD_mapPut ..).trans (if_pos rfl)

theorem reg_putStrm (s : State) (d st : Nat) (x : Stream) (b : Nat) : (s.putStrm d st x).reg b = s.reg b := rfl

theorem strm_of_cap {s t : State} (h : t.cap = s.cap) (d st : Nat) : t.strm d st = s.strm d st :=
  congrArg (fun c : Capture => mapGetD c.streams (16384 * d + st) stream0) h

/-! ### Counting writes registers of CNT (R677, R683, R684) -/

section
variable {d b : Nat} (other : ∀ o, o < 0x100000 → b ≠ aCnt d o)
include other

theorem pushSample_reg (s : State) (e : FaultEntry) : (s.pushSample d e).reg b = s.reg b :=
  ite_keeps (g := fun t : State => t.reg b) (reg_addReg_ne s _ 1 b (other _ (by decide))) rfl

theorem addCount_reg (s : State) (o : Occ) (fuel : Nat) {k : Nat} (n : Nat) (hk : k < 64) :
    (s.addCount d o fuel k n).reg b = s.reg b := by
  induction fuel generalizing s k n with
  | zero => rfl
  | succ fuel ih =>
    unfold State.addCount
    extract_lets key c cfg cnt smp q p v written marked sampled nx
    have mark : marked.reg b = s.reg b := reg_setFlag_ne written _ _ _ b (other _ (by omega))
    have sample : sampled.reg b = s.reg b :=
      ite_keeps (g := fun t : State => t.reg b) ((pushSample_reg other marked _).trans mark) mark
    refine ite_keeps (g := fun t : State => t.reg b) rfl ?_
    split
    · next next => exact (ih sampled 1 next.1).trans sample
    · exact sample

/-- Counting leaves every register outside the block of the die's counters. -/
theorem count_reg (s : State) (ev n : Nat) (o : Occ) : (s.count d ev n o).reg b = s.reg b := by
  refine ite_keeps (g := fun t : State => t.reg b) rfl
    (List.foldlRecOn (motive := fun t : State => t.reg b = s.reg b) _ _ rfl fun t same k hk => ?_)
  exact (ite_keeps (g := fun t : State => t.reg b) (addCount_reg other t o 64 _ (List.mem_range.1 hk)) rfl).trans same

end

theorem aStrm_ne_aCnt (d st k : Nat) {o : Nat} (h : o < 0x100000) : aStrm d st k ≠ aCnt d o := by
  unfold aStrm aCap aCnt
  omega

/-! ### Refusals and closed arrivals (R420, R422) -/

/-- A refused event counts for its stream, waits nowhere, and is remembered until REFUSED_SEEN reports it. -/
theorem refuse_writes (s : State) (d st : Nat) {k : Nat} (hk : k < 8) : (s.refuse d st k).strm d st = { s.strm d st with refused := true }
    ∧ ((s.refuse d st k).reg (aStrm d st 2)).toNat = min (2 ^ 32 - 1) ((s.reg (aStrm d st 2)).toNat + 1) := by
  have other : aStrm d st 2 ≠ aCap d (0x10 + 4 * k) := by
    unfold aStrm aCap
    omega
  unfold State.refuse
  extract_lets counted x marked
  have before : x = s.strm d st := strm_of_cap ((addReg_cap ..).trans (addReg_cap ..)) d st
  refine ⟨?_, ?_⟩
  · rw [strm_of_cap (count_cap marked d 0x51 1 _)]
    exact (strm_putStrm_same counted d st _).trans (congrArg (fun y : Stream => { y with refused := true }) before)
  · rw [count_reg (fun _ => aStrm_ne_aCnt d st 2), show marked.reg (aStrm d st 2) = counted.reg (aStrm d st 2) from reg_putStrm ..,
      reg_addReg_ne _ _ _ _ other, reg_addReg_same]

/-- Closed arrivals count for their stream, and change nothing of it. -/
theorem closedArrivals_writes (s : State) (d st n : Nat) : (s.closedArrivals d st n).strm d st = s.strm d st
    ∧ ((s.closedArrivals d st n).reg (aStrm d st 3)).toNat = min (2 ^ 32 - 1) ((s.reg (aStrm d st 3)).toNat + n) :=
  ⟨strm_of_cap (closedArrivals_cap ..) d st,
    (congrArg BitVec.toNat (count_reg (fun _ => aStrm_ne_aCnt d st 3) ..)).trans (reg_addReg_same ..)⟩

/-! ### Assembly (R413, R418, R420) -/

theorem exec_eventAssembly {d st : Nat} (hd : d < 2) (hst : st < 16384) (s : State) :
    exec (.eventAssembly d st) s = .next (s.eventAssembly d st) := exec_only rfl (and_named hd hst) rfl

/-- The oldest event of stream `st` that was forming is whole. -/
def State.formed (s : State) (d st : Nat) (rest : List AdmEvent) : State := s.putStrm d st { s.strm d st with forming := rest }

/-- It has joined the waiting ones, to be taken from the next cycle on. -/
def State.buffered (s : State) (d st : Nat) (ev : AdmEvent) (rest : List AdmEvent) : State :=
  (s.formed d st rest).putStrm d st
    { (s.formed d st rest).strm d st with waiting := (s.strm d st).waiting ++ [{ ev with since := s.now + 1 }] }

theorem strm_formed (s : State) (d st : Nat) (rest : List AdmEvent) :
    (s.formed d st rest).strm d st = { s.strm d st with forming := rest } := strm_putStrm_same ..

theorem strm_buffered (s : State) (d st : Nat) (ev : AdmEvent) (rest : List AdmEvent) : (s.buffered d st ev rest).strm d st
    = { s.strm d st with forming := rest, waiting := (s.strm d st).waiting ++ [{ ev with since := s.now + 1 }] } := by
  rw [State.buffered, strm_formed]
  exact strm_putStrm_same ..

section
variable {s : State} {d st : Nat} {ev : AdmEvent} {rest : List AdmEvent} (forming : (s.strm d st).forming = ev :: rest)
include forming

/-- The ways of an event that is whole, by what its stream was before. -/
theorem eventAssembly_whole : s.eventAssembly d st =
    if !s.streamOpen d st then (s.formed d st rest).closedArrivals d st 1
    else if s.admDepth d st ≤ (s.strm d st).waiting.length + s.admHeld d st then (s.formed d st rest).refuse d st 1
    else if (s.entryOf st).isNone ∧ (s.sideOwner st).isSome then (s.buffered d st ev rest).placeSide d st
    else s.buffered d st ev rest := by
  unfold State.eventAssembly
  dsimp only
  rw [forming]
  rfl

/-- A closed arrival where the stream is not open. -/
theorem answers_eventAssembly_closed (hd : d < 2) (hst : st < 16384) (closed : s.streamOpen d st = false) :
    Answers (.eventAssembly d st) s (fun u => (u.strm d st).forming = rest ∧ (u.strm d st).waiting = (s.strm d st).waiting
      ∧ (u.reg (aStrm d st 3)).toNat = min (2 ^ 32 - 1) ((s.reg (aStrm d st 3)).toNat + 1)) := by
  refine ⟨_, exec_eventAssembly hd hst s, ?_⟩
  rw [eventAssembly_whole forming, closed, if_pos (by decide)]
  obtain ⟨stream, count⟩ := closedArrivals_writes (s.formed d st rest) d st 1
  rw [stream, strm_formed]
  exact ⟨rfl, rfl, count⟩

/-- Refused where the buffer is full. -/
theorem answers_eventAssembly_full (hd : d < 2) (hst : st < 16384) (isOpen : s.streamOpen d st = true)
    (full : s.admDepth d st ≤ (s.strm d st).waiting.length + s.admHeld d st) :
    Answers (.eventAssembly d st) s (fun u => (u.strm d st).forming = rest ∧ (u.strm d st).refused = true
      ∧ (u.strm d st).waiting = (s.strm d st).waiting
      ∧ (u.reg (aStrm d st 2)).toNat = min (2 ^ 32 - 1) ((s.reg (aStrm d st 2)).toNat + 1)) := by
  refine ⟨_, exec_eventAssembly hd hst s, ?_⟩
  rw [eventAssembly_whole forming, isOpen, if_neg (by decide), if_pos full]
  obtain ⟨stream, count⟩ := refuse_writes (s.formed d st rest) d st (k := 1) (by decide)
  rw [stream, strm_formed]
  exact ⟨rfl, rfl, rfl, count⟩

/-- Into the buffer where there is room, unless a side stream hands it on at once. -/
theorem answers_eventAssembly_room (hd : d < 2) (hst : st < 16384) (isOpen : s.streamOpen d st = true)
    (room : (s.strm d st).waiting.length + s.admHeld d st < s.admDepth d st)
    (stays : (s.entryOf st).isSome ∨ (s.sideOwner st).isNone) :
    Answers (.eventAssembly d st) s (fun u => (u.strm d st).forming = rest
      ∧ (u.strm d st).waiting = (s.strm d st).waiting ++ [{ ev with since := s.now + 1 }]) := by
  have noSide : ¬ ((s.entryOf st).isNone = true ∧ (s.sideOwner st).isSome = true) := by
    rintro ⟨entry, side⟩
    rw [Option.isNone_iff_eq_none] at entry stays
    rw [entry] at stays
    simp [stays.resolve_left (by simp)] at side
  refine ⟨_, exec_eventAssembly hd hst s, ?_⟩
  rw [eventAssembly_whole forming, isOpen, if_neg (by decide), if_neg (Nat.not_le.2 room), if_neg noSide]
  have stream := strm_buffered s d st ev rest
  exact ⟨congrArg Stream.forming stream, congrArg Stream.waiting stream⟩

end

/-! ### Instances are made (R213, R310, R348) -/

/-- The number that comes next for instances, and the last cycle whose entry slot each stream took. -/
def State.slots (s : State) : Nat × (Nat → Option Nat) := (s.seq.nextId, fun k => (mapGetD s.cap.streams k stream0).slotAt)

theorem slots_of {s t : State} (seq : t.seq = s.seq) (cap : t.cap = s.cap) : t.slots = s.slots := by
  rw [State.slots, seq, cap, State.slots]

/-- A stream whose slot stays as it is. -/
theorem putStrm_slots (s : State) (d st : Nat) (f w : List AdmEvent) (r : Bool) :
    (s.putStrm d st ⟨f, w, r, (s.strm d st).slotAt⟩).slots = s.slots := by
  refine Prod.ext rfl (funext fun k => ?_)
  refine (congrArg Stream.slotAt (mapGetD_mapPut ..)).trans ?_
  split
  · next e => exact e ▸ rfl
  · rfl

theorem count_slots (s : State) (d ev n : Nat) (o : Occ) : (s.count d ev n o).slots = s.slots := slots_of (count_seq ..) (count_cap ..)

theorem setSeq_slots (s : State) (d st v : Nat) : (s.setSeq d st v).slots = s.slots :=
  slots_of ((setReg_seq ..).trans (setReg_seq ..)) ((setReg_cap ..).trans (setReg_cap ..))

theorem maxField_slots (s : State) (a hi lo v : Nat) : (s.maxField a hi lo v).slots = s.slots :=
  slots_of (maxField_seq ..) (maxField_cap ..)

theorem mapInst_slots (s : State) (i : Nat) (f : Inst → Inst) : (s.mapInst i f).slots = s.slots := rfl

theorem enter_slots (s : State) (e : Entering) : (s.enter e).slots = s.slots := rfl

theorem AuditFrame.slots {a t : State} (h : AuditFrame a t) : t.slots = a.slots := by
  obtain ⟨kept, _⟩ := h
  rw [kept]
  rfl

theorem modeBoundary_slots (s : State) (x : Inst) : (s.modeBoundary x).slots = s.slots := by
  unfold State.modeBoundary
  extract_lets p
  split
  · split
    · extract_lets marked settings
      have told : settings.slots = s.slots := ite_keeps (g := State.slots) rfl rfl
      exact (AuditFrame.auditCtrl ..).slots.trans told
    · rfl
  · rfl

theorem dueFirings_slots (s : State) (im : Loaded) (sec g i t : Nat) : (s.dueFirings im sec g i t).slots = s.slots := by
  refine foldl_keeps State.slots _ (fun t r => ?_) _ s
  dsimp only
  exact ite_keeps rfl rfl

/-- Making one of them uses up one number, and no stream's slot. -/
theorem createInst_slots (s : State) (p : Nat) (im : Loaded) (r : ImgRec) (d st seq : Nat) (raw : List Byte) :
    (s.createInst p im r d st seq raw).slots = (s.slots.1 + 1, s.slots.2) := by
  unfold State.createInst
  extract_lets g t fl n0 n1 y x q made raised z marked counted bounded due
  have opened : marked.slots = made.slots := (putStrm_slots ..).trans ((maxField_slots ..).trans (maxField_slots ..))
  exact (enter_slots ..).trans <| (dueFirings_slots ..).trans ((modeBoundary_slots ..).trans ((count_slots ..).trans opened))

/-! ### Side events join it (R421) -/

theorem takeWaiting_slots (s : State) (d st seq : Nat) : (s.takeWaiting d st seq).slots = s.slots := by
  unfold State.takeWaiting
  rw [count_slots, setSeq_slots]
  exact putStrm_slots ..

theorem placeSide_slots (s : State) (d st : Nat) : (s.placeSide d st).slots = s.slots := by
  unfold State.placeSide
  split
  · split
    · rfl
    · exact (enter_slots ..).trans ((mapInst_slots ..).trans (takeWaiting_slots ..))
  · rfl

theorem placeSides_slots (s : State) (sts : List Nat) : (s.placeSides sts).slots = s.slots :=
  foldl_keeps State.slots _ (fun t _ => foldl_keeps State.slots _ (fun _ _ => ite_keeps (placeSide_slots ..) rfl) _ t) sts s

/-! ### Entry slots (R417, R419) -/

theorem exec_entrySlot {d st : Nat} (hd : d < 2) (hst : st < 16384) (s : State) :
    exec (.entrySlot d st) s = .next (s.entrySlot d st) := exec_only rfl (and_named hd hst) rfl

/-- The entry slot of stream `st` in this cycle is taken. -/
def State.slotTaken (s : State) (d st : Nat) : State := s.putStrm d st { s.strm d st with slotAt := some s.now }

theorem strm_slotTaken (s : State) (d st : Nat) : (s.slotTaken d st).strm d st = { s.strm d st with slotAt := some s.now } :=
  strm_putStrm_same ..

/-- The event that an entry slot may take is the same once the slot is taken. -/
theorem eligible_slotTaken (s : State) (d st : Nat) : (s.slotTaken d st).eligible d st = s.eligible d st := by
  unfold State.eligible
  rw [strm_slotTaken]
  rfl

/-- An entry event that is accepted gets the next number. -/
theorem acceptEntry_slots {s : State} {d st : Nat} (waits : (s.strm d st).waiting ≠ []) (entry : (s.entryOf st).isSome) :
    (s.acceptEntry d st).slots = (s.slots.1 + 1, s.slots.2) := by
  obtain ⟨ev, rest, waiting⟩ := List.exists_cons_of_ne_nil waits
  obtain ⟨⟨p, pt, im, r⟩, owner⟩ := Option.isSome_iff_exists.1 entry
  unfold State.acceptEntry
  rw [waiting, owner]
  dsimp only
  rw [placeSides_slots, createInst_slots, count_slots, setSeq_slots, putStrm_slots]

section
variable {s : State} {d st : Nat} (isOpen : s.streamOpen d st = true)
  (slot : s.cycle d % (s.entryPeriod d st).1 = (s.entryPeriod d st).2) (fresh : (s.strm d st).slotAt ≠ some s.now)
  (single : s.groupOf st = none) (entry : (s.entryOf st).isSome) (waits : (s.eligible d st).isSome) (room : s.capRefuses d st = false)
include isOpen slot fresh single entry waits room

/-- An open slot of an entry stream outside every group accepts the event that may be taken. -/
theorem entrySlot_accepts : s.entrySlot d st = (s.slotTaken d st).acceptEntry d st := by
  unfold State.entrySlot
  extract_lets x taken
  split
  next e phi period =>
  rw [period] at slot
  have single' : taken.groupOf st = none := single
  have room' : taken.capRefuses d st = false := room
  have entry' : (taken.entryOf st).isSome = true := entry
  rw [if_neg (by simp [isOpen, slot, x, fresh]), if_neg (by simp [Option.isSome_iff_ne_none.1 entry]), single', room', entry']
  dsimp only
  rw [show taken.eligible d st = _ from eligible_slotTaken s d st, if_neg (by simp [Option.isSome_iff_ne_none.1 waits]), if_neg (by decide), if_pos rfl]
  rfl

/-- The accepted event has its number, and the slot of this cycle is taken. -/
theorem answers_entrySlot (hd : d < 2) (hst : st < 16384) :
    Answers (.entrySlot d st) s (fun u => u.seq.nextId = s.seq.nextId + 1 ∧ (u.strm d st).slotAt = some s.now) := by
  refine ⟨_, exec_entrySlot hd hst s, ?_⟩
  have waiting : ((s.slotTaken d st).strm d st).waiting ≠ [] := by
    rw [strm_slotTaken]
    intro empty
    simp [State.eligible, show (s.strm d st).waiting = [] from empty] at waits
  have slots := acceptEntry_slots waiting (s := s.slotTaken d st) entry
  rw [entrySlot_accepts isOpen slot fresh single entry waits room]
  exact ⟨congrArg Prod.fst slots, (congrArg (fun x : Nat × (Nat → Option Nat) => x.2 (16384 * d + st)) slots).trans
    (congrArg Stream.slotAt (strm_slotTaken ..))⟩

end

/-- Settles O27: an event that is whole finds its stream closed, full or with room, and an entry slot accepts the one that may be taken. -/
theorem admissionComplete : Obligations.AdmissionComplete :=
  fun _ _ _ _ _ hd hst =>
    ⟨fun forming => ⟨answers_eventAssembly_room forming hd hst, answers_eventAssembly_full forming hd hst,
      answers_eventAssembly_closed forming hd hst⟩,
    fun isOpen slot fresh single entry waits room => answers_entrySlot isOpen slot fresh single entry waits room hd hst⟩

end Sys2Proof.Machine

/-! PROOFS. Occurrences of trigger conditions: what they leave alone, lattice decisions, edges, coincidence windows, messages; the trigger
pins and their calibration (R429 to R439, R560, R600). -/

namespace Sys2Proof.Machine

/-! ### What no occurrence of a condition changes -/

/-- The lattice, the last counted edges, the received messages of each link, and the last window close of each coincidence table. -/
def State.besideTriggers (s : State) : Lattice × AMap Nat × (Nat → List SvcMsg) × (Nat → Option (Option Nat)) :=
  (s.lat, s.cap.lastEdge, fun n => (s.wlink n).inbox, fun n => (mapGet s.cap.tables n).map Coinc.closed)

theorem besideTriggers_of {s t : State} (lat : t.lat = s.lat) (cap : t.cap = s.cap) (wyl : t.wyl = s.wyl) :
    t.besideTriggers = s.besideTriggers := by
  unfold State.besideTriggers State.wlink
  rw [lat, cap, wyl]

theorem lat_of_besideTriggers {s t : State} (h : t.besideTriggers = s.besideTriggers) : t.lat = s.lat := congrArg Prod.fst h

theorem lastEdge_of_besideTriggers {s t : State} (h : t.besideTriggers = s.besideTriggers) : t.cap.lastEdge = s.cap.lastEdge :=
  congrArg (fun x => x.2.1) h

theorem inbox_of_besideTriggers {s t : State} (h : t.besideTriggers = s.besideTriggers) (n : Nat) :
    (t.wlink n).inbox = (s.wlink n).inbox := congrArg (fun x => x.2.2.1 n) h

theorem closed_of_besideTriggers {s t : State} (h : t.besideTriggers = s.besideTriggers) (n : Nat) :
    (mapGet t.cap.tables n).map Coinc.closed = (mapGet s.cap.tables n).map Coinc.closed := congrArg (fun x => x.2.2.2 n) h

theorem addField_besideTriggers (s : State) (a hi lo n : Nat) : (s.addField a hi lo n).besideTriggers = s.besideTriggers :=
  besideTriggers_of (addField_lat ..) (addField_cap ..) (addField_wyl ..)

theorem addReg_besideTriggers (s : State) (a n : Nat) : (s.addReg a n).besideTriggers = s.besideTriggers := addField_besideTriggers ..

theorem putGrp_besideTriggers (s : State) (g : Nat) (x : Group) : (s.putGrp g x).besideTriggers = s.besideTriggers := rfl

theorem putCond_besideTriggers (s : State) (c : Nat) (x : Condition) : (s.putCond c x).besideTriggers = s.besideTriggers := rfl

/-- A coincidence table whose window stays as it is. -/
theorem putTable_besideTriggers {s : State} {n : Nat} {y : Coinc} (table : mapGet s.cap.tables n = some y) (es : List CoincEvent) :
    (s.putTable n { y with events := es }).besideTriggers = s.besideTriggers := by
  refine Prod.ext rfl (Prod.ext rfl (Prod.ext rfl (funext fun k => ?_)))
  refine (congrArg (Option.map Coinc.closed) (mapGet_mapSet ..)).trans ?_
  split
  · next e => exact e ▸ (congrArg (Option.map Coinc.closed) table).symm
  · rfl

/-- A link that sends has the messages it received. -/
theorem putWlink_besideTriggers (s : State) (n : Nat) (q : List SvcMsg) :
    (s.putWlink n { s.wlink n with queue := q }).besideTriggers = s.besideTriggers := by
  refine Prod.ext rfl (Prod.ext rfl (Prod.ext (funext fun k => ?_) rfl))
  refine (congrArg WylLink.inbox (mapGetD_mapPut ..)).trans ?_
  split
  · next e => exact e ▸ rfl
  · rfl

/-! ### Trigger points and trigger messages (R438 to R443, R600) -/

theorem recordLost_besideTriggers (s : State) (g : Nat) : (s.recordLost g).besideTriggers = s.besideTriggers :=
  (addReg_besideTriggers ..).trans (putGrp_besideTriggers ..)

theorem triggerAt_besideTriggers (s : State) (g frame sample : Nat) (p : TrigPass) :
    (s.triggerAt g frame sample p).besideTriggers = s.besideTriggers :=
  ite_keeps (addReg_besideTriggers ..) (ite_keeps (putGrp_besideTriggers ..)
    (ite_keeps (recordLost_besideTriggers ..) (putGrp_besideTriggers ..)))

theorem trigger_besideTriggers (s : State) (g : Nat) (pt : TrigPoint) (p : TrigPass) :
    (s.trigger g pt p).besideTriggers = s.besideTriggers := by
  cases pt with
  | at_ frame sample frac => exact triggerAt_besideTriggers ..
  | time tau => exact putGrp_besideTriggers ..
  | nowhere => exact addReg_besideTriggers ..

theorem svcSend_besideTriggers (s : State) (n : Nat) (m : SvcMsg) : (s.svcSend n m).besideTriggers = s.besideTriggers :=
  ite_keeps (addReg_besideTriggers ..) (putWlink_besideTriggers ..)

theorem svcRoute_besideTriggers (s : State) (m : SvcMsg) : (s.svcRoute m).besideTriggers = s.besideTriggers :=
  ite_keeps (addReg_besideTriggers ..) (svcSend_besideTriggers ..)

theorem trigSend_besideTriggers (s : State) (c tau : Nat) : (s.trigSend c tau).besideTriggers = s.besideTriggers :=
  ite_keeps (svcRoute_besideTriggers ..) (addReg_besideTriggers ..)

/-! ### Passes and occurrences (R342, R430 to R434) -/

theorem coincInput_besideTriggers (s : State) (c tau : Nat) (pt : TrigPoint) :
    (s.coincInput c tau pt).besideTriggers = s.besideTriggers := by
  refine foldl_keeps State.besideTriggers _ (fun s e => foldl_keeps State.besideTriggers _ (fun s i => ?_) _ s) _ s
  split
  · next table => exact ite_keeps (putTable_besideTriggers table _) rfl
  · rfl

theorem condPass_besideTriggers (s : State) (c : Nat) (x : Condition) (tau inst : Nat) (pt : TrigPoint) :
    (s.condPass c x tau inst pt).besideTriggers = s.besideTriggers := by
  unfold State.condPass
  extract_lets counted p triggered cap pulsed sent
  have onGroup : triggered.besideTriggers = s.besideTriggers :=
    ite_keeps ((trigger_besideTriggers ..).trans (addReg_besideTriggers ..)) (addReg_besideTriggers ..)
  have onPin : pulsed.besideTriggers = s.besideTriggers := ite_keeps onGroup onGroup
  have onLink : sent.besideTriggers = s.besideTriggers := ite_keeps ((trigSend_besideTriggers ..).trans onPin) onPin
  exact (coincInput_besideTriggers ..).trans onLink

/-- An occurrence writes groups, conditions, input events, pulses, registers and queues of messages to send. -/
theorem occurrence_besideTriggers (s : State) (c tau : Nat) (pt : TrigPoint) :
    (s.occurrence c tau pt).besideTriggers = s.besideTriggers := by
  unfold State.occurrence
  split
  · rfl
  extract_lets noted g d
  have counted : noted.besideTriggers = s.besideTriggers := (putCond_besideTriggers ..).trans (addReg_besideTriggers ..)
  exact ite_keeps ((condPass_besideTriggers ..).trans counted) counted

/-- Occurrences of several conditions at one time. -/
theorem occurrences_besideTriggers (s : State) (cs : AMap Condition) (tau : Nat) (pt : TrigPoint) :
    (cs.foldl (fun s e => s.occurrence e.1 tau pt) s).besideTriggers = s.besideTriggers :=
  foldl_keeps State.besideTriggers _ (fun t e => occurrence_besideTriggers t e.1 tau pt) cs s

/-! ### Lattice decisions (R429) -/

theorem exec_latticeOccurrence {d ep : Nat} (hd : d < 2) (hep : ep < 512) (s : State) :
    exec (.latticeOccurrence d ep) s = .next (s.latticeOccurrence d ep) := exec_only rfl (and_named hd hep) rfl

/-- The oldest token has left capture endpoint `ep`. -/
def State.decisionTaken (s : State) (d ep : Nat) (rest : List Passage) : State :=
  { s with lat := { s.lat with inbox := mapPut s.lat.inbox (512 * d + ep) rest [] } }

/-- The first word of a payload has the payload's bit 31. -/
theorem testBit_firstWord (v : Nat) : (fieldLE (leBytes 32 v) 0 4).testBit 31 = v.testBit 31 := by
  have cut : leBytes 32 v = [] ++ (leBytes 4 v ++ leBytes 28 (v / 256 / 256 / 256 / 256)) := rfl
  rw [cut, show fieldLE _ 0 4 = _ from fieldLE_append [] _ 4 v, show 256 ^ 4 = 2 ^ 32 by decide, Nat.testBit_mod_two_pow]
  simp

theorem putCond_lat (s : State) (c : Nat) (x : Condition) : (s.putCond c x).lat = s.lat := rfl

theorem condPass_lat (s : State) (c : Nat) (x : Condition) (tau inst : Nat) (pt : TrigPoint) :
    (s.condPass c x tau inst pt).lat = s.lat := lat_of_besideTriggers (condPass_besideTriggers ..)

theorem trigToken_lat (s : State) (d i cyc : Nat) (t : Token) : (s.trigToken d i cyc t).lat = s.lat := by
  unfold State.trigToken
  extract_lets w tainted c bad
  have taint : tainted.lat = s.lat := ite_lat rfl (raise_lat ..)
  refine ite_lat taint ?_
  split
  · extract_lets g k noted dr spf pt
    refine ite_lat ((setFlag_lat ..).trans taint) ?_
    split
    refine ite_lat taint ?_
    have counted : noted.lat = s.lat := (putCond_lat ..).trans ((addReg_lat ..).trans taint)
    exact ite_lat ((condPass_lat ..).trans counted) counted
  · exact (setFlag_lat ..).trans taint

/-- A token with VALID = 0 decides nothing. -/
theorem trigToken_invalid {s : State} {t : Token} (d i cyc : Nat) (invalid : t.payload.toNat.testBit 31 = false) :
    (s.trigToken d i cyc t).cap = s.cap := by
  unfold State.trigToken
  extract_lets w tainted c bad
  have first : (w 0).testBit 31 = false := (testBit_firstWord _).trans invalid
  rw [first, if_pos (by decide)]
  exact ite_keeps (g := State.cap) rfl rfl

/-- The oldest decision that has reached a capture endpoint is taken. -/
theorem answers_latticeOccurrence {s : State} {d ep : Nat} {p : Passage} {rest : List Passage} (hd : d < 2) (hep : ep < 512)
    (head : mapGetD s.lat.inbox (512 * d + ep) [] = p :: rest) (capture : isCapture ep = true) (due : p.rel ≤ s.cycle d) :
    Answers (.latticeOccurrence d ep) s (fun u => mapGetD u.lat.inbox (512 * d + ep) [] = rest
      ∧ (p.held.tok.payload.toNat.testBit 31 = false → u.cap = s.cap)) := by
  refine ⟨_, exec_latticeOccurrence hd hep s, ?_⟩
  have taken : s.latticeOccurrence d ep = (s.decisionTaken d ep rest).trigToken d p.held.inst p.rel p.held.tok := by
    unfold State.latticeOccurrence
    dsimp only
    rw [head]
    exact if_pos ⟨capture, due⟩
  rw [taken]
  refine ⟨?_, fun invalid => trigToken_invalid d p.held.inst p.rel invalid⟩
  rw [trigToken_lat]
  exact (mapGetD_mapPut ..).trans (if_pos rfl)

/-! ### Edges of the trigger inputs (R436) -/

theorem exec_pinEdge {pin tap : Nat} (hpin : pin < 8) (htap : tap < 256) (rising : Bool) (k : Nat) (s : State) :
    exec (.pinEdge pin rising k tap) s = .next (s.pinEdge pin rising k tap) := exec_only rfl (and_named hpin htap) rfl

/-- Control register of the time-to-digital converter of trigger input `pin`; its offset and its counts follow. -/
def aTdc (pin : Nat) : Nat := aCap (pin / 4) (0x100 + 0x10 * (pin % 4))

/-- Counts of the edges of trigger input `pin`: below those that counted, above those that came too soon. -/
def aEdges (pin : Nat) : Nat := aCap (pin / 4) (0x108 + 0x10 * (pin % 4))

/-- Time of an edge on trigger input `pin`, from the cycle and the tap code. -/
def State.edgeTime (s : State) (pin k tap : Nat) : Nat :=
  (s.tdcTime (aCap (pin / 4) (0x1000 + 0x100 * (pin % 4))) (aCap (pin / 4) (0x104 + 0x10 * (pin % 4))) k tap).toNat

/-- An armed condition takes the edges of trigger input `pin` in this direction. -/
def Condition.takesEdge (pin : Nat) (rising : Bool) (c : Condition) : Bool :=
  decide (ceSource c.entry = 1) && decide (ceArg c.entry = pin) && ceFlag c.entry (if rising then 3 else 4)

/-- The edge at `tau` counts, and the next is measured from it. -/
def State.edgeCounted (s : State) (pin tau : Nat) : State :=
  let t := s.addField (aEdges pin) 15 0 1
  { t with cap := { t.cap with lastEdge := mapSet t.cap.lastEdge pin tau } }

/-- An edge at `tau` comes 512 units or more after the last one that counted. -/
def State.edgeApart (s : State) (pin tau : Nat) : Bool :=
  match mapGet s.cap.lastEdge pin with
  | some p => decide (p + 512 ≤ tau)
  | none => true

theorem edgeApart_first {s : State} {pin : Nat} (tau : Nat) (first : mapGet s.cap.lastEdge pin = none) : s.edgeApart pin tau = true := by
  rw [State.edgeApart, first]

theorem edgeApart_soon {s : State} {pin tau t0 : Nat} (last : mapGet s.cap.lastEdge pin = some t0) (soon : tau < t0 + 512) :
    s.edgeApart pin tau = false := by
  rw [State.edgeApart, last]
  exact decide_eq_false (Nat.not_le.2 soon)

section
variable {s : State} {pin : Nat} {rising : Bool} (taken : ∃ e ∈ s.cap.conds, e.2.takesEdge pin rising = true)
  (connected : s.flag (aTdc pin) 30 = false) (k tap : Nat)
include taken connected

/-- An edge that a condition takes counts, and occurs for each of them, unless it comes within 512 units of the last. -/
theorem pinEdge_taken : s.pinEdge pin rising k tap =
    if !s.edgeApart pin (s.edgeTime pin k tap) then s.addField (aEdges pin) 31 16 1
    else (s.cap.conds.filter (fun e => e.2.takesEdge pin rising)).foldl
      (fun t e => t.occurrence e.1 (s.edgeTime pin k tap) (.time (s.edgeTime pin k tap))) (s.edgeCounted pin (s.edgeTime pin k tap)) := by
  obtain ⟨e, mem, takes⟩ := taken
  have nonempty : (s.cap.conds.filter (fun e => e.2.takesEdge pin rising)).isEmpty = false :=
    List.isEmpty_eq_false_iff_exists_mem.2 ⟨e, List.mem_filter.2 ⟨mem, takes⟩⟩
  have goes : ¬ ((s.cap.conds.filter (fun e => e.2.takesEdge pin rising)).isEmpty = true ∨ s.flag (aTdc pin) 30 = true) := by
    simp [nonempty, connected]
  unfold State.edgeCounted State.edgeTime State.edgeApart aEdges Condition.takesEdge
  unfold aTdc Condition.takesEdge at goes
  exact if_neg goes

/-- The first edge after ARM counts. -/
theorem lastEdge_pinEdge (first : mapGet s.cap.lastEdge pin = none) :
    mapGet (s.pinEdge pin rising k tap).cap.lastEdge pin = some (s.edgeTime pin k tap) := by
  rw [pinEdge_taken taken connected, edgeApart_first _ first, if_neg (by decide)]
  rw [lastEdge_of_besideTriggers (occurrences_besideTriggers ..)]
  exact mapGet_mapSet_self ..

/-- An edge that comes too soon is counted as such, and occurs for no condition. -/
theorem pinEdge_tooSoon {t0 : Nat} (last : mapGet s.cap.lastEdge pin = some t0) (soon : s.edgeTime pin k tap < t0 + 512) :
    s.pinEdge pin rising k tap = s.addField (aEdges pin) 31 16 1 := by
  rw [pinEdge_taken taken connected, edgeApart_soon last soon, if_pos (by decide)]

end

/-- A count of 16 bits in the upper half of its register. -/
theorem field_addField_upper (s : State) (a n : Nat) : (s.addField a 31 16 n).field a 31 16 = min 65535 (s.field a 31 16 + n) := by
  have sum : (s.addField a 31 16 n).field a 31 16 = (s.setField a 31 16 (min 65535 (s.field a 31 16 + n))).field a 31 16 :=
    congrArg (fun w => getBits w 31 16) (reg_addField ..)
  rw [sum, field_setField_same _ _ _ _ _ (by decide)]
  exact Nat.mod_eq_of_lt (by omega)

/-! ### Coincidence windows (R434, R435) -/

theorem exec_coincWindowClose {n : Nat} (hn : n < 64) (s : State) : exec (.coincWindowClose n) s = .next (s.coincClose n) :=
  exec_only rfl (decide_eq_true hn) rfl

/-- The window of coincidence table `n` has closed at `cl`; input events up to there are gone. -/
def State.windowClosed (s : State) (n cl : Nat) (x : Coinc) : State :=
  s.putTable n { x with closed := some cl, events := x.events.filter (fun e => decide (cl < e.time)) }

/-- The decision of a window writes nothing of the windows themselves. -/
theorem coincClose_besideTriggers {s : State} {n t0 cl : Nat} {x : Coinc} {t : List Byte} (table : mapGet s.cap.tables n = some x)
    (window : x.window = some (t0, cl, t)) (come : max cl (t0 + 128 * (4095 + 8)) / 128 < s.cycle 0) :
    (s.coincClose n).besideTriggers = (s.windowClosed n cl x).besideTriggers := by
  unfold State.coincClose
  rw [table]
  dsimp only
  rw [window]
  dsimp only
  rw [if_neg (Nat.not_le.2 come)]
  refine ite_keeps ?_ rfl
  split
  · exact occurrences_besideTriggers ..
  · rfl

theorem answers_coincWindowClose {s : State} {n t0 cl : Nat} {x : Coinc} {t : List Byte} (hn : n < 64)
    (table : mapGet s.cap.tables n = some x) (window : x.window = some (t0, cl, t))
    (come : max cl (t0 + 128 * (4095 + 8)) / 128 < s.cycle 0) :
    Answers (.coincWindowClose n) s (fun u => ∃ y, mapGet u.cap.tables n = some y ∧ y.closed = some cl) := by
  refine ⟨_, exec_coincWindowClose hn s, Option.map_eq_some_iff.1 ?_⟩
  rw [closed_of_besideTriggers (coincClose_besideTriggers table window come)]
  exact congrArg (Option.map Coinc.closed) (mapGet_mapSet_self ..)

/-! ### Trigger messages (R600) -/

theorem exec_trigger {d i : Nat} (hd : d < 2) (hi : i < 16) (s : State) : exec (.trigger d i) s = .next (s.triggerMsg d i) :=
  exec_only rfl (and_named hd hi) rfl

section
variable {s : State} {d i : Nat} {m : SvcMsg} (found : (s.wlink (linkNo d i)).inbox.find? (fun x => decide (x.mtype = 1)) = some m)
include found

/-- A message for a condition that takes none, or for none at all, is discarded and counted. -/
theorem triggerMsg_absent (absent : s.cond (fieldLE m.body 0 1) = none) :
    s.triggerMsg d i = (s.unboxed (linkNo d i) m).badMsg := by
  unfold State.triggerMsg
  rw [svcTake_found found]
  dsimp only
  rw [show (s.unboxed (linkNo d i) m).cond (fieldLE m.body 0 1) = none from absent]

/-- A message that is taken leaves its link's inbox, whatever becomes of it. -/
theorem triggerMsg_besideTriggers : (s.triggerMsg d i).besideTriggers = (s.unboxed (linkNo d i) m).besideTriggers := by
  unfold State.triggerMsg
  rw [svcTake_found found]
  dsimp only
  split
  · exact ite_keeps (occurrence_besideTriggers ..) (addReg_besideTriggers ..)
  · exact addReg_besideTriggers ..

theorem answers_trigger (hd : d < 2) (hi : i < 16) :
    Answers (.trigger d i) s (fun u => (u.wlink (linkNo d i)).inbox = (s.wlink (linkNo d i)).inbox.erase m
      ∧ (s.cond (fieldLE m.body 0 1) = none →
        (u.reg (aWyl 0 0xC)).toNat = min (2 ^ 32 - 1) ((s.reg (aWyl 0 0xC)).toNat + 1))) := by
  refine ⟨_, exec_trigger hd hi s, ?_, fun absent => ?_⟩
  · exact (inbox_of_besideTriggers (triggerMsg_besideTriggers found) _).trans (inbox_unboxed ..)
  · rw [triggerMsg_absent found absent]
    exact reg_addReg_same ..

end

/-! ### Trigger outputs (R431) -/

theorem exec_trigOutPulse {pin : Nat} (hpin : pin < 8) (s : State) : exec (.trigOutPulse pin) s = .next (s.trigOutPulse pin) :=
  exec_only rfl (decide_eq_true hpin) rfl

theorem exec_trigOutPulseEnd {pin : Nat} (hpin : pin < 8) (s : State) :
    exec (.trigOutPulseEnd pin) s = .next (s.trigOutPulseEnd pin) := exec_only rfl (decide_eq_true hpin) rfl

/-- A pin carries the level that it is driven to. -/
theorem getLsbD_driveTrig {pin : Nat} (hpin : pin < 8) (s : State) (b : Bool) : (s.driveTrig pin b).cap.trigOut.getLsbD pin = b := by
  unfold State.driveTrig
  rw [BitVec.getLsbD_ofNat, testBit_setBits, if_pos (by omega), Nat.sub_self]
  cases b <;> simp [hpin, bitOf]

theorem answers_trigOutPulse {s : State} {pin : Nat} (hpin : pin < 8) (level : s.trigLevel pin = true) :
    Answers (.trigOutPulse pin) s (fun u => u.cap.trigOut.getLsbD pin = true) := by
  refine ⟨_, exec_trigOutPulse hpin s, ?_⟩
  rw [State.trigOutPulse, if_pos level]
  exact getLsbD_driveTrig hpin s true

theorem answers_trigOutPulseEnd {pin : Nat} (hpin : pin < 8) (s : State) :
    Answers (.trigOutPulseEnd pin) s (fun u => u.cap.trigOut.getLsbD pin = s.trigLevel pin
      ∧ ∀ p ∈ u.cap.pulses, p.pin = pin → s.now < p.stop) :=
  ⟨_, exec_trigOutPulseEnd hpin s, getLsbD_driveTrig hpin _ _,
    fun _ mem own => (of_decide_eq_true (List.mem_filter.1 mem).2).resolve_left (not_not.2 own)⟩

/-! ### Calibration of the time-to-digital converters (R437, R560) -/

theorem exec_tdcCalStart {d n : Nat} (hd : d < 2) (hn : n < 4) (s : State) :
    exec (.tdcCalStart d n) s = .next (s.tdcCalStart (4 * d + n)) := exec_only rfl (and_named hd hn) rfl

theorem exec_tdcCalDone {n : Nat} {hist : List Nat} (hn : n < 9) (len : hist.length = 256) (s : State) :
    exec (.tdcCalDone n hist) s = .next (s.tdcCalDone n hist) := exec_only rfl (and_named hn len) rfl

theorem tdcRegs_pin {pin : Nat} (hpin : pin < 8) : (tdcRegs pin).1 = aTdc pin := congrArg Prod.fst (if_pos hpin)

/-- A calibration that may start is under way. -/
theorem tdcCalStart_busy {s : State} {n : Nat} (free : n < 8 → s.pinUsed n = false) :
    (s.tdcCalStart n).flag (tdcRegs n).1 30 = true := by
  rw [State.tdcCalStart, if_neg (fun h => Bool.noConfusion ((free h.1).symm.trans h.2)), flag_setFlag, if_pos ⟨rfl, by decide, rfl⟩]

/-- A calibration under way that ends leaves its table valid. -/
theorem tdcCalDone_valid {s : State} {n : Nat} (hist : List Nat) (busy : s.flag (tdcRegs n).1 30 = true) :
    (s.tdcCalDone n hist).flag (tdcRegs n).1 30 = false ∧ (s.tdcCalDone n hist).flag (tdcRegs n).1 29 = true := by
  unfold State.tdcCalDone
  dsimp only
  rw [busy, if_neg (by decide)]
  exact ⟨by rw [flag_setFlag, if_neg (by omega), flag_setFlag, if_pos ⟨rfl, by decide, rfl⟩],
    by rw [flag_setFlag, if_pos ⟨rfl, by decide, rfl⟩]⟩

theorem answers_tdcCalStart {s : State} {d n : Nat} (hd : d < 2) (hn : n < 4) (free : s.pinUsed (4 * d + n) = false) :
    Answers (.tdcCalStart d n) s (fun u => u.flag (aCap d (0x100 + 0x10 * n)) 30 = true) := by
  have register : (tdcRegs (4 * d + n)).1 = aCap d (0x100 + 0x10 * n) := by
    rw [tdcRegs_pin (by omega), aTdc, show (4 * d + n) / 4 = d by omega, show (4 * d + n) % 4 = n by omega]
  exact ⟨_, exec_tdcCalStart hd hn s, register ▸ tdcCalStart_busy (fun _ => free)⟩

theorem answers_ppsCalStart (s : State) : Answers .ppsCalStart s (fun u => u.flag (aTim 0x20008) 30 = true) :=
  ⟨_, rfl, tdcCalStart_busy (n := 8) (fun h => absurd h (by decide))⟩

theorem answers_tdcCalDone {s : State} {n : Nat} {hist : List Nat} (hn : n < 9) (len : hist.length = 256)
    (busy : s.flag (tdcRegs n).1 30 = true) :
    Answers (.tdcCalDone n hist) s (fun u => u.flag (tdcRegs n).1 30 = false ∧ u.flag (tdcRegs n).1 29 = true) :=
  ⟨_, exec_tdcCalDone hn len s, tdcCalDone_valid hist busy⟩

/-- Settles O28: what each happening of a trigger condition writes, past the occurrences that follow from it, and what each event of
the pins does. -/
theorem triggersComplete : Obligations.TriggersComplete := by
  refine ⟨fun s => ⟨fun _ _ _ _ hd hep head capture due => answers_latticeOccurrence hd hep head capture due,
    fun pin rising k tap hpin htap taken connected tau time => ?_,
    fun _ _ _ _ _ hn table window come => answers_coincWindowClose hn table window come,
    fun _ _ _ hd hi found => answers_trigger found hd hi⟩,
    fun s pin d n hist hpin hd hn len => ⟨answers_trigOutPulse hpin, answers_trigOutPulseEnd hpin s, answers_tdcCalStart hd hn,
      answers_ppsCalStart s, answers_tdcCalDone (n := 8) (by decide) len, fun busy => ?_⟩⟩
  · subst time
    have taken' : ∃ e ∈ s.cap.conds, e.2.takesEdge pin rising = true := by
      obtain ⟨e, mem, source, arg, flag⟩ := taken
      exact ⟨e, mem, by simp [Condition.takesEdge, source, arg, flag]⟩
    refine ⟨fun first => ⟨_, exec_pinEdge hpin htap rising k s, lastEdge_pinEdge taken' connected k tap first⟩,
      fun t0 last soon => ⟨_, exec_pinEdge hpin htap rising k s, ?_⟩⟩
    rw [pinEdge_tooSoon taken' connected k tap last soon]
    exact ⟨addField_cap .., field_addField_upper ..⟩
  · have register : aCap (pin / 4) (0x100 + 0x10 * (pin % 4)) = (tdcRegs pin).1 := (tdcRegs_pin hpin).symm
    rw [register] at busy ⊢
    exact answers_tdcCalDone (by omega) len busy

end Sys2Proof.Machine

/-! PROOFS. Records of a capture group: trigger points, sealing, delivery, and the copy of a stream (R439 to R446, R452). -/

namespace Sys2Proof.Machine

theorem reg_putGrp (s : State) (g : Nat) (x : Group) (b : Nat) : (s.putGrp g x).reg b = s.reg b := rfl

theorem grp_of_cap {s t : State} (h : t.cap = s.cap) (g : Nat) : t.grp g = s.grp g :=
  congrArg (fun c : Capture => mapGetD c.groups g group0) h

/-! ### Trigger points (R439, R441 to R443) -/

theorem exec_triggerPointAssign {g : Nat} (hg : g < 64) (s : State) :
    exec (.triggerPointAssign g) s = .next (s.triggerPointAssign g) := exec_only rfl (decide_eq_true hg) rfl

/-- A pass that triggers its group leaves the passes that wait for their frame. -/
theorem unassigned_triggerAt (s : State) (g frame sample : Nat) (p : TrigPass) :
    ((s.triggerAt g frame sample p).grp g).unassigned = (s.grp g).unassigned := by
  have put (x : Group) (same : x.unassigned = (s.grp g).unassigned) : ((s.putGrp g x).grp g).unassigned = (s.grp g).unassigned :=
    (congrArg Group.unassigned (grp_putGrp_same ..)).trans same
  have lost : ((s.recordLost g).grp g).unassigned = (s.grp g).unassigned :=
    (congrArg Group.unassigned (grp_of_cap (addReg_cap ..) g)).trans (put _ rfl)
  exact ite_keeps (g := fun t : State => (t.grp g).unassigned) (congrArg Group.unassigned (grp_of_cap (addReg_cap ..) g))
    (ite_keeps (g := fun t : State => (t.grp g).unassigned) (put _ rfl)
      (ite_keeps (g := fun t : State => (t.grp g).unassigned) lost (put _ rfl)))

/-- Pass `w` waits for its frame no longer. -/
def State.assigned (s : State) (g : Nat) (w : Nat × TrigPass) : State :=
  s.putGrp g { s.grp g with unassigned := (s.grp g).unassigned.erase w }

theorem unassigned_assigned (s : State) (g : Nat) (w : Nat × TrigPass) :
    ((s.assigned g w).grp g).unassigned = (s.grp g).unassigned.erase w := congrArg Group.unassigned (grp_putGrp_same ..)

section
variable {s : State} {g : Nat} {w : Nat × TrigPass}
  (decided : (s.grp g).unassigned.find? (fun w => (s.assignFrame (s.grp g) w.1).isSome) = some w)
include decided

/-- The oldest pass whose frame is decided triggers there, or is counted where no frame holds its time. -/
theorem triggerPointAssign_decided : s.triggerPointAssign g =
    match s.assignFrame (s.grp g) w.1 with
    | some (some f) =>
      let (frame, sample, frac) := (s.grp g).mapTime (s.spf (s.grp g).die (s.grp g).refStream) w.1 f
      (s.assigned g w).triggerAt g frame sample { w.2 with frac := frac }
    | _ => (s.assigned g w).addReg (aGrp g 8) 1 := by
  unfold State.triggerPointAssign
  dsimp only
  rw [decided]
  rfl

theorem answers_triggerPointAssign (hg : g < 64) :
    Answers (.triggerPointAssign g) s (fun u => (u.grp g).unassigned = (s.grp g).unassigned.erase w
      ∧ (s.assignFrame (s.grp g) w.1 = some none →
        (u.reg (aGrp g 8)).toNat = min (2 ^ 32 - 1) ((s.reg (aGrp g 8)).toNat + 1))) := by
  refine ⟨_, exec_triggerPointAssign hg s, ?_⟩
  rw [triggerPointAssign_decided decided]
  split
  · next placed =>
    exact ⟨(unassigned_triggerAt ..).trans (unassigned_assigned ..), fun nowhere => absurd (placed.symm.trans nowhere) nofun⟩
  · exact ⟨(congrArg Group.unassigned (grp_of_cap (addReg_cap ..) g)).trans (unassigned_assigned ..), fun _ => reg_addReg_same ..⟩

end

/-! ### Sealing (R442) -/

theorem exec_recordSeal {g : Nat} (hg : g < 64) (s : State) : exec (.recordSeal g) s = .next (s.recordSeal g) :=
  exec_only rfl (decide_eq_true hg) rfl

/-- Outside streaming mode a record that is sealed takes the next number and joins those that wait for delivery. -/
theorem grp_seal {s : State} {g : Nat} (r : Record) (still : (s.grp g).streaming = false) :
    ∃ x : Sealed, (s.seal g r).grp g = { s.grp g with
      records := (s.grp g).records.filter (fun q => decide (q.sample ≠ r.sample)), sealedAt := r.sample :: (s.grp g).sealedAt,
      recNo := (s.grp g).recNo + 1, ready := (s.grp g).ready ++ [x] } := by
  unfold State.seal
  extract_lets x
  split
  have notStreaming : ¬ (x.streaming = true) := by simp [x, still]
  rw [if_neg notStreaming]
  exact ⟨_, (grp_of_cap (count_cap ..) g).trans ((grp_of_cap (addReg_cap ..) g).trans (grp_putGrp_same s g _))⟩

theorem answers_recordSeal {s : State} {g : Nat} {r : Record} (hg : g < 64)
    (oldest : (s.grp g).records.find? (s.sealable (s.grp g)) = some r) (still : (s.grp g).streaming = false) :
    Answers (.recordSeal g) s (fun u => (u.grp g).recNo = (s.grp g).recNo + 1
      ∧ (u.grp g).ready.length = (s.grp g).ready.length + 1 ∧ ∀ q ∈ (u.grp g).records, q.sample ≠ r.sample) := by
  refine ⟨_, exec_recordSeal hg s, ?_⟩
  have seals : s.recordSeal g = s.seal g r := by
    unfold State.recordSeal
    dsimp only
    rw [oldest]
  obtain ⟨x, group⟩ := grp_seal r still
  rw [seals]
  refine ⟨congrArg Group.recNo group, ?_, fun q mem => ?_⟩
  · rw [group]
    exact List.length_append
  · rw [group] at mem
    exact of_decide_eq_true (List.mem_filter.1 mem).2

/-! ### Delivery (R443, R444) -/

theorem exec_recordDelivery {g : Nat} (hg : g < 64) (s : State) : exec (.recordDelivery g) s = .next (s.recordDelivery g) :=
  exec_only rfl (decide_eq_true hg) rfl

/-- The oldest sealed record has left its group. -/
def State.withdrawn (s : State) (g : Nat) (rest : List Sealed) : State := s.putGrp g { s.grp g with ready := rest }

/-- Frames of it that the ring holds no longer are counted (R446). -/
def State.overruns (s : State) (g ovr : Nat) : State := if ovr = 0 then s else s.addReg (aGrp g 0x1C) ovr

theorem grp_overruns (s : State) (g ovr j : Nat) : (s.overruns g ovr).grp j = s.grp j :=
  ite_keeps (g := fun t : State => t.grp j) rfl (grp_of_cap (addReg_cap ..) j)

theorem part_overruns (s : State) (g ovr p : Nat) : (s.overruns g ovr).part p = s.part p :=
  ite_keeps (g := fun t : State => t.part p) rfl (part_of_parts (addReg_parts ..) p)

theorem reg_overruns (s : State) (g ovr : Nat) {b : Nat} (other : b ≠ aGrp g 0x1C) : (s.overruns g ovr).reg b = s.reg b :=
  ite_keeps (g := fun t : State => t.reg b) rfl (reg_addReg_ne _ _ _ _ other)

theorem aGrp_ne {g o : Nat} (h : o < 0x1C) : aGrp g o ≠ aGrp g 0x1C := by
  unfold aGrp aCap
  omega

/-- Overruns fill no slot of the host ring. -/
theorem hostSlotFree_overruns (s : State) (g ovr : Nat) : (s.overruns g ovr).hostSlotFree g = s.hostSlotFree g := by
  unfold State.hostSlotFree
  rw [reg_overruns s g ovr (aGrp_ne (by decide)), reg_overruns s g ovr (aGrp_ne (by decide)), grp_overruns]

theorem hostSlotFree_withdrawn (s : State) (g : Nat) (rest : List Sealed) : (s.withdrawn g rest).hostSlotFree g = s.hostSlotFree g := by
  unfold State.hostSlotFree
  rw [State.withdrawn, reg_putGrp, reg_putGrp, grp_putGrp_same]
  rfl

theorem reg_msi (s : State) (p : Port) (v b : Nat) : (s.msi p v).reg b = s.reg b := ite_keeps (g := fun t : State => t.reg b) rfl rfl

/-- The owner of a group takes a slot of its ring, and the write count of the ring moves on (R444). -/
theorem reg_hostSlotPut {s : State} {g : Nat} (owned : (s.part (s.grp g).part).owner.isSome) (bs : List Byte) :
    (s.hostSlotPut g bs).reg (aGrp g 0x10) = BitVec.ofNat 32 ((s.reg (aGrp g 0x10)).toNat + 1) := by
  obtain ⟨p, owner⟩ := Option.isSome_iff_exists.1 owned
  unfold State.hostSlotPut
  extract_lets x hwr
  rw [owner]
  exact (reg_msi ..).trans ((reg_setReg ..).trans (if_pos rfl))

/-- The bytes of a record go to the host, where they are to and a slot is free; without one the record is lost (R443, R444). -/
def State.handed (s : State) (g : Nat) (toHost : Bool) (bs : List Byte) : State :=
  if toHost then
    if s.hostSlotFree g then (s.hostSlotPut g bs).putGrp g { s.grp g with lost := 0 } else s.recordLost g
  else s

section
variable {s : State} {g : Nat} {r : Sealed} {rest : List Sealed} (oldest : (s.grp g).ready = r :: rest) (noDeep : r.toDeep = false)
include oldest noDeep

/-- What becomes of a record that goes to no deep stream, whatever the ring still holds of its frames. -/
theorem answers_recordDelivery (hg : g < 64) {P : State → Prop}
    (delivered : ∀ ovr bs, P (((s.withdrawn g rest).overruns g ovr).handed g r.toHost bs)) : Answers (.recordDelivery g) s P := by
  refine ⟨_, exec_recordDelivery hg s, ?_⟩
  unfold State.recordDelivery
  extract_lets x
  rw [show x.ready = r :: rest from oldest]
  dsimp -zeta only
  extract_lets t frs ovr taint lost hd bs counted sent
  rw [noDeep, if_neg nofun]
  exact delivered ovr bs

theorem answers_recordDelivery_nowhere (hg : g < 64) (noHost : r.toHost = false) :
    Answers (.recordDelivery g) s (fun u => (u.grp g).ready = rest ∧ u.reg (aGrp g 0x10) = s.reg (aGrp g 0x10)) := by
  refine answers_recordDelivery oldest noDeep hg fun ovr bs => ?_
  rw [noHost, State.handed, if_neg nofun, reg_overruns _ _ _ (aGrp_ne (by decide)), grp_overruns]
  exact ⟨congrArg Group.ready (grp_putGrp_same ..), reg_putGrp ..⟩

theorem answers_recordDelivery_host (hg : g < 64) (toHost : r.toHost = true) (free : s.hostSlotFree g = true)
    (owned : (s.part (s.grp g).part).owner.isSome) :
    Answers (.recordDelivery g) s (fun u => (u.grp g).ready = rest ∧ (u.grp g).lost = 0
      ∧ u.reg (aGrp g 0x10) = BitVec.ofNat 32 ((s.reg (aGrp g 0x10)).toNat + 1)) := by
  refine answers_recordDelivery oldest noDeep hg fun ovr bs => ?_
  have free' : ((s.withdrawn g rest).overruns g ovr).hostSlotFree g = true := by
    rw [hostSlotFree_overruns, hostSlotFree_withdrawn, free]
  have group : ((s.withdrawn g rest).overruns g ovr).grp g = { s.grp g with ready := rest } :=
    (grp_overruns ..).trans (grp_putGrp_same ..)
  have owned' : (((s.withdrawn g rest).overruns g ovr).part (((s.withdrawn g rest).overruns g ovr).grp g).part).owner.isSome := by
    rw [part_overruns, group]
    exact owned
  rw [toHost, State.handed, if_pos rfl, if_pos free', grp_putGrp_same, group, reg_putGrp, reg_hostSlotPut owned',
    reg_overruns _ _ _ (aGrp_ne (by decide))]
  exact ⟨rfl, rfl, rfl⟩

end

/-! ### Streaming (R452) -/

theorem exec_streamCopy {g : Nat} (hg : g < 64) (s : State) : exec (.streamCopy g) s = .next (s.streamCopy g) :=
  exec_only rfl (decide_eq_true hg) rfl

/-- The next item of a streaming group begins a free slot. -/
theorem streamCopy_begins {s : State} {g : Nat} {b : List Byte} {x : Group} (streams : (s.grp g).streaming = true)
    (item : s.nextItem (s.grp g) = some (b, x)) (empty : (s.grp g).slotBuf = []) (free : s.hostSlotFree g = true)
    (noStop : b.length ≠ 96) : s.streamCopy g = s.putGrp g { x with slotBuf := b } := by
  unfold State.streamCopy
  simp [streams, item, empty, free, noStop]

theorem answers_streamCopy {s : State} {g : Nat} {b : List Byte} {x : Group} (hg : g < 64) (streams : (s.grp g).streaming = true)
    (item : s.nextItem (s.grp g) = some (b, x)) (empty : (s.grp g).slotBuf = []) (free : s.hostSlotFree g = true)
    (noStop : b.length ≠ 96) :
    Answers (.streamCopy g) s (fun u => (u.grp g).slotBuf = b ∧ (u.grp g).copyNext = x.copyNext) := by
  refine ⟨_, exec_streamCopy hg s, ?_⟩
  rw [streamCopy_begins streams item empty free noStop]
  have group := grp_putGrp_same s g { x with slotBuf := b }
  exact ⟨congrArg Group.slotBuf group, (congrArg Group.copyNext group).trans rfl⟩

/-- Settles O29: what the placing of a trigger point, a sealing, a delivery and a copy leave of their group. -/
theorem recordsComplete : Obligations.RecordsComplete :=
  fun _ _ hg =>
    ⟨fun _ decided => answers_triggerPointAssign decided hg, fun _ oldest still => answers_recordSeal hg oldest still,
    fun _ _ oldest => ⟨fun noHost noDeep => answers_recordDelivery_nowhere oldest noDeep hg noHost,
      fun toHost noDeep free owned => answers_recordDelivery_host oldest noDeep hg toHost free owned⟩,
    fun _ _ streams item empty free noStop => answers_streamCopy hg streams item empty free noStop⟩

end Sys2Proof.Machine

/-! PROOFS. Steps of STAGE_IMAGE: four copies of one range, and no other byte of the stacks (R474, R625). -/

namespace Sys2Proof.Machine

/-! ### One range of every stack -/

/-- The bytes `b` written from byte `a` of stack `k`, with the traffic that this is. -/
def State.stageCopy (s : State) (a : Nat) (b : List Byte) (k : Nat) : State := (s.stackWrite k a b).bestEffort k a b.length

theorem bestEffort_flt (s : State) (k b n : Nat) : (s.bestEffort k b n).flt = s.flt := by rw [CntRegs.bestEffort s k b n]

theorem bestEffort_ops (s : State) (k b n : Nat) : (s.bestEffort k b n).ops = s.ops := by rw [CntRegs.bestEffort s k b n]

theorem stageCopy_flt (s : State) (a : Nat) (b : List Byte) (k : Nat) : (s.stageCopy a b k).flt = (s.stackWrite k a b).flt :=
  bestEffort_flt ..

theorem stageCopy_ops (s : State) (a : Nat) (b : List Byte) (k : Nat) : (s.stageCopy a b k).ops = s.ops := bestEffort_ops ..

theorem memByte_stageCopy (s : State) (a : Nat) (b : List Byte) (k : Nat) {c : Nat}
    (outside : c < stackBytes * k + a ∨ stackBytes * k + a + b.length ≤ c) :
    memByte (s.stageCopy a b k).flt.stack c = memByte s.flt.stack c := by
  rw [stageCopy_flt, stackWrite_byte, if_neg (by omega)]

theorem stackRead_stageCopy (s : State) (a : Nat) (b : List Byte) (k : Nat) : (s.stageCopy a b k).stackRead k a b.length = b := by
  rw [State.stackRead, stageCopy_flt]
  exact stackRead_stackWrite s k a b

/-- The same range of two stacks shares no byte. -/
theorem stack_apart {a n j k : Nat} (within : a + n ≤ stackBytes) (ne : j ≠ k) :
    stackBytes * j + a + n ≤ stackBytes * k + a ∨ stackBytes * k + a + n ≤ stackBytes * j + a := by
  rcases Nat.lt_or_gt_of_ne ne with lt | lt
  all_goals
    have := Nat.mul_le_mul_left stackBytes (Nat.succ_le_of_lt lt)
    rw [Nat.mul_succ] at this
    omega

/-- A copy that stands in one stack stands after the copies in others are written. -/
theorem stackRead_stageCopy_keeps {s : State} {a : Nat} {b : List Byte} {k : Nat} (within : a + b.length ≤ stackBytes)
    (copied : s.stackRead k a b.length = b) (j : Nat) : (s.stageCopy a b j).stackRead k a b.length = b := by
  by_cases same : k = j
  · subst same
    exact stackRead_stageCopy ..
  · rw [State.stackRead, stageCopy_flt]
    exact (memRead_memWrite_apart _ _ _ _ _ (stack_apart within same)).trans copied

/-- The copies in the stacks `ks`. -/
def State.stageCopies (s : State) (a : Nat) (b : List Byte) (ks : List Nat) : State := ks.foldl (fun t k => t.stageCopy a b k) s

theorem stageCopies_ops (s : State) (a : Nat) (b : List Byte) (ks : List Nat) : (s.stageCopies a b ks).ops = s.ops :=
  foldl_keeps State.ops _ (fun t k => stageCopy_ops t a b k) ks s

theorem memByte_stageCopies (s : State) (a : Nat) (b : List Byte) {ks : List Nat} {c : Nat}
    (outside : ∀ k ∈ ks, c < stackBytes * k + a ∨ stackBytes * k + a + b.length ≤ c) :
    memByte (s.stageCopies a b ks).flt.stack c = memByte s.flt.stack c :=
  List.foldlRecOn (motive := fun (t : State) => memByte t.flt.stack c = memByte s.flt.stack c) ks _ rfl
    fun t same k hk => (memByte_stageCopy t a b k (outside k hk)).trans same

theorem stackRead_stageCopies (s : State) {a : Nat} {b : List Byte} {ks : List Nat} {k : Nat} (within : a + b.length ≤ stackBytes)
    (named : k ∈ ks) : (s.stageCopies a b ks).stackRead k a b.length = b := by
  obtain ⟨first, last, rfl⟩ := List.append_of_mem named
  unfold State.stageCopies
  rw [List.foldl_append, List.foldl_cons]
  exact List.foldlRecOn (motive := fun (t : State) => t.stackRead k a b.length = b) last _ (stackRead_stageCopy ..)
    fun t copied j _ => stackRead_stageCopy_keeps within copied j

/-! ### The step (R474) -/

theorem finishOp_flt (s : State) (o : Op) (st d r : Nat) : (s.finishOp o st d r).flt = s.flt := by rw [finishOp_frame s o st d r]

section
variable {s : State} {o : Op} {i : StepIn} {h : CmdHdr} {p dst len off : Nat} {b : List Byte}

theorem runStep_stageImage (cmd : o.cmd = .stageImage h p 0 dst len off) :
    s.runStep o i = (s.putOp o.stepped).stagingStep o.stepped i p 0 dst off := by
  unfold State.runStep
  extract_lets o1 t
  rw [show o1.cmd = _ from cmd]
  rfl

variable (answers : i.hostErr = false) (bytes : i.bytes.take (o.hdr.hostLen - o.done) = b)
include answers bytes

/-- Host memory gives the bytes of a step, which go to all four stacks; with the last of them the operation ends. -/
theorem stagingStep_host (s : State) : s.stagingStep o i p 0 dst off =
    let t := s.stageCopies (partBase (s.part p) + dst + off + o.done) b (List.range 4)
    if o.done + b.length = o.hdr.hostLen then
      (t.stageEnd p dst (o.done + b.length)).finishOp o stOK 0 (off + (o.done + b.length))
    else t.putOp { o with done := o.done + b.length } := by
  subst bytes
  unfold State.stagingStep
  rw [if_neg (by simp [hostFails, answers])]
  rfl

theorem stagingStep_flt (s : State) : (s.stagingStep o i p 0 dst off).flt =
    (s.stageCopies (partBase (s.part p) + dst + off + o.done) b (List.range 4)).flt := by
  rw [stagingStep_host answers bytes]
  exact ite_keeps (finishOp_flt ..) rfl

theorem stagingStep_ended (s : State) (last : o.done + b.length = o.hdr.hostLen) : (s.stagingStep o i p 0 dst off).ended o := by
  rw [stagingStep_host answers bytes]
  dsimp only
  rw [if_pos last]
  exact finishOp_ended _ _ _ _ _

theorem mem_stagingStep {x : Op} (more : o.done + b.length ≠ o.hdr.hostLen) (stands : x ∈ s.ops)
    (place : x.port = o.port ∧ x.place = o.place) : { o with done := o.done + b.length } ∈ (s.stagingStep o i p 0 dst off).ops := by
  rw [stagingStep_host answers bytes]
  dsimp only
  rw [if_neg more]
  exact mem_putOp ((stageCopies_ops ..).symm ▸ stands) place

end

/-- Settles O46: the copies of the four stacks do not meet, so each stands after all are written. -/
theorem stagingWritesFourCopies : Obligations.StagingWritesFourCopies := by
  intro s q tag i o h p dst len off found able status cmd answers a b within
  have stands : o.stepped ∈ (s.putOp o.stepped).ops := mem_putOp (List.mem_of_find?_eq_some found) ⟨rfl, rfl⟩
  have flt := stagingStep_flt (o := o.stepped) (p := p) (dst := dst) (off := off) answers (b := b) rfl (s.putOp o.stepped)
  refine ⟨_, exec_longOpStep found able status, ?_⟩
  rw [runStep_stageImage cmd]
  refine ⟨fun k hk => ?_, fun c outside => ?_, fun last => stagingStep_ended answers rfl _ last,
    fun more => mem_stagingStep answers rfl more stands ⟨rfl, rfl⟩⟩
  · rw [State.stackRead, flt]
    exact stackRead_stageCopies _ within (List.mem_range.2 hk)
  · rw [flt]
    exact memByte_stageCopies _ a b fun k hk => outside k (List.mem_range.1 hk)

end Sys2Proof.Machine

/-! PROOFS. What interrupts, faults and buckets leave of the registers (R487, R488, R496, R640). -/

namespace Sys2Proof.Machine

/-- A package-level cause writes registers of the CTL block (R640). -/
theorem reg_irqCause (s : State) (bit : Nat) {b : Nat} (above : 0x10000 ≤ b) : (s.irqCause bit).reg b = s.reg b := by
  refine foldl_keeps (fun t => t.reg b) _ (fun t p => ?_) _ s
  have other : b ≠ aCtl (0x108 + 0x20 * (portCode p - 1)) := by
    have := portCode_le p
    unfold aCtl
    omega
  exact ite_keeps (g := fun t => t.reg b) ((reg_msi ..).trans (reg_setFlag_ne t _ bit true b other)) rfl

/-- A fault writes the overflow count of its log (R496). -/
theorem reg_fault (s : State) {d : Nat} (f : FaultRec) {b : Nat} (above : 0x10000 ≤ b) (other : b ≠ aFlt d 0x214) :
    (s.fault d f).reg b = s.reg b := by
  unfold State.fault
  extract_lets q x t
  have logged : t.reg b = s.reg b := ite_keeps (g := fun u => u.reg b) (reg_addReg_ne s _ 1 b other) rfl
  exact (ite_keeps (g := fun u => u.reg b) (reg_irqCause _ _ above) rfl).trans logged

/-- A correction writes the count and the level of its bucket, and the flags of FLT_STATUS (R487, R488). -/
theorem reg_bucketAdd (s : State) {d k : Nat} (n : Nat) {b : Nat} (above : 0x10000 ≤ b) (count : b ≠ aFlt d (0x108 + 0x10 * k))
    (level : b ≠ aFlt d (0x104 + 0x10 * k)) (status : b ≠ aFlt d 0) : (s.bucketAdd d k n).reg b = s.reg b := by
  unfold State.bucketAdd
  extract_lets t u
  have counted : u.reg b = s.reg b := (reg_addField_ne t _ _ _ _ b level).trans (reg_addReg_ne s _ n b count)
  exact (ite_keeps (g := fun v => v.reg b) ((reg_irqCause _ _ above).trans (reg_setFlag_ne u _ k true b status)) rfl).trans counted

end Sys2Proof.Machine

/-! PROOFS. Repairs, leaking buckets, passes of the periodic scrub (R476, R479, R488, R490). -/

namespace Sys2Proof.Machine

/-! ### Leaking buckets (R488) -/

theorem field_lt (s : State) (a hi lo : Nat) : s.field a hi lo < 2 ^ (hi + 1 - lo) := Nat.mod_lt _ (Nat.two_pow_pos _)

/-- A count of 16 bits in the lower half of its register. -/
theorem field_addField_lower (s : State) (a n : Nat) : (s.addField a 15 0 n).field a 15 0 = min 65535 (s.field a 15 0 + n) := by
  have sum : (s.addField a 15 0 n).field a 15 0 = (s.setField a 15 0 (min 65535 (s.field a 15 0 + n))).field a 15 0 :=
    congrArg (fun w => getBits w 15 0) (reg_addField ..)
  rw [sum, field_setField_same _ _ _ _ _ (by decide)]
  exact Nat.mod_eq_of_lt (by omega)

theorem exec_bucketLeak {d k : Nat} (hd : d < 2) (hk : k < 5) (s : State) : exec (.bucketLeak d k) s = .next (s.bucketLeak d k) :=
  exec_only rfl (and_named hd hk) rfl

/-- A bucket that leaks and holds something lets one go. -/
theorem bucketLeak_regs {s : State} {d k : Nat} (hd : d < 2) (hk : k < 5) (on : s.field (aFlt d (0x100 + 0x10 * k)) 15 0 ≠ 0)
    (holds : s.field (aFlt d (0x104 + 0x10 * k)) 15 0 ≠ 0) : (s.bucketLeak d k).regs =
      (s.setField (aFlt d (0x104 + 0x10 * k)) 15 0 (s.field (aFlt d (0x104 + 0x10 * k)) 15 0 - 1)).regs := by
  unfold State.bucketLeak
  extract_lets iv a t
  rw [if_neg fun none => none.elim (Nat.not_le.2 hk) fun none => none.elim (Nat.not_le.2 hd) fun none => none.elim on holds]

theorem answers_bucketLeak {s : State} {d k : Nat} (hd : d < 2) (hk : k < 5) (on : s.field (aFlt d (0x100 + 0x10 * k)) 15 0 ≠ 0)
    (holds : s.field (aFlt d (0x104 + 0x10 * k)) 15 0 ≠ 0) : Answers (.bucketLeak d k) s (fun t =>
      t.field (aFlt d (0x104 + 0x10 * k)) 15 0 = s.field (aFlt d (0x104 + 0x10 * k)) 15 0 - 1
      ∧ ∀ a, a ≠ aFlt d (0x104 + 0x10 * k) → t.reg a = s.reg a) := by
  refine ⟨_, exec_bucketLeak hd hk s, ?_⟩
  have regs := bucketLeak_regs hd hk on holds
  generalize aFlt d (0x104 + 0x10 * k) = a at regs ⊢
  have reg : ∀ b, (s.bucketLeak d k).reg b = (s.setField a 15 0 (s.field a 15 0 - 1)).reg b := fun b => by
    rw [State.reg, regs, State.reg]
  refine ⟨?_, fun b other => (reg b).trans (reg_setField_ne s a 15 0 _ b other)⟩
  rw [State.field, reg]
  refine (field_setField_same _ _ _ _ _ (by decide)).trans (Nat.mod_eq_of_lt ?_)
  exact Nat.lt_of_le_of_lt (Nat.sub_le ..) (field_lt s a 15 0)

/-! ### What the reads of a repair leave alone -/

/-- The clock and FLT_SCRUB_PASS_CNT of die `d`. -/
def State.scrubCount (s : State) (d : Nat) : Nat × Word := (s.now, s.reg (aFlt d 0x14))

/-- Those, and the queued repairs. -/
def State.mending (s : State) (d : Nat) : (Nat × Word) × AMap (List RepairReq) := (s.scrubCount d, s.flt.repairs)

section
variable {d : Nat}

theorem scrubCount_of_mending {s t : State} (h : t.mending d = s.mending d) : t.scrubCount d = s.scrubCount d := congrArg Prod.fst h

theorem repairs_of_mending {s t : State} (h : t.mending d = s.mending d) : t.flt.repairs = s.flt.repairs := congrArg Prod.snd h

theorem mending_of {s t : State} (now : t.now = s.now) (reg : t.reg (aFlt d 0x14) = s.reg (aFlt d 0x14))
    (repairs : t.flt.repairs = s.flt.repairs) : t.mending d = s.mending d := Prod.ext (Prod.ext now reg) repairs

/-- The tables of the fault manager hold neither. -/
theorem scrubCount_flt (s : State) (f : Integrity) : ({ s with flt := f } : State).scrubCount d = s.scrubCount d := rfl

theorem passCount_above : 0x10000 ≤ aFlt d 0x14 := by
  unfold aFlt
  omega

theorem aFlt_ne_passCount (e : Nat) {o : Nat} (h : o < 0x8000000 - 0x100000) (ne : o ≠ 0x14) : aFlt d 0x14 ≠ aFlt e o := by
  unfold aFlt dieBase
  omega

theorem aMem_ne_passCount (e : Nat) {o : Nat} (h : o < 0x8000000 - 0xC00000) : aFlt d 0x14 ≠ aMem e o := by
  unfold aFlt aMem dieBase
  omega

section
variable (s : State) {a : Nat} (other : aFlt d 0x14 ≠ a)
include other

theorem setReg_mending (v : Word) : (s.setReg a v).mending d = s.mending d :=
  mending_of rfl ((reg_setReg ..).trans (if_neg other)) rfl

theorem setFlag_mending (i : Nat) (v : Bool) : (s.setFlag a i v).mending d = s.mending d :=
  mending_of rfl (reg_setFlag_ne s a i v _ other) rfl

theorem addField_mending (hi lo n : Nat) : (s.addField a hi lo n).mending d = s.mending d :=
  mending_of rfl (reg_addField_ne s a hi lo n _ other) rfl

theorem addReg_mending (n : Nat) : (s.addReg a n).mending d = s.mending d := addField_mending s other ..

end

theorem irqCause_mending (s : State) (bit : Nat) : (s.irqCause bit).mending d = s.mending d :=
  mending_of (by rw [PortsRegs.irqCause s bit]) (reg_irqCause s bit passCount_above) (by rw [PortsRegs.irqCause s bit])

theorem fault_mending (s : State) (e : Nat) (f : FaultRec) : (s.fault e f).mending d = s.mending d := by
  unfold State.fault
  extract_lets q x t
  have logged : t.mending d = s.mending d :=
    ite_keeps (g := fun u => u.mending d) (addReg_mending s (aFlt_ne_passCount e (by decide) (by decide)) 1) rfl
  exact (ite_keeps (g := fun u => u.mending d) (irqCause_mending ..) rfl).trans logged

theorem bucketAdd_mending (s : State) (e n : Nat) {k : Nat} (hk : k < 64) : (s.bucketAdd e k n).mending d = s.mending d := by
  have frame := PortsRegs.bucketAdd s e k n
  exact mending_of (by rw [frame]) (reg_bucketAdd s n passCount_above (aFlt_ne_passCount e (by omega) (by omega))
    (aFlt_ne_passCount e (by omega) (by omega)) (aFlt_ne_passCount e (by decide) (by decide))) (by rw [frame])

theorem setAlong_mending (s : State) {e : Nat × Nat} (other : aFlt d 0x14 ≠ e.1) : (s.setAlong e).mending d = s.mending d :=
  ite_keeps (g := fun u => u.mending d) (setReg_mending s other _) rfl

theorem firstRecord_mending (s : State) {a : Nat} (v o : Nat) {along : List (Nat × Nat)} (other : aFlt d 0x14 ≠ a)
    (others : ∀ e ∈ along, aFlt d 0x14 ≠ e.1) : (s.firstRecord a v o along).mending d = s.mending d := by
  unfold State.firstRecord
  extract_lets e w t
  refine ite_keeps (g := fun u => u.mending d) rfl (ite_keeps (g := fun u => u.mending d) rfl ?_)
  refine List.foldlRecOn (motive := fun (u : State) => u.mending d = s.mending d) _ _ (setReg_mending t other w) fun u same e he => ?_
  exact (setAlong_mending u (others e he)).trans same

theorem memErrFirst_mending (s : State) (e info byte o : Nat) {ctrl : Nat} (hd : d < 2) (hc : ctrl < 2) :
    (s.memErrFirst e ctrl info byte o).mending d = s.mending d := by
  refine (firstRecord_mending _ _ _ (aMem_ne_passCount e (by omega)) fun x hx => ?_).trans
    (addReg_mending s (aMem_ne_passCount e (by omega)) 1)
  simp only [List.mem_cons, List.not_mem_nil, or_false] at hx
  obtain rfl | rfl := hx
  · exact aMem_ne_passCount e (by omega)
  · unfold aFlt dieBase
    omega

/-- The check of a unit that is read counts and logs what it finds (R483). -/
theorem memCheck_mending (s : State) (e lane frame byte : Nat) (p : Option Nat) (i : Nat) {ctrl : Nat} (hd : d < 2) (hc : ctrl < 2) :
    (s.memCheck e ctrl lane frame byte p i).1.mending d = s.mending d := by
  unfold State.memCheck
  extract_lets key ev
  split
  · rfl
  · exact (addReg_mending _ (aMem_ne_passCount e (by omega)) 1).trans (bucketAdd_mending s e 1 (by decide))
  · exact (fault_mending ..).trans (memErrFirst_mending s e _ byte _ hd hc)

theorem unitRead_mending (s : State) (fm : Bool) (stack byte : Nat) (p : Option Nat) (hd : d < 2) :
    (s.unitRead fm stack byte p).1.mending d = s.mending d :=
  memCheck_mending _ _ _ _ _ _ _ hd (Nat.mod_lt _ (by decide))

/-- The good bytes of a unit come from copy A, or from copy B (R476). -/
theorem sourceUnit_mending (s : State) (e p byte : Nat) (hd : d < 2) : (s.sourceUnit e p byte).1.mending d = s.mending d := by
  have first := unitRead_mending s true (2 * e) byte (some p) hd
  have second := (unitRead_mending (s.unitRead true (2 * e) byte (some p)).1 true (2 * e + 1) byte (some p) hd).trans first
  unfold State.sourceUnit
  dsimp only
  split
  · exact first
  · split
    · exact second
    · exact second

theorem sourceBytes_mending (s : State) (e p : Nat) (os : List (Option Nat)) (hd : d < 2) :
    (s.sourceBytes e p os).1.mending d = s.mending d := by
  unfold State.sourceBytes
  refine foldl_fst_keeps (fun u => u.mending d) _ (fun a u => ?_) _ (s, _)
  exact sourceUnit_mending a.1 e p (32 * u) hd

/-! ### One row (R476, R479) -/

/-- The good bytes of a row: from the copies of its image, or zero where it serves none. -/
def State.rowFetch (s : State) (kind key : Nat) : State × Option (List Byte) :=
  match s.rowPart kind key with
  | some (p, im) => s.sourceBytes (rowDie kind key) p (s.rowSource kind key p im)
  | none => (s, some (zeroBytes (if kind = 1 ∨ kind = 2 then 16 else 32)))

/-- The row is good again: counted as corrected and as repaired. -/
def State.rowMended (s : State) (kind key : Nat) (bs : List Byte) (word : Nat) : State :=
  ((s.rowWrite kind key bs word).bucketAdd (rowDie kind key) 0 1).addField (aFlt (rowDie kind key) 0x18) 15 0 1

/-- Both copies fail: fault `f` is logged, the row is marked as damaged and leaves the queue. -/
def State.rowLost (s : State) (kind key : Nat) (f : FaultRec) : State :=
  let t := ((s.fault (rowDie kind key) f).addReg (aFlt (rowDie kind key) 0x1C) 1).setFlag (aFlt (rowDie kind key) 0) 29 true
  let q := (mapGetD t.flt.repairs (rowDie kind key) []).filter (fun r => !decide (r.kind = kind ∧ r.key = key))
  { t with flt := { t.flt with repairs := mapPut t.flt.repairs (rowDie kind key) q []
                               damaged := mapSet t.flt.damaged (8 * key + kind) true } }

theorem repairRow_cases (s : State) (kind key : Nat) :
    (∃ b word, (s.rowFetch kind key).2 = some b ∧ (s.repairRow kind key).1 = (s.rowFetch kind key).1.rowMended kind key b word)
    ∨ (s.rowFetch kind key).2 = none ∧ ∃ f, (s.repairRow kind key).1 = (s.rowFetch kind key).1.rowLost kind key f := by
  unfold State.repairRow State.rowFetch
  dsimp only
  cases s.rowPart kind key with
  | none => exact .inl ⟨_, _, rfl, rfl⟩
  | some e =>
    obtain ⟨p, im⟩ := e
    dsimp only
    rcases s.sourceBytes (rowDie kind key) p (s.rowSource kind key p im) with ⟨t, _ | b⟩
    · exact .inr ⟨rfl, _, rfl⟩
    · exact .inl ⟨b, _, rfl, rfl⟩

theorem rowFetch_mending (s : State) (kind key : Nat) (hd : d < 2) : (s.rowFetch kind key).1.mending d = s.mending d := by
  unfold State.rowFetch
  split
  · exact sourceBytes_mending s _ _ _ hd
  · rfl

/-- A row that is written leaves the clock and the count of passes, unless it is the register of that count. -/
theorem rowWrite_scrubCount (s : State) {kind key : Nat} (bs : List Byte) (word : Nat) (other : kind = 3 → aFlt d 0x14 ≠ key) :
    (s.rowWrite kind key bs word).scrubCount d = s.scrubCount d := by
  unfold State.rowWrite
  split
  case h_4 => exact (scrubCount_flt ..).trans (scrubCount_of_mending (setReg_mending s (other rfl) _))
  all_goals rfl

/-- The queued repairs `q` but those of one row. -/
def withoutRow (kind key : Nat) (q : List RepairReq) : List RepairReq := q.filter (fun r => !decide (r.kind = kind ∧ r.key = key))

theorem withoutRow_eq_self {kind key : Nat} {q : List RepairReq} (others : ∀ r ∈ q, ¬(r.kind = kind ∧ r.key = key)) :
    withoutRow kind key q = q := List.filter_eq_self.2 fun r hr => by simp [others r hr]

/-- A row that is written leaves the queue of its repair (R479). -/
theorem rowWrite_queue (s : State) (kind key : Nat) (bs : List Byte) (word : Nat) :
    mapGetD (s.rowWrite kind key bs word).flt.repairs d [] = withoutRow kind key (mapGetD s.flt.repairs d []) := by
  have repairs : (s.rowWrite kind key bs word).flt.repairs = s.flt.repairs.map (fun e => (e.1, withoutRow kind key e.2)) := by
    unfold State.rowWrite
    split <;> rfl
  rw [repairs, mapGetD, mapGet_map_of_keys (f := fun e : Nat × List RepairReq => (e.1, withoutRow kind key e.2)) (fun _ => rfl), mapGetD]
  cases mapGet s.flt.repairs d <;> rfl

theorem rowMended_mending (s : State) (kind key : Nat) (bs : List Byte) (word : Nat) :
    (s.rowMended kind key bs word).mending d = (s.rowWrite kind key bs word).mending d :=
  (addField_mending _ (aFlt_ne_passCount _ (by decide) (by decide)) ..).trans (bucketAdd_mending _ _ _ (by decide))

/-- What a lost row logs, counts and flags leaves the clock, the count of passes and the queue. -/
theorem lost_mending (s : State) (e : Nat) (f : FaultRec) :
    (((s.fault e f).addReg (aFlt e 0x1C) 1).setFlag (aFlt e 0) 29 true).mending d = s.mending d :=
  (setFlag_mending _ (aFlt_ne_passCount e (by decide) (by decide)) ..).trans
    ((addReg_mending _ (aFlt_ne_passCount e (by decide) (by decide)) 1).trans (fault_mending s e f))

theorem repairRow_scrubCount (s : State) {kind key : Nat} (hd : d < 2) (other : kind = 3 → aFlt d 0x14 ≠ key) :
    (s.repairRow kind key).1.scrubCount d = s.scrubCount d := by
  have fetch := scrubCount_of_mending (rowFetch_mending s kind key hd)
  obtain ⟨b, word, -, done⟩ | ⟨-, f, done⟩ := repairRow_cases s kind key
  · rw [done]
    exact (scrubCount_of_mending (rowMended_mending ..)).trans ((rowWrite_scrubCount _ b word other).trans fetch)
  · rw [done]
    exact (scrubCount_flt ..).trans ((scrubCount_of_mending (lost_mending ..)).trans fetch)

/-- The repair of a row leaves a queue of its die that does not name it. -/
theorem repairRow_queue (s : State) {kind key : Nat} (hd : d < 2) (die : rowDie kind key = d)
    (others : ∀ r ∈ mapGetD s.flt.repairs d [], ¬(r.kind = kind ∧ r.key = key)) :
    mapGetD (s.repairRow kind key).1.flt.repairs d [] = mapGetD s.flt.repairs d [] := by
  have fetch := repairs_of_mending (rowFetch_mending s kind key hd)
  obtain ⟨b, word, -, done⟩ | ⟨-, f, done⟩ := repairRow_cases s kind key
  · rw [done, repairs_of_mending (rowMended_mending (d := d) ..), rowWrite_queue, fetch, withoutRow_eq_self others]
  · rw [done]
    unfold State.rowLost
    extract_lets t q
    have kept : t.flt.repairs = s.flt.repairs := (repairs_of_mending (lost_mending (d := d) ..)).trans fetch
    have same : q = mapGetD s.flt.repairs d [] := by
      unfold q
      rw [kept, die]
      exact withoutRow_eq_self others
    exact (mapGetD_mapPut t.flt.repairs _ q [] d).trans ((if_pos die.symm).trans same)

/-! ### The queue (R476) -/

/-- The oldest repair of die `e` leaves its queue. -/
def State.nextRepair (s : State) (e : Nat) (q : List RepairReq) : State :=
  { s with flt := { s.flt with repairs := mapPut s.flt.repairs e q [] } }

theorem repair_eq {s : State} {r : RepairReq} {q : List RepairReq} (queue : mapGetD s.flt.repairs d [] = r :: q)
    (crown : s.crownStopped d = false) : s.repair d = ((s.nextRepair d q).repairRow r.kind r.key).1 := by
  unfold State.repair
  rw [queue]
  dsimp only
  rw [if_neg (by simp [crown])]
  rfl

/-- A rescale entry that serves no image is written with zero, and counted as repaired. -/
theorem repairRow_rescale {s : State} {key : Nat} (die : rowDie 1 key = d) (unserved : s.rowPart 1 key = none) :
    mapGetD (s.repairRow 1 key).1.lat.rescale key 0 = 0
    ∧ (s.repairRow 1 key).1.field (aFlt d 0x18) 15 0 = min 65535 (s.field (aFlt d 0x18) 15 0 + 1) := by
  have fetch : s.rowFetch 1 key = (s, some (zeroBytes 16)) := by
    rw [State.rowFetch, unserved]
    rfl
  obtain ⟨b, word, good, done⟩ | ⟨bad, -⟩ := repairRow_cases s 1 key
  · rw [fetch] at good done
    obtain rfl : zeroBytes 16 = b := Option.some.inj good
    rw [done]
    unfold State.rowMended
    rw [die]
    refine ⟨?_, ?_⟩
    · rw [addField_lat, bucketAdd_lat]
      exact (mapGetD_mapPut s.lat.rescale key (BitVec.ofNat 128 (leNat (zeroBytes 16))) 0 key).trans (if_pos rfl)
    · rw [field_addField_lower]
      have before : ((s.rowWrite 1 key (zeroBytes 16) word).bucketAdd d 0 1).reg (aFlt d 0x18) = s.reg (aFlt d 0x18) := by
        refine reg_bucketAdd _ 1 ?_ ?_ ?_ ?_
        all_goals
          unfold aFlt
          omega
      rw [State.field, before, State.field]
  · rw [fetch] at bad
    exact nomatch bad

theorem exec_repair (hd : d < 2) (s : State) : exec (.repair d) s = .next (s.repair d) := exec_only rfl (decide_eq_true hd) rfl

theorem answers_repair {s : State} {r : RepairReq} {q : List RepairReq} (hd : d < 2) (queue : mapGetD s.flt.repairs d [] = r :: q)
    (others : ∀ x ∈ q, ¬(x.kind = r.kind ∧ x.key = r.key)) (crown : s.crownStopped d = false) (die : rowDie r.kind r.key = d) :
    Answers (.repair d) s (fun t => mapGetD t.flt.repairs d [] = q
      ∧ (s.rowPart r.kind r.key = none → r.kind = 1 → mapGetD t.lat.rescale r.key 0 = 0
        ∧ t.field (aFlt d 0x18) 15 0 = min 65535 (s.field (aFlt d 0x18) 15 0 + 1))) := by
  refine ⟨_, exec_repair hd s, ?_⟩
  rw [repair_eq queue crown]
  have rest : mapGetD (s.nextRepair d q).flt.repairs d [] = q := (mapGetD_mapPut s.flt.repairs d q [] d).trans (if_pos rfl)
  refine ⟨(repairRow_queue _ hd die (rest.symm ▸ others)).trans rest, fun unserved kind => ?_⟩
  rw [kind] at die unserved ⊢
  exact repairRow_rescale (s := s.nextRepair d q) die unserved

/-! ### Passes of the periodic scrub (R490) -/

theorem roFault_scrubCount (s : State) (e code kind key detail u : Nat) (p : Option Nat) (i : Nat) :
    (s.roFault e code kind key detail u p i).scrubCount d = s.scrubCount d := by
  unfold State.roFault
  extract_lets q full
  split
  · rfl
  split
  · exact scrubCount_of_mending (addField_mending s (aFlt_ne_passCount e (by decide) (by decide)) ..)
  split
  split
  · exact scrubCount_of_mending (fault_mending ..)
  · exact (scrubCount_flt ..).trans (scrubCount_of_mending (fault_mending ..))

/-- A row that the scrub meets is logged, and repaired. -/
theorem scrubRow_scrubCount (s : State) {kind key : Nat} (hd : d < 2) (other : kind = 3 → aFlt d 0x14 ≠ key) :
    (s.scrubRow kind key).scrubCount d = s.scrubCount d := by
  unfold State.scrubRow
  extract_lets e known p t
  have logged : t.scrubCount d = s.scrubCount d := roFault_scrubCount ..
  exact ite_keeps (g := fun u => u.scrubCount d) rfl
    ((ite_keeps (g := fun u => u.scrubCount d) rfl (repairRow_scrubCount t hd other)).trans logged)

/-- Configuration words among the rows that show a mismatch are those marked so. -/
theorem cfgBad_of_badTables {s : State} {f : Nat → Nat → Bool} {key : Nat} (h : (3, key) ∈ s.badTables f) :
    ∃ e ∈ s.flt.cfgBad, e.1 = key := by
  unfold State.badTables at h
  simpa using (List.mem_filter.1 h).1

/-- The configuration words of the die lie from LAT on, apart from the count of passes. -/
theorem passCount_ne_of_lat {key : Nat} (high : 0x2000000 ≤ addrOff key) : aFlt d 0x14 ≠ key := by
  rintro rfl
  unfold addrOff aFlt dieBase at high
  omega

/-- The rows that the scrub of die `d` meets: those of its loaded content that show a mismatch, writable state apart. -/
def State.scrubRows (s : State) (d : Nat) : List (Nat × Nat) :=
  (((s.badRows (fun k => decide (k / 2 ^ 14 / 512 = d) && !s.rowWritable (k / 2 ^ 14) (k % 2 ^ 14))).map (fun k => (0, k)))
    ++ s.badTables (fun k j => decide (rowDie k j = d))).filter (fun e => s.rowLoaded e.1 e.2)

/-- A pass ends: it is counted, with its time. -/
def State.passDone (s : State) (d : Nat) : State :=
  let t := s.addReg (aFlt d 0x14) 1
  { t with flt := { t.flt with scrubLast := mapSet t.flt.scrubLast d t.now } }

theorem scrubPass_eq {s : State} (on : s.flag (aFlt d 0x10) 31 = true) (crown : s.crownStopped d = false) :
    s.scrubPass d = ((s.scrubRows d).foldl (fun t e => t.scrubRow e.1 e.2) s).passDone d := by
  unfold State.scrubPass
  rw [if_neg (by simp [on, crown])]
  rfl

theorem scrubLast_passDone (s : State) : mapGet (s.passDone d).flt.scrubLast d = some s.now := by
  unfold State.passDone
  dsimp only
  rw [mapGet_mapSet_self, addReg_now]

theorem passCount_passDone (s : State) :
    ((s.passDone d).reg (aFlt d 0x14)).toNat = min (2 ^ 32 - 1) ((s.reg (aFlt d 0x14)).toNat + 1) := by
  unfold State.passDone
  dsimp only
  rw [reg_mk, reg_addReg_same]

theorem word_of_mem_scrubRows {s : State} {key : Nat} (h : (3, key) ∈ s.scrubRows d) : ∃ e ∈ s.flt.cfgBad, e.1 = key := by
  obtain sram | table := List.mem_append.1 (List.mem_filter.1 h).1
  · simp at sram
  · exact cfgBad_of_badTables table

/-- The rows of a pass leave the clock and the count of passes. -/
theorem scrubRows_scrubCount {s : State} (hd : d < 2) (lat : ∀ e ∈ s.flt.cfgBad, 0x2000000 ≤ addrOff e.1) :
    ((s.scrubRows d).foldl (fun t e => t.scrubRow e.1 e.2) s).scrubCount d = s.scrubCount d := by
  refine List.foldlRecOn (motive := fun (t : State) => t.scrubCount d = s.scrubCount d) _ _ rfl fun t same e he => ?_
  refine (scrubRow_scrubCount t hd fun word => ?_).trans same
  obtain ⟨kind, key⟩ := e
  obtain rfl : kind = 3 := word
  obtain ⟨x, hx, rfl⟩ := word_of_mem_scrubRows he
  exact passCount_ne_of_lat (lat x hx)

theorem exec_scrubPass (hd : d < 2) (s : State) : exec (.scrubPass d) s = .next (s.scrubPass d) := exec_only rfl (decide_eq_true hd) rfl

/-- A pass of the scrub is counted, with the time of its end. -/
theorem answers_scrubPass {s : State} (hd : d < 2) (on : s.flag (aFlt d 0x10) 31 = true) (crown : s.crownStopped d = false)
    (lat : ∀ e ∈ s.flt.cfgBad, 0x2000000 ≤ addrOff e.1) : Answers (.scrubPass d) s (fun t =>
      mapGet t.flt.scrubLast d = some s.now
      ∧ (t.reg (aFlt d 0x14)).toNat = min (2 ^ 32 - 1) ((s.reg (aFlt d 0x14)).toNat + 1)) := by
  refine ⟨_, exec_scrubPass hd s, ?_⟩
  obtain ⟨now, count⟩ := Prod.mk.inj (scrubRows_scrubCount hd lat)
  rw [scrubPass_eq on crown, scrubLast_passDone, passCount_passDone, now, count]
  exact ⟨rfl, rfl⟩

end

/-- Settles O56: a repair, a leak and a pass of the scrub, each from what its operations leave of queue, count and clock. -/
theorem integrityEventsComplete : Obligations.IntegrityEventsComplete :=
  fun _ _ hd => ⟨fun _ _ queue others crown die => answers_repair hd queue others crown die,
    fun _ hk on holds => answers_bucketLeak hd hk on holds, fun on crown lat => answers_scrubPass hd on crown lat⟩

end Sys2Proof.Machine

/-! PROOFS. What the stop of a partition leaves alone: other partitions, and the registers that hold limits and states of a die (R494). -/

namespace Sys2Proof.Machine

/-! ### Registers that a stop does not write -/

/-- A multiple of 16 in the blocks PWR to CHK of a die: what a stop counts and flags there stands at other addresses. -/
def quiet (b : Nat) : Prop := b % 16 = 0 ∧ 0x10000 ≤ b ∧ addrOff b < 0x300000

theorem quiet_aPwr {d : Nat} : quiet (aPwr d 0) := by
  unfold quiet addrOff aPwr dieBase
  omega

theorem quiet_aFlt {d : Nat} : quiet (aFlt d 0) := by
  unfold quiet addrOff aFlt dieBase
  omega

section
variable {b : Nat}

/-- A completion writes registers of the CTL block (R619, R637). -/
theorem reg_cqWrite (s : State) (p : Port) (c : Completion) (above : 0x10000 ≤ b) : (s.cqWrite p c).reg b = s.reg b := by
  have other : b ≠ aCtl (0x102C + 0x100 * portLink p) := by
    have := portLink_le p
    unfold aCtl
    omega
  unfold State.cqWrite
  extract_lets q base t x nx y u
  have moved : u.reg b = s.reg b := reg_setField_ne (s.putPort p y) _ 11 0 nx b other
  exact (ite_keeps (g := fun v => v.reg b) (reg_msi ..) rfl).trans moved

theorem reg_post (s : State) (p : Port) (c : Completion) (above : 0x10000 ≤ b) : (s.post p c).reg b = s.reg b := by
  unfold State.post
  extract_lets x t i
  have other : b ≠ aCtl (0x108 + 0x20 * i) := by
    have := portCode_le p
    unfold aCtl
    omega
  exact ite_keeps (g := fun v => v.reg b) (ite_keeps (g := fun v => v.reg b) rfl (reg_cqWrite s p c above))
    (ite_keeps (g := fun v => v.reg b) (reg_setFlag_ne t _ 5 true b other) rfl)

theorem reg_finishOp_above (s : State) (o : Op) (st d r : Nat) (above : 0x10000 ≤ b) : (s.finishOp o st d r).reg b = s.reg b := by
  unfold State.finishOp
  extract_lets t
  split
  · rfl
  · exact reg_post t _ _ above

theorem reg_abortOps (s : State) (p st d : Nat) (above : 0x10000 ≤ b) : (s.abortOps p st d).reg b = s.reg b :=
  foldl_keeps (fun t => t.reg b) _ (fun t o => reg_finishOp_above t o st d 0 above) _ s

theorem ne_aCnt (below : addrOff b < 0x300000) (d : Nat) {o : Nat} (h : o < 0x100000) : b ≠ aCnt d o := by
  rintro rfl
  unfold addrOff aCnt dieBase at below
  omega

theorem reg_pushSample (s : State) (d : Nat) (e : FaultEntry) (below : addrOff b < 0x300000) : (s.pushSample d e).reg b = s.reg b :=
  ite_keeps (g := fun t => t.reg b) (reg_addReg_ne s _ 1 b (ne_aCnt below d (by decide))) rfl

/-- Counting writes registers of the CNT block (R677, R683, R684). -/
theorem reg_addCount (s : State) (d : Nat) (o : Occ) (fuel : Nat) {k : Nat} (n : Nat) (hk : k < 64) (below : addrOff b < 0x300000) :
    (s.addCount d o fuel k n).reg b = s.reg b := by
  induction fuel generalizing s k n with
  | zero => rfl
  | succ fuel ih =>
    unfold State.addCount
    extract_lets key c cfg cnt smp q p v written marked sampled nx
    have mark : marked.reg b = s.reg b := reg_setFlag_ne written _ _ true b (ne_aCnt below d (by omega))
    have sample : sampled.reg b = s.reg b := (ite_keeps (g := fun t => t.reg b) (reg_pushSample _ d _ below) rfl).trans mark
    refine ite_keeps (g := fun t => t.reg b) rfl ?_
    split
    · next chained => exact (ih sampled 1 chained.1).trans sample
    · exact sample

theorem reg_count (s : State) (d ev n : Nat) (o : Occ) (below : addrOff b < 0x300000) : (s.count d ev n o).reg b = s.reg b := by
  refine ite_keeps (g := fun t => t.reg b) rfl
    (List.foldlRecOn (motive := fun (t : State) => t.reg b = s.reg b) _ _ rfl fun t same k hk => ?_)
  exact (ite_keeps (g := fun t => t.reg b) (reg_addCount t d o 64 _ (List.mem_range.1 hk) below) rfl).trans same

end

section
variable {b : Nat} (calm : quiet b)
include calm

theorem reg_closeStream (s : State) (d st : Nat) : (s.closeStream d st).reg b = s.reg b := by
  obtain ⟨aligned, -, below⟩ := calm
  refine (reg_count _ d _ _ _ below).trans (reg_addReg_ne _ _ _ b ?_)
  unfold aStrm aCap dieBase
  omega

theorem reg_closePart (s : State) (p : Nat) : (s.closePart p).reg b = s.reg b := by
  unfold State.closePart
  split
  · rfl
  · refine foldl_keeps (fun t => t.reg b) _ (fun t st => foldl_keeps (fun t => t.reg b) _ (fun t m => ?_) _ t) _ s
    exact foldl_keeps (fun t => t.reg b) _ (fun t d => ite_keeps (g := fun t => t.reg b) (reg_closeStream calm ..) rfl) _ t

theorem reg_seal (s : State) (gi : Nat) (r : Record) : (s.seal gi r).reg b = s.reg b := by
  obtain ⟨aligned, -, below⟩ := calm
  unfold State.seal
  extract_lets g
  split
  split
  · rfl
  · refine (reg_count _ 0 _ _ _ below).trans (reg_addReg_ne _ _ 1 b ?_)
    unfold aGrp aCap dieBase
    omega

theorem reg_disarm (s : State) (gi : Nat) : (s.disarm gi).reg b = s.reg b := by
  unfold State.disarm
  extract_lets g sealed x marks
  refine ite_keeps (g := fun t => t.reg b) rfl ?_
  refine (foldl_keeps (fun t => t.reg b) _ (fun t m => ?_) _ _).trans
    (foldl_keeps (fun t => t.reg b) _ (fun t r => reg_seal calm t gi r) _ s)
  exact ite_keeps (g := fun t => t.reg b) rfl (reg_closeStream calm ..)

theorem reg_disarmPart (s : State) (p : Nat) : (s.disarmPart p).reg b = s.reg b :=
  foldl_keeps (fun t => t.reg b) (fun (t : State) (e : Nat × Group) => t.disarm e.1) (fun t e => reg_disarm calm t e.1) _ s

omit calm in
theorem reg_deepStop (s : State) (p : Nat) : (s.deepStop p).reg b = s.reg b := by
  unfold State.deepStop
  split
  · rfl
  split
  · rfl
  · refine foldl_keeps (fun t => t.reg b) _ (fun t e => ?_) _ s
    split
    · unfold State.deepHeader
      split <;> rfl
    · rfl

theorem AuditFrame.reg_quiet {s t : State} (frame : AuditFrame s t) : t.reg b = s.reg b := by
  obtain ⟨aligned, -, -⟩ := calm
  refine frame.2 b fun p => ?_
  unfold aChk dieBase
  omega

theorem reg_stopPartition (s : State) (p k : Nat) : (s.stopPartition p k).reg b = s.reg b := by
  unfold State.stopPartition
  extract_lets closed disarmed dropped was stopped flagged filled
  have before : dropped.reg b = s.reg b :=
    calc dropped.reg b = (disarmed.deepStop p).reg b := reg_abortOps _ p _ _ calm.2.1
      _ = disarmed.reg b := reg_deepStop ..
      _ = closed.reg b := reg_disarmPart calm ..
      _ = s.reg b := reg_closePart calm ..
  have flags : flagged.reg b = stopped.reg b := by
    refine foldl_keeps (fun t => t.reg b) _ (fun t r => reg_setFlag_ne t _ 29 true b ?_) _ stopped
    obtain ⟨aligned, -, -⟩ := calm
    unfold aLat dieBase
    omega
  have after : filled.reg b = s.reg b :=
    calc filled.reg b = flagged.reg b := foldl_keeps (fun t => t.reg b) _ (fun _ _ => (AuditFrame.auditFill ..).reg_quiet calm) _ _
      _ = stopped.reg b := flags
      _ = s.reg b := before
  split
  exact (((AuditFrame.auditCtrl ..).trans (AuditFrame.auditClosing ..)).reg_quiet calm).trans after

end

/-! ### Partitions that a stop names, and others -/

theorem part_stopPartition_ne (s : State) {p q : Nat} (k : Nat) (ne : q ≠ p) : (s.stopPartition p k).part q = s.part q := by
  unfold State.stopPartition
  extract_lets closed disarmed dropped was stopped flagged filled
  have before : dropped.parts = s.parts :=
    calc dropped.parts = ((disarmed.deepStop p).kind1Drop p).parts := abortOps_parts ..
      _ = (disarmed.deepStop p).parts := kind1Drop_parts ..
      _ = disarmed.parts := deepStop_parts ..
      _ = closed.parts := disarmPart_parts ..
      _ = s.parts := closePart_parts ..
  have after : filled.parts = stopped.parts :=
    (foldl_keeps State.parts _ (fun t x => auditFill_parts ..) _ _).trans (foldl_keeps State.parts _ (fun t r => setFlag_parts ..) _ _)
  split
  refine (part_of_parts ((auditClosing_parts ..).trans ((auditCtrl_parts ..).trans after)) q).trans ?_
  exact (part_putPart ..).trans ((if_neg ne).trans (part_of_parts before q))

/-- A partition that has stopped stays so when one is stopped. -/
theorem stopPartition_stays {s : State} {q : Nat} (h : (s.part q).state = .stopped) (p k : Nat) :
    ((s.stopPartition p k).part q).state = .stopped := by
  by_cases same : q = p
  · rw [same, part_stopPartition]
    rfl
  · rwa [part_stopPartition_ne s k same]

end Sys2Proof.Machine

/-! PROOFS. Cold reset and the steps of boot (R470, R472, R648, R649, R651). -/

namespace Sys2Proof.Machine

/-! ### Flags and fields beside one that is written -/

theorem flag_of_reg {s t : State} {a : Nat} (h : t.reg a = s.reg a) (i : Nat) : t.flag a i = s.flag a i := by
  rw [State.flag, h, State.flag]

theorem field_of_reg {s t : State} {a : Nat} (h : t.reg a = s.reg a) (hi lo : Nat) : t.field a hi lo = s.field a hi lo := by
  rw [State.field, h, State.field]

theorem flag_setFlag_same (s : State) (a : Nat) {i : Nat} (v : Bool) (hi : i < 32) : (s.setFlag a i v).flag a i = v := by
  rw [flag_setFlag, if_pos ⟨rfl, hi, rfl⟩]

/-- A flag above a field is no part of it. -/
theorem field_setFlag_below (s : State) (a : Nat) {i hi : Nat} (v : Bool) (lo : Nat) (h : hi < i) :
    (s.setFlag a i v).field a hi lo = s.field a hi lo :=
  (field_of_reg (t := s.setFlag a i v) (reg_setFlag ..) hi lo).trans (field_setField_apart s a i i _ a hi lo (.inr (.inr h)))

/-! ### The steps of boot (R649) -/

section
variable {s : State}

theorem sys_setBoot (s : State) (b : Boot) : (s.setBoot b).sys = { s.sys with boot := b } := rfl

/-- The phase stands in the CRN blocks of both dies, and in no other register. -/
theorem reg_setBoot (s : State) (b : Boot) {a : Nat} (other : ∀ d, a ≠ aCrn d 0) : (s.setBoot b).reg a = s.reg a :=
  (reg_setField_ne _ _ 31 28 (bootCode b) a (other 1)).trans (reg_setField_ne _ _ 31 28 (bootCode b) a (other 0))

theorem field_setBoot (s : State) (b : Boot) : (s.setBoot b).field (aCrn 0 0) 31 28 = bootCode b := by
  unfold State.setBoot
  extract_lets t
  rw [field_setField_ne _ _ _ _ _ _ _ _ (by decide), field_setField_same _ _ _ _ _ (by decide)]
  cases b <;> rfl

theorem slotParts_of_flash {t : State} (flash : t.sys.flash = s.sys.flash) (kind i : Nat) : t.slotParts kind i = s.slotParts kind i := by
  simp only [State.slotParts, flash]

theorem slotOk_of_flash {t : State} (flash : t.sys.flash = s.sys.flash) (kind i : Nat) : t.slotOk kind i = s.slotOk kind i := by
  simp only [State.slotOk, flash, slotParts_of_flash flash]

/-- The slot that runs follows from the flash (R651). -/
theorem bestSlot_of_flash {t : State} (flash : t.sys.flash = s.sys.flash) (kind : Nat) : t.bestSlot kind = s.bestSlot kind := by
  unfold State.bestSlot
  rw [slotOk_of_flash flash, slotOk_of_flash flash, slotParts_of_flash flash, slotParts_of_flash flash]

/-- The SRAM fill is over: RESET_N is released and IDCODE is loaded. -/
def State.sramReady (s : State) : State :=
  ((({ s with sys := { s.sys with pins := { s.sys.pins with resetLow := false } } }).tapLoad 0x02).setFlag (aFlt 0 4) 31 true).setFlag
    (aFlt 1 4) 31 true

theorem flag_sramReady (s : State) {d : Nat} (hd : d < 2) : s.sramReady.flag (aFlt d 4) 31 = true := by
  unfold State.sramReady
  obtain rfl | rfl : d = 0 ∨ d = 1 := by omega
  · rw [flag_of_reg (reg_setFlag_ne _ _ 31 true _ (by decide)), flag_setFlag_same _ _ _ (by decide)]
  · rw [flag_setFlag_same _ _ _ (by decide)]

/-- The Crowns run the patch of slot `i`, version `v`. -/
def State.crownPatched (s : State) (i v : Nat) : State :=
  [0, 1].foldl (fun s d => (s.setFlag (aCrn d 0) 27 (decide (i = 1))).setReg (aCrn d 4) (BitVec.ofNat 32 v)) s

theorem reg_crownPatched (s : State) (i v : Nat) {a : Nat} (flags : ∀ d, a ≠ aCrn d 0) (versions : ∀ d, a ≠ aCrn d 4) :
    (s.crownPatched i v).reg a = s.reg a :=
  foldl_keeps (fun t => t.reg a) _
    (fun t d => (reg_setReg ..).trans ((if_neg (versions d)).trans (reg_setFlag_ne t _ 27 _ a (flags d)))) _ s

theorem version_crownPatched (s : State) (i v : Nat) : (s.crownPatched i v).reg (aCrn 0 4) = BitVec.ofNat 32 v := by
  unfold State.crownPatched
  rw [List.foldl_cons, List.foldl_cons, List.foldl_nil, reg_setReg, if_neg (by decide), reg_setFlag_ne _ _ _ _ _ (by decide), reg_setReg,
    if_pos rfl]

theorem reg_putSettings (s : State) (d : Nat) (m : AMap (List Byte)) (a : Nat) : (s.putSettings d m).reg a = s.reg a := rfl

/-- The settings banks that are selected stand in the NVS blocks (R663). -/
theorem reg_selectBanks (s : State) {a : Nat} (other : ∀ d, a ≠ aNvs d 0) : s.selectBanks.reg a = s.reg a := by
  unfold State.selectBanks
  extract_lets bankOf seqs common
  split
  · exact (reg_setFlag_ne _ _ 30 true a (other 1)).trans (reg_setFlag_ne s _ 30 true a (other 0))
  · extract_lets selected
    rw [reg_mk selected]
    refine foldl_keeps (fun t => t.reg a) _ (fun t d => ?_) [0, 1] s
    extract_lets k recs
    exact (reg_setField_ne (t.putSettings d recs) _ 29 29 k a (other d)).trans (reg_putSettings t d recs a)

theorem pins_putSettings (s : State) (d : Nat) (m : AMap (List Byte)) : (s.putSettings d m).sys.pins = s.sys.pins := rfl

theorem pins_selectBanks (s : State) : s.selectBanks.sys.pins = s.sys.pins := by
  unfold State.selectBanks
  extract_lets bankOf seqs common
  split
  · rw [setFlag_sys, setFlag_sys]
  · extract_lets selected
    dsimp only
    refine foldl_keeps (fun t => t.sys.pins) _ (fun t d => ?_) [0, 1] s
    extract_lets k recs
    rw [setField_sys, pins_putSettings]
theorem sramFilled_none (fill : s.sys.boot = .fill) (noPatch : s.bestSlot 0 = none) : s.sramFilled = s.sramReady.setBoot .failFw := by
  unfold State.sramFilled
  rw [if_neg (by simp [fill])]
  extract_lets sys pins loaded filled
  have flash : filled.sys.flash = s.sys.flash := rfl
  rw [bestSlot_of_flash flash, noPatch]
  rfl

theorem sramFilled_some {i : Nat} (fill : s.sys.boot = .fill) (patch : s.bestSlot 0 = some i) :
    s.sramFilled = (s.sramReady.crownPatched i (s.slotParts 0 i).2.1).selectBanks.setBoot .crown := by
  unfold State.sramFilled
  rw [if_neg (by simp [fill])]
  extract_lets sys pins loaded filled
  have flash : filled.sys.flash = s.sys.flash := rfl
  rw [bestSlot_of_flash flash, patch]
  dsimp only
  rw [slotParts_of_flash flash]
  rfl

/-- A register of FLT is none of CRN and none of NVS. -/
theorem aFlt_ne_boot {d o : Nat} (ho : o < 0x100000) (e : Nat) {p : Nat} (hp : p < 0x100000 - 0x30000) :
    aFlt d o ≠ aCrn e p ∧ aFlt d o ≠ aNvs e p := by
  unfold aFlt aCrn aNvs dieBase
  omega

theorem flag_sramFilled (fill : s.sys.boot = .fill) {d : Nat} (hd : d < 2) : s.sramFilled.flag (aFlt d 4) 31 = true := by
  have crn : ∀ e o, o < 8 → aFlt d 4 ≠ aCrn e o := fun e o ho => (aFlt_ne_boot (by decide) e (by omega)).1
  have phase : ∀ (t : State) (b : Boot), (t.setBoot b).reg (aFlt d 4) = t.reg (aFlt d 4) := fun t b =>
    reg_setBoot t b fun e => crn e 0 (by decide)
  cases best : s.bestSlot 0 with
  | none =>
    rw [sramFilled_none fill best, flag_of_reg (phase ..)]
    exact flag_sramReady s hd
  | some i =>
    rw [sramFilled_some fill best, flag_of_reg (phase ..),
      flag_of_reg (reg_selectBanks _ fun e => (aFlt_ne_boot (by decide) e (by decide)).2),
      flag_of_reg (reg_crownPatched _ _ _ (fun e => crn e 0 (by decide)) (fun e => crn e 4 (by decide)))]
    exact flag_sramReady s hd

/-- CRN_VER of the lead Crown is the version of the slot that runs. -/
theorem version_sramFilled {i : Nat} (fill : s.sys.boot = .fill) (patch : s.bestSlot 0 = some i) :
    s.sramFilled.reg (aCrn 0 4) = BitVec.ofNat 32 (s.slotParts 0 i).2.1 := by
  have other : ∀ e, aCrn 0 4 ≠ aCrn e 0 ∧ aCrn 0 4 ≠ aNvs e 0 := fun e => by
    unfold aCrn aNvs dieBase
    omega
  rw [sramFilled_some fill patch, reg_setBoot _ _ fun e => (other e).1, reg_selectBanks _ fun e => (other e).2, version_crownPatched]

/-- The SRAM fill ends: the part goes on with a Crown patch that verifies, and fails without (R470, R649, R651). -/
theorem answers_sramFillDone (fill : s.sys.boot = .fill) : Answers .sramFillDone s (fun t =>
    t.sys.pins.resetLow = false ∧ t.flag (aFlt 0 4) 31 = true ∧ t.flag (aFlt 1 4) 31 = true
    ∧ t.sys.boot = (if (s.bestSlot 0).isSome then .crown else .failFw)
    ∧ ∀ i, s.bestSlot 0 = some i → t.reg (aCrn 0 4) = BitVec.ofNat 32 (s.slotParts 0 i).2.1) := by
  suffices h : s.sramFilled.sys.pins.resetLow = false ∧ s.sramFilled.sys.boot = (if (s.bestSlot 0).isSome then .crown else .failFw) from
    ⟨s.sramFilled, rfl, h.1, flag_sramFilled fill (by decide), flag_sramFilled fill (by decide), h.2, fun _ => version_sramFilled fill⟩
  cases best : s.bestSlot 0 with
  | none =>
    rw [sramFilled_none fill best]
    exact ⟨rfl, rfl⟩
  | some i =>
    rw [sramFilled_some fill best]
    exact ⟨congrArg Pins.resetLow (pins_selectBanks (s.sramReady.crownPatched i (s.slotParts 0 i).2.1)), rfl⟩

/-! ### Stack training and the memory fill (R470, R472) -/

theorem trained_all {tr : List Bool} (len : tr.length = 4) :
    (List.range 4).all (fun i => tr.getD i false) = true ↔ tr = [true, true, true, true] := by
  match tr, len with
  | [a, b, c, d], _ => cases a <;> cases b <;> cases c <;> cases d <;> decide

theorem exec_stackTrainingDone {tr : List Bool} (len : tr.length = 4) (s : State) :
    exec (.stackTrainingDone tr) s = .next (s.stacksTrained tr) := exec_only rfl (decide_eq_true len) rfl

/-- Boot goes on where all four stacks have trained (R472). -/
theorem boot_stacksTrained (tr : List Bool) (crown : s.sys.boot = .crown) :
    (s.stacksTrained tr).sys.boot = if (List.range 4).all (fun i => tr.getD i false) then .memory else .failMem := by
  unfold State.stacksTrained
  rw [if_neg (by simp [crown])]
  rfl

theorem answers_stackTrainingDone {tr : List Bool} (crown : s.sys.boot = .crown) (len : tr.length = 4) :
    (tr = [true, true, true, true] → Answers (.stackTrainingDone tr) s (fun t => t.sys.boot = .memory))
    ∧ (tr ≠ [true, true, true, true] → Answers (.stackTrainingDone tr) s (fun t => t.sys.boot = .failMem)) := by
  refine ⟨fun all => ⟨_, exec_stackTrainingDone len s, ?_⟩, fun missing => ⟨_, exec_stackTrainingDone len s, ?_⟩⟩
  · exact (boot_stacksTrained tr crown).trans (if_pos ((trained_all len).2 all))
  · exact (boot_stacksTrained tr crown).trans (if_neg (mt (trained_all len).1 missing))

/-- The stacked memory of die `d` is filled. -/
def State.dieFilled (s : State) (d : Nat) : State :=
  (((s.setFlag (aFlt d 4) 30 true).setField (aFlt d 4) 6 0 100).setFlag (aMem d 0) 30 true).setFlag (aMem d 0x100) 30 true

theorem aFlt_ne_aMem {d o e p : Nat} (ho : o < 0x100000) (hp : p < 0x100000) : aFlt d o ≠ aMem e p := by
  unfold aFlt aMem dieBase
  omega

theorem flag_dieFilled (s : State) (d : Nat) : (s.dieFilled d).flag (aFlt d 4) 30 = true := by
  unfold State.dieFilled
  rw [flag_of_reg (reg_setFlag_ne _ _ 30 true _ (aFlt_ne_aMem (by decide) (by decide))),
    flag_of_reg (reg_setFlag_ne _ _ 30 true _ (aFlt_ne_aMem (by decide) (by decide))), flag_setField, if_neg (by omega),
    flag_setFlag_same _ _ _ (by decide)]

theorem flag_dieFilled_ne (s : State) {d e : Nat} (ne : e ≠ d) : (s.dieFilled d).flag (aFlt e 4) 30 = s.flag (aFlt e 4) 30 := by
  have other : aFlt e 4 ≠ aFlt d 4 := by
    unfold aFlt dieBase
    omega
  unfold State.dieFilled
  refine flag_of_reg ?_ 30
  rw [reg_setFlag_ne _ _ 30 true _ (aFlt_ne_aMem (by decide) (by decide)),
    reg_setFlag_ne _ _ 30 true _ (aFlt_ne_aMem (by decide) (by decide)), reg_setField_ne _ _ _ _ _ _ other, reg_setFlag_ne _ _ _ _ _ other]

/-- The stacked memory is filled. -/
def State.memReady (s : State) : State := [0, 1].foldl State.dieFilled s

theorem flag_memReady (s : State) {d : Nat} (hd : d < 2) : s.memReady.flag (aFlt d 4) 30 = true := by
  unfold State.memReady
  rw [List.foldl_cons, List.foldl_cons, List.foldl_nil]
  obtain rfl | rfl : d = 0 ∨ d = 1 := by omega
  · rw [flag_dieFilled_ne _ (by decide), flag_dieFilled]
  · rw [flag_dieFilled]

/-- The Brim cores get the image of slot `i`, version `v` (R649). -/
def State.brimImaged (s : State) (i v : Nat) : State :=
  [0, 1].foldl (fun s d => (List.range 4).foldl (fun s c => s.setFlag (aBrm d (0x10 + 4 * c)) 29 (decide (i = 1)))
    (s.setReg (aBrm d 0) (BitVec.ofNat 32 v))) s

theorem aFlt_ne_aBrm {d o e p : Nat} (ho : o < 0x100000) (hp : p < 0x10000) : aFlt d o ≠ aBrm e p := by
  unfold aFlt aBrm dieBase
  omega

theorem reg_brimImaged (s : State) (i v d : Nat) : (s.brimImaged i v).reg (aFlt d 4) = s.reg (aFlt d 4) := by
  refine foldl_keeps (fun t => t.reg (aFlt d 4)) _ (fun t e => ?_) _ s
  refine List.foldlRecOn (motive := fun (u : State) => u.reg (aFlt d 4) = t.reg (aFlt d 4)) _ _ ?_ fun u same c hc => ?_
  · exact (reg_setReg ..).trans (if_neg (aFlt_ne_aBrm (by decide) (by decide)))
  · have := List.mem_range.1 hc
    exact (reg_setFlag_ne u _ 29 _ _ (aFlt_ne_aBrm (by decide) (by omega))).trans same

theorem memFilled_none (memory : s.sys.boot = .memory) (noImage : s.bestSlot 1 = none) : s.memFilled = s.memReady.setBoot .failFw := by
  unfold State.memFilled
  rw [if_neg (by simp [memory])]
  extract_lets filled
  have flash : filled.sys.flash = s.sys.flash := rfl
  rw [bestSlot_of_flash flash, noImage]
  rfl

theorem memFilled_some {i : Nat} (memory : s.sys.boot = .memory) (image : s.bestSlot 1 = some i) : ∃ digest cores,
    s.memFilled = State.setBoot { s.memReady.brimImaged i (s.slotParts 1 i).2.1 with
      sys := { s.sys with brimDigest := digest, cores := cores } } .brim := by
  unfold State.memFilled
  rw [if_neg (by simp [memory])]
  extract_lets filled
  have flash : filled.sys.flash = s.sys.flash := rfl
  rw [bestSlot_of_flash flash, image]
  dsimp only
  rw [slotParts_of_flash flash]
  exact ⟨_, _, rfl⟩

theorem flag_memFilled (memory : s.sys.boot = .memory) {d : Nat} (hd : d < 2) : s.memFilled.flag (aFlt d 4) 30 = true := by
  have phase : ∀ (t : State) (b : Boot), (t.setBoot b).reg (aFlt d 4) = t.reg (aFlt d 4) := fun t b =>
    reg_setBoot t b fun e => (aFlt_ne_boot (by decide) e (by decide)).1
  cases best : s.bestSlot 1 with
  | none =>
    rw [memFilled_none memory best, flag_of_reg (phase ..)]
    exact flag_memReady s hd
  | some i =>
    obtain ⟨digest, cores, done⟩ := memFilled_some memory best
    rw [done, flag_of_reg (phase ..), flag_mk, flag_of_reg (reg_brimImaged ..)]
    exact flag_memReady s hd

/-- The memory fill ends: the part goes on with a Brim image that verifies, and fails without (R470, R649). -/
theorem answers_memFillDone (memory : s.sys.boot = .memory) : Answers .memFillDone s (fun t =>
    t.flag (aFlt 0 4) 30 = true ∧ t.flag (aFlt 1 4) 30 = true ∧ t.flt.stack = s.flt.stack
    ∧ t.sys.boot = (if (s.bestSlot 1).isSome then .brim else .failFw)) := by
  refine ⟨s.memFilled, rfl, flag_memFilled memory (by decide), flag_memFilled memory (by decide), ?_⟩
  cases best : s.bestSlot 1 with
  | none =>
    rw [memFilled_none memory best]
    exact ⟨rfl, rfl⟩
  | some i =>
    obtain ⟨digest, cores, done⟩ := memFilled_some memory best
    rw [done]
    exact ⟨rfl, rfl⟩

/-! ### Cold reset, and the end of boot -/

/-- Cold reset resets all but what waits outside the package, the settings store and the flash (R648). -/
theorem answers_coldReset (s : State) : Answers .coldReset s (fun t =>
    t.sys.boot = .fill ∧ t.parts = [] ∧ t.ops = [] ∧ t.regs = State.reset.regs ∧ t.hw = s.hw
    ∧ t.pending = s.pending ∧ t.sys.banks = s.sys.banks ∧ t.sys.flash = s.sys.flash ∧ t.lat = State.reset.lat) :=
  ⟨s.coldReset, rfl, rfl, rfl, rfl, rfl, rfl, rfl, rfl, rfl, rfl⟩

/-- The part is READY, whatever the settings that are applied (R649). -/
theorem answers_bootReady (brim : s.sys.boot = .brim) :
    Answers .bootReady s (fun t => t.sys.boot = .ready ∧ t.field (aCrn 0 0) 31 28 = 4) := by
  refine ⟨s.readyNow, rfl, ?_⟩
  unfold State.readyNow
  rw [if_neg (by simp [brim])]
  generalize s.applySettings = applied
  refine ⟨?_, ?_⟩
  · rw [PortsRegs.irqCause (applied.setBoot .ready) 4]
    rfl
  · rw [field_of_reg (reg_irqCause _ 4 (by decide)), field_setBoot]
    rfl

end

end Sys2Proof.Machine

/-! PROOFS. The flash pins (R730) and the thermal sensors (R495, R669, R734); with them, what boot and its neighbours complete. -/

namespace Sys2Proof.Machine

/-! ### The flash pins (R730) -/

section
variable {s : State}

theorem answers_flashRequest (s : State) : Answers .flashRequest s (fun t =>
    t.sys.pins.flashReq = true ∧ t.sys.pins.flashGnt = true ∧ t.sys.flash = s.sys.flash) := ⟨_, rfl, rfl, rfl, rfl⟩

/-- What the board management controller has written while it held the flash stands there. -/
theorem answers_flashRelease (a : Nat) (bs : List Byte) (held : s.sys.pins.flashReq = true) :
    Answers (.flashRelease [(a, bs)]) s (fun t => t.sys.pins.flashReq = false ∧ t.sys.pins.flashGnt = false
      ∧ memRead t.sys.flash a bs.length = bs ∧ ∀ c, (c < a ∨ a + bs.length ≤ c) → memByte t.sys.flash c = memByte s.sys.flash c) := by
  have flash : (if s.sys.pins.flashReq = true then [(a, bs)].foldl (fun m e => memWrite m e.1 e.2) s.sys.flash else s.sys.flash)
      = memWrite s.sys.flash a bs := if_pos held
  refine ⟨_, rfl, rfl, rfl, ?_⟩
  dsimp only
  rw [flash]
  exact ⟨memRead_memWrite .., fun c outside => (memByte_memWrite ..).trans (if_neg (by omega))⟩

theorem answers_flashRelease_free (written : List (Nat × List Byte)) (free : s.sys.pins.flashReq = false) :
    Answers (.flashRelease written) s (fun t => t.sys.flash = s.sys.flash) := ⟨_, rfl, if_neg (by simp [free])⟩

end

/-! ### The thermal sensors (R495, R669, R734) -/

section
variable {s : State} {d : Nat} {hot : Int}

/-- The hottest reading stands in PWR_STATUS, saturating. -/
def State.heated (s : State) (d : Nat) (hot : Int) : State := s.setField (aPwr d 0) 15 8 (min 255 hot.toNat)

/-- The warning is given from 90 °C on, and taken back below 87 °C (R669). -/
def State.warned (s : State) (d : Nat) (hot : Int) : State :=
  if 90 ≤ hot ∧ !s.flag (aPwr d 0) 28 then (s.setFlag (aPwr d 0) 28 true).irqCause 3
  else if hot < 87 then s.setFlag (aPwr d 0) 28 false else s

/-- The fault manager stops a partition for a thermal limit, unless it has stopped or is loading. -/
def State.stopHot (s : State) (e : Nat × Partition) : State :=
  if e.2.state = .stopped ∨ e.2.state = .loading then s else s.stopPartition e.1 3

/-- It does so with each partition that holds regions on die `d`. -/
def State.stopDie (s : State) (d : Nat) : State := (s.parts.filter (fun e => partOnDie e.2 d)).foldl State.stopHot s

/-- From 100 °C on the die's partitions are stopped and held; the hold ends below 90 °C (R495). -/
def State.limited (s : State) (d : Nat) (hot : Int) (f : FaultRec) : State :=
  if 100 ≤ hot ∧ !s.flag (aFlt d 0) 31 ∧ !s.crownStopped d then ((s.fault d f).setFlag (aFlt d 0) 31 true).stopDie d
  else if hot < 90 ∧ s.flag (aFlt d 0) 31 then s.setFlag (aFlt d 0) 31 false
  else s

theorem thermal_eq {ts : List Int} (hd : d < 2) (read : ts ≠ []) : ∃ f,
    s.thermal d ts = ((s.heated d (ts.foldl max (ts.headD 0))).warned d (ts.foldl max (ts.headD 0))).limited d
      (ts.foldl max (ts.headD 0)) f := by
  unfold State.thermal
  rw [if_neg (not_or.2 ⟨by omega, read⟩)]
  exact ⟨_, rfl⟩

/-! ### The reading and the warning (R669) -/

theorem field_heated (s : State) (d : Nat) (hot : Int) : (s.heated d hot).field (aPwr d 0) 15 8 = min 255 hot.toNat :=
  (field_setField_same _ _ _ _ _ (by decide)).trans (Nat.mod_eq_of_lt (by omega))

theorem aPwr_ne_aFlt (d : Nat) : aFlt d 0 ≠ aPwr d 0 := by
  unfold aFlt aPwr
  omega

theorem reg_warned (s : State) (d : Nat) (hot : Int) : (s.warned d hot).reg (aFlt d 0) = s.reg (aFlt d 0) := by
  have apart := aPwr_ne_aFlt d
  refine ite_keeps (g := fun t => t.reg (aFlt d 0)) ?_ (ite_keeps (g := fun t => t.reg (aFlt d 0)) ?_ rfl)
  · exact (reg_irqCause _ 3 quiet_aFlt.2.1).trans (reg_setFlag_ne s _ 28 true _ apart)
  · exact reg_setFlag_ne s _ 28 false _ apart

theorem parts_warned (s : State) (d : Nat) (hot : Int) : (s.warned d hot).parts = s.parts :=
  ite_keeps (g := State.parts) ((LowRegs.irqCause _ 3).1.trans (setFlag_parts ..)) (ite_keeps (g := State.parts) (setFlag_parts ..) rfl)

theorem field_warned (s : State) (d : Nat) (hot : Int) : (s.warned d hot).field (aPwr d 0) 15 8 = s.field (aPwr d 0) 15 8 := by
  have flag : ∀ v, (s.setFlag (aPwr d 0) 28 v).field (aPwr d 0) 15 8 = s.field (aPwr d 0) 15 8 := fun v =>
    field_setFlag_below s _ v 8 (by decide)
  refine ite_keeps (g := fun t => t.field (aPwr d 0) 15 8) ?_ (ite_keeps (g := fun t => t.field (aPwr d 0) 15 8) (flag false) rfl)
  exact (field_of_reg (reg_irqCause _ 3 quiet_aPwr.2.1) 15 8).trans (flag true)

theorem flag_warned_hot (s : State) (d : Nat) (warm : 90 ≤ hot) : (s.warned d hot).flag (aPwr d 0) 28 = true := by
  unfold State.warned
  split
  · exact (flag_of_reg (reg_irqCause _ 3 quiet_aPwr.2.1) 28).trans (flag_setFlag_same s _ true (by decide))
  · next given =>
    rw [if_neg (by omega)]
    simpa [warm] using given

theorem flag_warned_cool (s : State) (d : Nat) (cool : hot < 87) : (s.warned d hot).flag (aPwr d 0) 28 = false := by
  unfold State.warned
  rw [if_neg (by omega), if_pos cool]
  exact flag_setFlag_same s _ false (by decide)

/-! ### The stop of a die (R495) -/

theorem reg_stopDie (s : State) (d : Nat) {b : Nat} (calm : quiet b) : (s.stopDie d).reg b = s.reg b :=
  foldl_keeps (fun t => t.reg b) State.stopHot (fun _ _ => ite_keeps (g := fun t => t.reg b) rfl (reg_stopPartition calm ..)) _ s

theorem mem_of_mapGet {α : Type} {m : AMap α} {k : Nat} {v : α} (h : mapGet m k = some v) : (k, v) ∈ m := by
  induction m with
  | nil => exact nomatch h
  | cons e m ih =>
    rw [mapGet_cons e.1 e.2 m k] at h
    split at h
    · next same =>
      cases h
      exact same ▸ List.mem_cons_self
    · exact List.mem_cons_of_mem _ (ih h)

/-- A partition that holds a region stands in the list. -/
theorem mem_parts {p : Nat} (here : partOnDie (s.part p) d = true) : (p, s.part p) ∈ s.parts := by
  rw [State.part, mapGetD] at here ⊢
  cases found : mapGet s.parts p with
  | none =>
    rw [found] at here
    exact nomatch here
  | some x => exact mem_of_mapGet found

theorem stopHot_stays {p : Nat} (already : (s.part p).state = .stopped) (e : Nat × Partition) :
    ((s.stopHot e).part p).state = .stopped := by
  unfold State.stopHot
  split
  · exact already
  · exact stopPartition_stays already e.1 3

theorem stopHot_stops (s : State) {e : Nat × Partition} (runs : ¬(e.2.state = .stopped ∨ e.2.state = .loading)) :
    ((s.stopHot e).part e.1).state = .stopped := by
  rw [State.stopHot, if_neg runs, part_stopPartition]
  rfl

/-- Of the partitions `l`, those that run are stopped, and none that has stopped comes back. -/
theorem foldl_stopHot {l : List (Nat × Partition)} {p : Nat} (h : (s.part p).state = .stopped
      ∨ ∃ e ∈ l, e.1 = p ∧ ¬(e.2.state = .stopped ∨ e.2.state = .loading)) :
    ((l.foldl State.stopHot s).part p).state = .stopped := by
  induction l generalizing s with
  | nil => exact h.resolve_right (by simp)
  | cons e l ih =>
    refine ih ?_
    obtain already | ⟨x, hx, rfl, runs⟩ := h
    · exact .inl (stopHot_stays already e)
    · obtain rfl | later := List.mem_cons.1 hx
      · exact .inl (stopHot_stops s runs)
      · exact .inr ⟨x, later, rfl, runs⟩

theorem stopDie_stops {p : Nat} (settled : (s.part p).state ≠ .loading) (here : partOnDie (s.part p) d = true) :
    ((s.stopDie d).part p).state = .stopped := by
  refine foldl_stopHot ?_
  by_cases already : (s.part p).state = .stopped
  · exact .inl already
  · exact .inr ⟨(p, s.part p), List.mem_filter.2 ⟨mem_parts here, here⟩, rfl, not_or.2 ⟨already, settled⟩⟩

/-! ### The limit (R495) -/

theorem reg_limited (s : State) (d : Nat) (hot : Int) (f : FaultRec) : (s.limited d hot f).reg (aPwr d 0) = s.reg (aPwr d 0) := by
  have apart := (aPwr_ne_aFlt d).symm
  have log : aPwr d 0 ≠ aFlt d 0x214 := by
    unfold aFlt aPwr
    omega
  refine ite_keeps (g := fun t => t.reg (aPwr d 0)) ?_
    (ite_keeps (g := fun t => t.reg (aPwr d 0)) (reg_setFlag_ne s _ 31 false _ apart) rfl)
  exact (reg_stopDie _ d quiet_aPwr).trans ((reg_setFlag_ne _ _ 31 true _ apart).trans (reg_fault s f quiet_aPwr.2.1 log))

theorem flag_limited_cool (s : State) (d : Nat) (f : FaultRec) (cool : hot < 90) : (s.limited d hot f).flag (aFlt d 0) 31 = false := by
  unfold State.limited
  rw [if_neg (by omega)]
  split
  · exact flag_setFlag_same s _ false (by decide)
  · next free => simpa [cool] using free

/-- At the limit the die is held, and its partitions are stopped. -/
theorem limited_hot (f : FaultRec) (limit : 100 ≤ hot) (free : s.flag (aFlt d 0) 31 = false) (crown : s.crownStopped d = false) :
    (s.limited d hot f).flag (aFlt d 0) 31 = true
    ∧ ∀ p, (s.part p).state ≠ .loading → partOnDie (s.part p) d = true → ((s.limited d hot f).part p).state = .stopped := by
  unfold State.limited
  rw [if_pos (by simp [limit, free, crown])]
  have same : ∀ p, ((s.fault d f).setFlag (aFlt d 0) 31 true).part p = s.part p :=
    part_of_parts ((setFlag_parts ..).trans (fault_parts s d f))
  refine ⟨(flag_of_reg (reg_stopDie _ d quiet_aFlt) 31).trans (flag_setFlag_same _ _ true (by decide)), fun p settled here => ?_⟩
  rw [← same p] at settled here
  exact stopDie_stops settled here

/-- Reading, warning and hold after the sensors of die `d` were read, the hottest at `hot`. -/
theorem thermal_states (s : State) (d : Nat) (hot : Int) (f : FaultRec) :
    let t := ((s.heated d hot).warned d hot).limited d hot f
    t.field (aPwr d 0) 15 8 = min 255 hot.toNat
    ∧ (90 ≤ hot → t.flag (aPwr d 0) 28 = true) ∧ (hot < 87 → t.flag (aPwr d 0) 28 = false)
    ∧ (hot < 90 → t.flag (aFlt d 0) 31 = false)
    ∧ (100 ≤ hot → s.flag (aFlt d 0) 31 = false → s.crownStopped d = false → t.flag (aFlt d 0) 31 = true
      ∧ ∀ p, (s.part p).state ≠ .loading → partOnDie (s.part p) d = true → (t.part p).state = .stopped) := by
  generalize warm : (s.heated d hot).warned d hot = u
  have limit : (u.limited d hot f).reg (aPwr d 0) = u.reg (aPwr d 0) := reg_limited ..
  have status : u.reg (aFlt d 0) = s.reg (aFlt d 0) := by
    rw [← warm, reg_warned]
    exact reg_setField_ne s _ 15 8 _ _ (aPwr_ne_aFlt d)
  have parts : u.parts = s.parts := by rw [← warm, parts_warned, State.heated, setField_parts]
  refine ⟨?_, fun hot90 => ?_, fun cool => ?_, fun cool => flag_limited_cool u d f cool, fun hot100 free crown => ?_⟩
  · rw [field_of_reg limit, ← warm, field_warned, field_heated]
  · rw [flag_of_reg limit, ← warm, flag_warned_hot _ d hot90]
  · rw [flag_of_reg limit, ← warm, flag_warned_cool _ d cool]
  · have held := limited_hot (d := d) (s := u) f hot100 ((flag_of_reg status 31).trans free) ((flag_of_reg status 30).trans crown)
    simpa only [part_of_parts parts] using held

theorem exec_thermalSample {ts : List Int} (hd : d < 2) (len : ts.length = 12) (s : State) :
    exec (.thermalSample d ts) s = .next (s.thermal d ts) := exec_only rfl (and_named hd len) rfl

/-- The sensors of a die are read: reading, warning, hold (R495, R669). -/
theorem answers_thermalSample {ts : List Int} (hd : d < 2) (len : ts.length = 12) (s : State) :
    let hot := ts.foldl max (ts.headD 0)
    Answers (.thermalSample d ts) s (fun t => t.field (aPwr d 0) 15 8 = min 255 hot.toNat
      ∧ (90 ≤ hot → t.flag (aPwr d 0) 28 = true) ∧ (hot < 87 → t.flag (aPwr d 0) 28 = false)
      ∧ (hot < 90 → t.flag (aFlt d 0) 31 = false)
      ∧ (100 ≤ hot → s.flag (aFlt d 0) 31 = false → s.crownStopped d = false → t.flag (aFlt d 0) 31 = true
        ∧ ∀ p, (s.part p).state ≠ .loading → partOnDie (s.part p) d = true → (t.part p).state = .stopped)) := by
  intro hot
  obtain ⟨f, done⟩ := thermal_eq (s := s) hd (List.ne_nil_of_length_pos (len ▸ by decide : 0 < ts.length))
  exact ⟨_, (exec_thermalSample hd len s).trans (congrArg _ done), thermal_states s d hot f⟩

theorem answers_thermtrip {n : Nat} (hd : d < 2) (hn : n < 12) (s : State) :
    Answers (.thermtrip d n) s (fun t => t.sys.pins.thermtrip = true ∧ t.regs = s.regs) :=
  ⟨s.tripPin, exec_only rfl (and_named hd hn) rfl, rfl, rfl⟩

end

/-- Settles O57: cold reset and the steps of boot, one by one; then the flash pins and the thermal sensors. -/
theorem bootComplete : Obligations.BootComplete :=
  ⟨fun s => ⟨answers_coldReset s, answers_sramFillDone, fun crown _ len => answers_stackTrainingDone crown len,
      answers_memFillDone, answers_bootReady⟩,
    fun s _ _ _ a bs hd hn len => ⟨answers_flashRequest s, answers_flashRelease a bs, answers_flashRelease_free [(a, bs)],
      answers_thermalSample hd len s, answers_thermtrip hd hn s⟩⟩

end Sys2Proof.Machine
